-- ==== Sys2Proof/Word.lean ====
section
/-! DEFINITION. Word types of the model and its plainest containers: sparse, address-sorted lists. -/

namespace Sys2Proof

/-- A byte of memory. -/
abbrev Byte := BitVec 8

/-- A 32-bit register or element code. -/
abbrev Word := BitVec 32

/-- A 64-bit word of a descriptor, packet header or record. -/
abbrev DWord := BitVec 64

/-- A list of (key, value) pairs with strictly rising keys: what it does not list reads as a default. -/
abbrev Sparse (α : Type) := List (Nat × α)

namespace Sparse

/-- The value listed under a key. -/
def find {α : Type} : Sparse α → Nat → Option α
  | [], _ => none
  | (k, v) :: r, x => if k = x then some v else find r x

/-- The value under a key, with what an unlisted key reads as. -/
def get {α : Type} (d : α) (m : Sparse α) (x : Nat) : α := (find m x).getD d

/-- List a value under a key, keeping keys in rising order. -/
def put {α : Type} : Sparse α → Nat → α → Sparse α
  | [], x, v => [(x, v)]
  | (k, w) :: r, x, v =>
    if x < k then (x, v) :: (k, w) :: r
    else if x = k then (x, v) :: r
    else (k, w) :: put r x v

/-- Drop a key. -/
def drop {α : Type} : Sparse α → Nat → Sparse α
  | [], _ => []
  | (k, w) :: r, x => if k = x then drop r x else (k, w) :: drop r x

/-- Write a value in canonical form: a key whose value is the default is not listed. -/
def set {α : Type} [DecidableEq α] (d : α) (m : Sparse α) (x : Nat) (v : α) : Sparse α :=
  if v = d then drop m x else put m x v

/-- Keys rise strictly. -/
def rising {α : Type} : Sparse α → Bool
  | [] => true
  | [_] => true
  | (a, _) :: (b, w) :: r => decide (a < b) && rising ((b, w) :: r)

/-- Canonical form: keys rise strictly and no entry equals the default. -/
def wf {α : Type} [DecidableEq α] (d : α) (m : Sparse α) : Bool :=
  rising m && m.all (fun e => decide (e.2 ≠ d))

end Sparse

end Sys2Proof
end

