-- ==== Sys2Proof/Syntax.lean ====
section
/-! DEFINITION. The commands of the GM96 block: one constructor of `Instr` per row of the table of operations and events,
with the row's operands. -/

namespace Sys2Proof

/-- A pass stream (R205): forward, backward, update. -/
inductive Stream where
  | f | b | u
deriving DecidableEq, Repr

/-- A matrix engine of a core (R68). -/
inductive Eng where
  | f | b
deriving DecidableEq, Repr

/-- The fields of an instruction word other than OPC (Table 7.4), which the command's name gives. -/
structure IFields where
  pn : Bool
  ps : BitVec 3
  md : BitVec 4
  d : BitVec 8
  a : BitVec 8
  b : BitVec 8
  c : BitVec 8
  imm : BitVec 16
deriving DecidableEq, Repr

/-- What a nib's check reports (R87, R90): the engine's physical unit number by Table 10.3, the output block in progress
with its sub-engine, the failing chunk and the row and column masks; `residue` marks a modulo-7 mismatch (R88). -/
structure NibMismatch where
  row : Nat
  col : Nat
  block : Nat
  chunk : Nat
  rowMask : Word
  colMask : Word
  residue : Bool
deriving DecidableEq, Repr

/-- How a nib recomputation ends (R91, R93): clean, with the same signature, or with another one; `restartFails` is the
restart after a remap. -/
inductive RecompResult where
  | clean | same | different | restartFails
deriving DecidableEq, Repr

/-- What a patrol or latent-error visit finds in one 32-byte unit (R186, R189). -/
inductive ScrubResult where
  | clean | corrected | uncorrectable
deriving DecidableEq, Repr

/-- A word the SRAM and register scrub finds in error (R324, Table 10.6). -/
inductive SramFinding where
  /-- core SRAM of a physical slot: local byte address; corrected or not; whether it fails again after a rewrite. -/
  | core (slot : Nat) (addr : Nat) (corrected : Bool) (again : Bool)
  /-- accumulation SRAM of an MSE die: index of the open range that holds the word; corrected or not; fails again. -/
  | mse (die : Nat) (range : Nat) (corrected : Bool) (again : Bool)
deriving DecidableEq, Repr

/-- A Morov Link packet (Table 8.8) with its payload bytes, 16 a slot. -/
structure Packet where
  ptype : BitVec 4
  hops : BitVec 3
  rsvd : BitVec 1
  len : BitVec 6
  upd : Bool
  pf : Bool
  dst : BitVec 16
  src : BitVec 16
  tag : BitVec 16
  x : BitVec 2
  via : BitVec 10
  nm : Bool
  gsel : BitVec 11
  addr : BitVec 40
  payload : List Byte
deriving DecidableEq, Repr

/-- A byte that a host has written in its own memory (port, bus address, value), visible to the device when the command
that carries it arrives (R196, R387). -/
structure HostWrite where
  port : Nat
  bus : Nat
  val : Byte
deriving DecidableEq, Repr

/-- Where a SEQ command comes from (R393): the SEQ.CMD register through a port, or descriptor `i` of a queue pair. -/
inductive CmdSrc where
  | bar0 (port : Nat)
  | queue (port : Nat) (q : Nat) (i : Nat)
deriving DecidableEq, Repr

/-- The result of one structural test, its repeat included (Table 10.9). -/
inductive TestResult where
  | pass | failThenPass | datapath | checker
deriving DecidableEq, Repr

/-- A unit that a die's watchdog watches (R336). -/
inductive StallUnit where
  | engine (c : Nat) (e : Eng)
  | collector (c : Nat) (g : Nat)
  | mseRing (k : Nat) (r : Nat)
  | dma (n : Nat)
  | router (l : Nat)
  | seq
deriving DecidableEq, Repr

/-- What the governor measures in one period (R360, R361, R367): the input voltage in 0.1 V and current in 0.1 A averaged over
100 µs and 1 ms; for each governed die its junction in °C, and the voltage in mV at which its monitors would read the target
rate; the watts that each power stage delivers. -/
structure GovMeas where
  v100us : Nat
  v1ms : Nat
  i100us : Nat
  i1ms : Nat
  tj : List Nat
  volt : List Nat
  rail : List Nat
deriving DecidableEq, Repr

/-- One sensor sample that Ndomir takes (Table 13.1), or a power-stage phase it finds faulty (R366). -/
inductive SensorSample where
  | junction (i : Nat) (celsius : Nat)
  | stackTemp (s : Nat) (celsius : Nat)
  | vin (deciVolt : Nat)
  | inputCurrent (deciAmp : Nat)
  | inputPower
  | stageCurrent (i : Nat) (deciAmp : Nat)
  | rate (i : Nat) (mhs : Nat)
  | voltage (i : Nat) (milliVolt : Nat)
  | phaseFault (i : Nat)
deriving DecidableEq, Repr

/-- A medium that reaches Ndomir's MCTP endpoint (R415). -/
inductive Medium where
  | i3c | pcie0 | pcie1
deriving DecidableEq, Repr

/-- A P-256 public key, X then Y (R419). -/
abbrev Key := BitVec 512

/-- An image as FIRMWARE_DATA brings it: the bytes of its header (Table 13.6), whether DIGEST matches its payload, and whether
SIGNATURE verifies (R422; log entry 27). -/
structure ImageFile where
  header : List Byte
  digestOk : Bool
  sigOk : Bool
deriving DecidableEq, Repr

/-- A firmware image as received or stored (Table 13.6): whether its header is laid out as the table gives (MAGIC, LENGTH, the
ranges of SVN and KEYSLOT, zeros where it says zero), the header's fields, and whether its digest and its signature verify
(R421, R422). -/
structure FwImage where
  wellFormed : Bool
  component : Nat
  revoke : BitVec 4
  version : BitVec 64
  svn : BitVec 6
  keySlot : BitVec 2
  pubkeyHash : BitVec 256
  digest : BitVec 256
  digestOk : Bool
  sigOk : Bool
deriving DecidableEq, Repr

/-- A signed owner request (R429): its medium, and what its 64-byte signature is: the key under which it verifies (none: it
verifies under no key) and the bytes over whose SHA-256 it was made. -/
structure SignedReq where
  medium : Medium
  signer : Option Key
  covers : List Byte
deriving DecidableEq, Repr

/-- What the tests of a refurbishment find (R434): slots that fail either run; nibs and vector lanes that fail, each with its
slot and its unit number by Table 10.3; link lanes that fail loopback, 0 to 383 and spare lanes 384 to 431; per power stage the
phases that fail. -/
structure RefurbResult where
  failedSlots : List Nat
  failedNibs : List (Nat × Nat)
  failedLanes : List (Nat × Nat)
  failedLinkLanes : List Nat
  failedPhases : List (Nat × Nat)
deriving DecidableEq, Repr

/-- The registers of a port's configuration space that the manual names: of the type 0 header, and of the capabilities of Table
12.1 (log entry 110). -/
inductive CfgReg where
  | id | command | classRev | header | bar (i : Nat) | subsystem
  | pmcsr | devCap | devCtl | devCap2 | devCtl2 | linkStat
  | msixCtl | msixTable | msixPba
  /-- Double words 1 to 10 of the Advanced Error Reporting capability. -/
  | aer (i : Nat)
  | dsnLo | dsnHi | rebarCap | rebarCtl
deriving DecidableEq, Repr

/-- A PCIe configuration request to a port: a read or a write of a register (R377, R378, R438). -/
inductive CfgReq where
  | read (r : CfgReg)
  | write (r : CfgReg) (v : Word)
deriving DecidableEq, Repr

/-- A write to BAR0 (R381): of an aligned 32-bit word, of an aligned pair of words, or a narrower one. -/
inductive BarWrite where
  | word (v : Word)
  | pair (lo hi : Word)
  | narrow (bytes : List Byte)
deriving DecidableEq, Repr

/-- The levels of TDI and of TRST_N at an edge of TCK (R456, R461). -/
structure TapIn where
  /-- The level of TDI. -/
  tdi : Bool
  /-- The level of TRST_N, low where nothing drives it. -/
  trstN : Bool
deriving DecidableEq, Repr

/-- The commands: one constructor per row of the table of operations and events. -/
inductive Instr where
  /-- REGISTER_WRITE (R470). -/
  | registerWrite (port : Nat) (off : Nat) (x : BarWrite)
  /-- VIN_RISE (R437). -/
  | vinRise
  /-- VIN_FALL (R466). -/
  | vinFall
  /-- VIN_SURGE (R426). -/
  | vinSurge
  /-- CONVERTER_SOFT_START_COMPLETE (R437). -/
  | converterSoftStartComplete
  /-- FIRMWARE_VERIFIED (R422). -/
  | firmwareVerified
  /-- HBM_TRAINING_COMPLETE (R439). -/
  | hbmTrainingComplete (failed : BitVec 12) (qual : Bool) (repair : List Nat)
  /-- CORE_SELF_TEST_COMPLETE (R440). -/
  | coreSelfTestComplete (once : List Nat) (twice : List Nat)
  /-- LINK_WAIT_END (R441). -/
  | linkWaitEnd
  /-- CONFIG_REQUEST (R438). -/
  | configRequest (port : Nat) (rq : CfgReq)
  /-- DEVRST_N_FALL (R445). -/
  | devrstNFall
  /-- DEVRST_N_QUALIFY (R446). -/
  | devrstNQualify
  /-- DEVRST_N_RISE (R446). -/
  | devrstNRise
  /-- DEVRST (R444). -/
  | devrst (port : Nat)
  /-- RESET_HOLD_END (R445). -/
  | resetHoldEnd
  /-- PERST_ASSERT (R447). -/
  | perstAssert (port : Nat)
  /-- PERST_DEASSERT (R437). -/
  | perstDeassert (port : Nat)
  /-- FUNCTION_LEVEL_RESET (R447). -/
  | functionLevelReset (port : Nat)
  /-- D3HOT_ENTRY (R378). -/
  | d3hotEntry (port : Nat)
  /-- D0_RETURN (R378). -/
  | d0Return (port : Nat)
  /-- NOP (R217). -/
  | nop (c : Nat) (g : Nat) (w : IFields)
  /-- ADD_I (R217). -/
  | addI (c : Nat) (g : Nat) (w : IFields)
  /-- ADDK_I (R217). -/
  | addkI (c : Nat) (g : Nat) (w : IFields)
  /-- SUB_I (R217). -/
  | subI (c : Nat) (g : Nat) (w : IFields)
  /-- MUL_I (R217). -/
  | mulI (c : Nat) (g : Nat) (w : IFields)
  /-- MULH_I (R217). -/
  | mulhI (c : Nat) (g : Nat) (w : IFields)
  /-- MAC_I (R217). -/
  | macI (c : Nat) (g : Nat) (w : IFields)
  /-- AND (R217). -/
  | andW (c : Nat) (g : Nat) (w : IFields)
  /-- OR (R217). -/
  | orW (c : Nat) (g : Nat) (w : IFields)
  /-- XOR (R217). -/
  | xorW (c : Nat) (g : Nat) (w : IFields)
  /-- SHL (R217). -/
  | shl (c : Nat) (g : Nat) (w : IFields)
  /-- SHR (R217). -/
  | shr (c : Nat) (g : Nat) (w : IFields)
  /-- ROTL (R217). -/
  | rotl (c : Nat) (g : Nat) (w : IFields)
  /-- MIN_I (R217). -/
  | minI (c : Nat) (g : Nat) (w : IFields)
  /-- MAX_I (R217). -/
  | maxI (c : Nat) (g : Nat) (w : IFields)
  /-- ONES (R217). -/
  | ones (c : Nat) (g : Nat) (w : IFields)
  /-- CLZ (R217). -/
  | clz (c : Nat) (g : Nat) (w : IFields)
  /-- LDK (R214). -/
  | ldk (c : Nat) (g : Nat) (w : IFields)
  /-- MOV (R217). -/
  | mov (c : Nat) (g : Nat) (w : IFields)
  /-- PICK (R217). -/
  | pick (c : Nat) (g : Nat) (w : IFields)
  /-- CMP_I (R217). -/
  | cmpI (c : Nat) (g : Nat) (w : IFields)
  /-- GETSYS (R217). -/
  | getsys (c : Nat) (g : Nat) (w : IFields)
  /-- PLOG (R217). -/
  | plog (c : Nat) (g : Nat) (w : IFields)
  /-- ADD_W (R218). -/
  | addW (c : Nat) (g : Nat) (w : IFields)
  /-- MUL_W (R218). -/
  | mulW (c : Nat) (g : Nat) (w : IFields)
  /-- FMA_W (R218). -/
  | fmaW (c : Nat) (g : Nat) (w : IFields)
  /-- MIN_W (R217). -/
  | minW (c : Nat) (g : Nat) (w : IFields)
  /-- MAX_W (R217). -/
  | maxW (c : Nat) (g : Nat) (w : IFields)
  /-- CMP_W (R217). -/
  | cmpW (c : Nat) (g : Nat) (w : IFields)
  /-- DIV_W (R218). -/
  | divW (c : Nat) (g : Nat) (w : IFields)
  /-- SQRT_W (R218). -/
  | sqrtW (c : Nat) (g : Nat) (w : IFields)
  /-- FLT_I (R217). -/
  | fltI (c : Nat) (g : Nat) (w : IFields)
  /-- INT_W (R218). -/
  | intW (c : Nat) (g : Nat) (w : IFields)
  /-- ADD_B2 (R218). -/
  | addB2 (c : Nat) (g : Nat) (w : IFields)
  /-- MUL_B2 (R218). -/
  | mulB2 (c : Nat) (g : Nat) (w : IFields)
  /-- FMA_B2 (R218). -/
  | fmaB2 (c : Nat) (g : Nat) (w : IFields)
  /-- MIN_B2 (R217). -/
  | minB2 (c : Nat) (g : Nat) (w : IFields)
  /-- MAX_B2 (R217). -/
  | maxB2 (c : Nat) (g : Nat) (w : IFields)
  /-- NAR_B16 (R55). -/
  | narB16 (c : Nat) (g : Nat) (w : IFields)
  /-- WID_B16 (R217). -/
  | widB16 (c : Nat) (g : Nat) (w : IFields)
  /-- ENC_F8 (R58). -/
  | encF8 (c : Nat) (g : Nat) (w : IFields)
  /-- DEC_N (R43). -/
  | decN (c : Nat) (g : Nat) (w : IFields)
  /-- INV (R220). -/
  | inv (c : Nat) (g : Nat) (w : IFields)
  /-- INVSQRT (R220). -/
  | invsqrt (c : Nat) (g : Nat) (w : IFields)
  /-- POW2 (R220). -/
  | pow2 (c : Nat) (g : Nat) (w : IFields)
  /-- LGB (R220). -/
  | lgb (c : Nat) (g : Nat) (w : IFields)
  /-- SIN_T (R220). -/
  | sinT (c : Nat) (g : Nat) (w : IFields)
  /-- COS_T (R220). -/
  | cosT (c : Nat) (g : Nat) (w : IFields)
  /-- LRD (R221). -/
  | lrd (c : Nat) (g : Nat) (w : IFields)
  /-- LWR (R221). -/
  | lwr (c : Nat) (g : Nat) (w : IFields)
  /-- LD (R221). -/
  | ld (c : Nat) (g : Nat) (w : IFields)
  /-- ST (R221). -/
  | st (c : Nat) (g : Nat) (w : IFields)
  /-- LD_ACQ (R193). -/
  | ldAcq (c : Nat) (g : Nat) (w : IFields)
  /-- ST_REL (R193). -/
  | stRel (c : Nat) (g : Nat) (w : IFields)
  /-- LOAD_COMPLETE (R221). -/
  | loadComplete (c : Nat) (g : Nat) (fail : Bool)
  /-- AT_ADD (R232). -/
  | atAdd (c : Nat) (g : Nat) (w : IFields)
  /-- AT_AND (R232). -/
  | atAnd (c : Nat) (g : Nat) (w : IFields)
  /-- AT_OR (R232). -/
  | atOr (c : Nat) (g : Nat) (w : IFields)
  /-- AT_XOR (R232). -/
  | atXor (c : Nat) (g : Nat) (w : IFields)
  /-- AT_MIN (R232). -/
  | atMin (c : Nat) (g : Nat) (w : IFields)
  /-- AT_MAX (R232). -/
  | atMax (c : Nat) (g : Nat) (w : IFields)
  /-- AT_ADDW (R233). -/
  | atAddw (c : Nat) (g : Nat) (w : IFields)
  /-- AT_SWAP (R234). -/
  | atSwap (c : Nat) (g : Nat) (w : IFields)
  /-- AT_CMPX (R234). -/
  | atCmpx (c : Nat) (g : Nat) (w : IFields)
  /-- XLANE (R217). -/
  | xlane (c : Nat) (g : Nat) (w : IFields)
  /-- POLL (R217). -/
  | poll (c : Nat) (g : Nat) (w : IFields)
  /-- BWAIT (R229). -/
  | bwait (c : Nat) (g : Nat) (w : IFields)
  /-- BMARK (R229). -/
  | bmark (c : Nat) (g : Nat) (w : IFields)
  /-- BARRIER_WATCHDOG_EXPIRY (R231). -/
  | barrierWatchdogExpiry (c : Nat) (blk : Nat)
  /-- FENCE (R193). -/
  | fence (c : Nat) (g : Nat) (w : IFields)
  /-- TISSUE (R223). -/
  | tissue (c : Nat) (g : Nat) (w : IFields)
  /-- TWAIT (R224). -/
  | twait (c : Nat) (g : Nat) (w : IFields)
  /-- MSEREQ (R225). -/
  | msereq (c : Nat) (g : Nat) (w : IFields)
  /-- DMAREQ (R225). -/
  | dmareq (c : Nat) (g : Nat) (w : IFields)
  /-- STIP (R219). -/
  | stip (c : Nat) (g : Nat) (w : IFields)
  /-- SETCTX (R219). -/
  | setctx (c : Nat) (g : Nat) (w : IFields)
  /-- JUMP (R226). -/
  | jump (c : Nat) (g : Nat) (w : IFields)
  /-- JUMPR (R228). -/
  | jumpr (c : Nat) (g : Nat) (w : IFields)
  /-- CALL (R228). -/
  | call (c : Nat) (g : Nat) (w : IFields)
  /-- CEDE (R239). -/
  | cede (c : Nat) (g : Nat) (w : IFields)
  /-- PROBE (R217). -/
  | probe (c : Nat) (g : Nat) (w : IFields)
  /-- DONE (R224). -/
  | doneW (c : Nat) (g : Nat) (w : IFields)
  /-- TRAP (R217). -/
  | trapSoft (c : Nat) (g : Nat) (w : IFields)
  /-- PSTAIL_WRITE (R205). -/
  | pstailWrite (port : Nat) (slot : Nat) (st : Nat) (v : Word)
  /-- WORK_ITEM_NOP (R207). -/
  | workItemNop (c : Nat) (st : Stream)
  /-- LAUNCH (R207). -/
  | launch (c : Nat) (st : Stream)
  /-- WORK_ITEM_MARK (R207). -/
  | workItemMark (c : Nat) (st : Stream)
  /-- BLOCK_START (R208). -/
  | blockStart (c : Nat) (st : Stream)
  /-- GROUP_REPLAY (R237). -/
  | groupReplay (port : Nat) (slot : Nat) (g : Nat)
  /-- GROUP_KILL (R237). -/
  | groupKill (port : Nat) (slot : Nat) (g : Nat)
  /-- GROUP_STEP (R238). -/
  | groupStep (port : Nat) (slot : Nat) (g : Nat)
  /-- GROUP_HALT (R238). -/
  | groupHalt (port : Nat) (slot : Nat) (g : Nat)
  /-- PARK_TIMEOUT (R237). -/
  | parkTimeout (c : Nat) (g : Nat)
  /-- ICINV (R204). -/
  | icinv (port : Nat) (slot : Nat) (v : Word)
  /-- DBGDATA_WRITE (R237). -/
  | dbgdataWrite (port : Nat) (slot : Nat) (v : Word)
  /-- TILE_NOP (R96). -/
  | tileNop (c : Nat) (e : Eng)
  /-- MMA (R73). -/
  | mma (c : Nat) (e : Eng)
  /-- DESCRIPTOR_COMPLETE (R99). -/
  | descriptorComplete (c : Nat) (e : Eng)
  /-- CHUNK_MISMATCH (R90). -/
  | chunkMismatch (c : Nat) (e : Eng) (m : NibMismatch)
  /-- RECOMPUTATION_COMPLETE (R91). -/
  | recomputationComplete (c : Nat) (e : Eng) (r : RecompResult)
  /-- ENGINE_IDLE (R86). -/
  | engineIdle (c : Nat) (e : Eng)
  /-- BLOTTER_SAMPLE_COMPLETE (R126). -/
  | blotterSampleComplete (cl : Nat)
  /-- MSE_RTAIL_WRITE (R147). -/
  | mseRtailWrite (port : Nat) (k : Nat) (r : Nat) (v : Word)
  /-- MSE_NOP (R150). -/
  | mseNop (k : Nat) (r : Nat)
  /-- AMAX (R102). -/
  | mseAmax (k : Nat) (r : Nat)
  /-- ENCODE (R56). -/
  | mseEncode (k : Nat) (r : Nat)
  /-- WIDEN (R43). -/
  | mseWiden (k : Nat) (r : Nat)
  /-- FILL (R158). -/
  | mseFill (k : Nat) (r : Nat)
  /-- COPY (R159). -/
  | mseCopy (k : Nat) (r : Nat)
  /-- HIST (R160). -/
  | mseHist (k : Nat) (r : Nat)
  /-- OPEN (R154). -/
  | openRange (k : Nat) (r : Nat)
  /-- OPEN_WAIT_END (R154). -/
  | openWaitEnd (k : Nat) (r : Nat)
  /-- CLEAR (R154). -/
  | clearRange (k : Nat) (r : Nat)
  /-- FINISH (R157). -/
  | finishRange (k : Nat) (r : Nat)
  /-- CLOSE (R157). -/
  | closeRange (k : Nat) (r : Nat)
  /-- MSE_COMMAND_COMPLETE (R153). -/
  | mseCommandComplete (k : Nat) (r : Nat)
  /-- NOTOPEN_TIMEOUT (R156). -/
  | notopenTimeout (k : Nat)
  /-- DMA_CHTAIL_WRITE (R162). -/
  | dmaChtailWrite (port : Nat) (n : Nat) (v : Word)
  /-- DMA_NOP (R164). -/
  | dmaNop (n : Nat)
  /-- LINEAR (R165). -/
  | dmaLinear (n : Nat)
  /-- TILE (R165). -/
  | dmaTile (n : Nat)
  /-- TILE_SKEW (R168). -/
  | dmaTileSkew (n : Nat)
  /-- TILE_UNSKEW (R168). -/
  | dmaTileUnskew (n : Nat)
  /-- DMA_COMPLETE (R167). -/
  | dmaComplete (n : Nat) (linkFail : Bool)
  /-- TLB_INVALIDATE (R180). -/
  | tlbInvalidate (port : Nat) (v : Word)
  /-- TLB_INVALIDATE_DONE (R180). -/
  | tlbInvalidateDone
  /-- BAR4_READ (R176). -/
  | bar4Read (port : Nat) (off : Nat) (n : Nat)
  /-- BAR4_WRITE (R176). -/
  | bar4Write (port : Nat) (off : Nat) (bytes : List Byte)
  /-- RETIREMENT_COMPLETE (R187). -/
  | retirementComplete (stack : Nat) (blk : Nat)
  /-- PATROL_SCRUB (R189). -/
  | patrolScrub (stack : Nat) (unit : Nat) (found : ScrubResult)
  /-- PATROL_PASS_COMPLETE (R187). -/
  | patrolPassComplete
  /-- HBM_IDLE_TIMEOUT (R368). -/
  | hbmIdleTimeout
  /-- SRAM_SCRUB (R324). -/
  | sramScrub (found : List SramFinding)
  /-- LINK_ENABLE (R253). -/
  | linkEnable (port : Nat) (l : Nat) (v : Word)
  /-- LINK_DISABLE (R249). -/
  | linkDisable (port : Nat) (l : Nat) (v : Word)
  /-- RETRAIN (R249). -/
  | retrain (port : Nat) (l : Nat) (v : Word)
  /-- CAPABILITY_BLOCK (R254). -/
  | capabilityBlock (l : Nat) (blk : BitVec 128)
  /-- LINK_UP (R253). -/
  | linkUp (l : Nat) (margin : Byte)
  /-- LINK_TRAINING_FAIL (R253). -/
  | linkTrainingFail (l : Nat)
  /-- TRAINING_RETRY_WAIT_END (R253). -/
  | trainingRetryWaitEnd (l : Nat)
  /-- LANE_DEGRADED (R252). -/
  | laneDegraded (l : Nat) (lane : Nat) (partnerSpare : Bool)
  /-- DATA_FLIT (R248). -/
  | dataFlit (l : Nat) (flit : BitVec 2048)
  /-- IDLE_FLIT (R247). -/
  | idleFlit (l : Nat) (flit : BitVec 2048)
  /-- NAK (R248). -/
  | nak (l : Nat) (flit : BitVec 2048)
  /-- REPLAY_TIMEOUT (R248). -/
  | replayTimeout (l : Nat)
  /-- TRANSIT_FORWARD (R271). -/
  | transitForward (l : Nat) (p : Packet)
  /-- WRITE (R261). -/
  | pktWrite (l : Nat) (p : Packet)
  /-- READ (R261). -/
  | pktRead (l : Nat) (p : Packet)
  /-- READRESP (R262). -/
  | pktReadResp (l : Nat) (p : Packet)
  /-- READ_TIMEOUT (R262). -/
  | readTimeout (id : Nat)
  /-- LOST_NOTICE (R263). -/
  | lostNotice (l : Nat) (p : Packet)
  /-- CONTRIB (R155). -/
  | pktContrib (l : Nat) (p : Packet)
  /-- SEAL_CLEAN (R287). -/
  | sealClean (l : Nat) (p : Packet)
  /-- SEAL_UP (R289). -/
  | sealUp (l : Nat) (p : Packet)
  /-- SEAL_DOWN (R291). -/
  | sealDown (l : Nat) (p : Packet)
  /-- RETRACT (R298). -/
  | pktRetract (l : Nat) (p : Packet)
  /-- RESEND (R299). -/
  | pktResend (l : Nat) (p : Packet)
  /-- BARRIER_ARRIVE (R306). -/
  | barrierArrive (l : Nat) (p : Packet)
  /-- BARRIER_RELEASE (R306). -/
  | barrierRelease (l : Nat) (p : Packet)
  /-- GATHERED (R295). -/
  | gathered (l : Nat) (p : Packet)
  /-- REPLAYING (R300). -/
  | replaying (l : Nat) (p : Packet)
  /-- HALTSTEP (R303). -/
  | haltstep (l : Nat) (p : Packet)
  /-- LINK_STATE_NOTICE (R265). -/
  | linkStateNotice (l : Nat) (p : Packet)
  /-- NDOMIR_MESSAGE (R260). -/
  | ndomirMessage (l : Nat) (p : Packet)
  /-- EXCLUSION_EXPIRY (R273). -/
  | exclusionExpiry (node : Nat) (l : Nat)
  /-- COUNTER_INCREMENT (R308). -/
  | counterIncrement (die : Nat) (cnt : Nat)
  /-- CHECKPOINT_WRITE_COMPLETE (R318). -/
  | checkpointWriteComplete (ok : Bool)
  /-- SEAL_TIMEOUT (R303). -/
  | sealTimeout
  /-- HM_TIMEOUT (R305). -/
  | hmTimeout
  /-- HM_REOPEN_WAIT_END (R305). -/
  | hmReopenWaitEnd (bucket : Nat)
  /-- REPLAYING_TIMER (R300). -/
  | replayingTimer
  /-- STEP_STATUS_TIMER (R316). -/
  | stepStatusTimer
  /-- DRTAIL_WRITE (R315). -/
  | drtailWrite (port : Nat) (v : Word) (hw : List HostWrite)
  /-- LOAD (R313). -/
  | seqLoad (src : CmdSrc)
  /-- START (R106). -/
  | seqStart (src : CmdSrc)
  /-- RESUME (R318). -/
  | seqResume (src : CmdSrc)
  /-- PAUSE (R313). -/
  | seqPause (src : CmdSrc)
  /-- CONTINUE (R313). -/
  | seqContinue (src : CmdSrc)
  /-- HALT (R303). -/
  | seqHalt (src : CmdSrc)
  /-- RETRY (R313). -/
  | seqRetry (src : CmdSrc)
  /-- CHECKPOINT (R318). -/
  | seqCheckpoint (src : CmdSrc)
  /-- UNLOAD (R313). -/
  | seqUnload (src : CmdSrc)
  /-- HMPUT (R305). -/
  | seqHmput (src : CmdSrc)
  /-- IFT_TEST_START (R344). -/
  | iftTestStart (slot : Nat)
  /-- IFT_TEST_COMPLETE (R348). -/
  | iftTestComplete (slot : Nat) (r : TestResult)
  /-- PREEMPT_TIMEOUT (R345). -/
  | preemptTimeout (c : Nat)
  /-- CONTEXT_MOVE (R346). -/
  | contextMove (c : Nat)
  /-- CONTEXT_MOVE_COMPLETE (R346). -/
  | contextMoveComplete (c : Nat)
  /-- WATCHDOG_STALL (R336). -/
  | watchdogStall (u : StallUnit)
  /-- INPUT_OVERCURRENT (R327). -/
  | inputOvercurrent
  /-- ERHEAD_WRITE (R331). -/
  | erheadWrite (port : Nat) (v : Word)
  /-- GOVERNOR_PERIOD (R360). -/
  | governorPeriod (m : GovMeas)
  /-- RATE_MONITOR_REPORT (R352). -/
  | rateMonitorReport (die : Nat) (rates : List Nat)
  /-- NDOMIR_SENSOR_POLL (R408). -/
  | ndomirSensorPoll (x : SensorSample)
  /-- THROTTLE_N_FALL (R371). -/
  | throttleNFall
  /-- THROTTLE_QUALIFY (R372). -/
  | throttleQualify
  /-- THROTTLE_N_RISE (R371). -/
  | throttleNRise
  /-- THROTTLE_HOLD_END (R373). -/
  | throttleHoldEnd
  /-- THROTTLE_SUSTAINED (R374). -/
  | throttleSustained
  /-- TSOFF_WRITE (R355). -/
  | tsoffWrite (port : Nat) (v : Word)
  /-- QUEUE_ENABLE (R384). -/
  | queueEnable (port : Nat) (tgt : Nat) (q : Nat) (v : Word)
  /-- QUEUE_DISABLE (R385). -/
  | queueDisable (port : Nat) (tgt : Nat) (q : Nat)
  /-- SQ_DOORBELL (R386). -/
  | sqDoorbell (port : Nat) (q : Nat) (v : Word) (hw : List HostWrite)
  /-- CQ_DOORBELL (R386). -/
  | cqDoorbell (port : Nat) (q : Nat) (v : Word)
  /-- DESCRIPTOR_FETCH (R387). -/
  | descriptorFetch (port : Nat) (q : Nat) (fail : Bool)
  /-- QUEUE_NOP (R394). -/
  | queueNop (port : Nat) (q : Nat) (i : Nat)
  /-- MOVE (R391). -/
  | queueMove (port : Nat) (q : Nat) (i : Nat) (fail : Bool)
  /-- MSE (R392). -/
  | queueMse (port : Nat) (q : Nat) (i : Nat)
  /-- MARK (R394). -/
  | queueMark (port : Nat) (q : Nat) (i : Nat) (fail : Bool)
  /-- QUEUE_DESCRIPTOR_COMPLETE (R396). -/
  | queueDescriptorComplete (port : Nat) (q : Nat) (i : Nat)
  /-- STATUS_BLOCK_WRITE (R398). -/
  | statusBlockWrite (port : Nat) (q : Nat)
  /-- HEARTBEAT (R404). -/
  | heartbeat (port : Nat) (tgt : Nat)
  /-- HEARTBEAT_EXPIRY (R404). -/
  | heartbeatExpiry
  /-- CLAIM (R405). -/
  | claim (port : Nat) (tgt : Nat)
  /-- FAILOVER (R401). -/
  | failover (port : Nat) (v : Word)
  /-- POSITION_FRAME (R411). -/
  | positionFrame (frame : BitVec 9)
  /-- POS_IN_LOW_TIMEOUT (R411). -/
  | posInLowTimeout
  /-- POSITION_FRAME_SEND (R410). -/
  | positionFrameSend
  /-- LEDGER_HOURLY (R427). -/
  | ledgerHourly
  /-- EVENT_RETRY_TIMEOUT (R417). -/
  | eventRetryTimeout
  /-- NONCE_EXPIRY (R429). -/
  | nonceExpiry
  /-- ENTDAA (R413). -/
  | entdaa (da : BitVec 7)
  /-- RSTDAA (R414). -/
  | rstdaa
  /-- SETNEWDA (R414). -/
  | setnewda (da : BitVec 7)
  /-- ENEC (R414). -/
  | enec (ev : Byte)
  /-- DISEC (R414). -/
  | disec (ev : Byte)
  /-- GETPID (R413). -/
  | getpid
  /-- GETBCR (R413). -/
  | getbcr
  /-- GETDCR (R413). -/
  | getdcr
  /-- GETSTATUS (R414). -/
  | getstatus
  /-- GETMWL (R414). -/
  | getmwl
  /-- SETMWL (R414). -/
  | setmwl (v : BitVec 16)
  /-- GETMRL (R414). -/
  | getmrl
  /-- SETMRL (R414). -/
  | setmrl (v : BitVec 16)
  /-- SET_ENDPOINT_ID (R415). -/
  | setEndpointId (md : Medium) (eid : Byte)
  /-- GET_ENDPOINT_ID (R415). -/
  | getEndpointId (md : Medium)
  /-- GET_ENDPOINT_UUID (R415). -/
  | getEndpointUuid (md : Medium)
  /-- GET_MCTP_VERSION_SUPPORT (R415). -/
  | getMctpVersionSupport (md : Medium) (ty : Byte)
  /-- GET_MESSAGE_TYPE_SUPPORT (R415). -/
  | getMessageTypeSupport (md : Medium)
  /-- GET_TID (R416). -/
  | getTid (md : Medium)
  /-- SET_TID (R416). -/
  | setTid (md : Medium) (tid : Byte)
  /-- GET_PLDM_VERSION (R416). -/
  | getPldmVersion (md : Medium) (ty : Byte)
  /-- GET_PLDM_TYPES (R416). -/
  | getPldmTypes (md : Medium)
  /-- GET_PLDM_COMMANDS (R416). -/
  | getPldmCommands (md : Medium) (ty : Byte)
  /-- SET_EVENT_RECEIVER (R417). -/
  | setEventReceiver (md : Medium) (recv : Option Byte)
  /-- POLL_FOR_PLATFORM_EVENT_MESSAGE (R417). -/
  | pollForPlatformEventMessage (md : Medium)
  /-- GET_SENSOR_READING (R408). -/
  | getSensorReading (md : Medium) (id : BitVec 16)
  /-- GET_STATE_SENSOR_READINGS (R408). -/
  | getStateSensorReadings (md : Medium) (id : BitVec 16)
  /-- SET_NUMERIC_EFFECTER_VALUE (R409). -/
  | setNumericEffecterValue (md : Medium) (id : BitVec 16) (v : Word)
  /-- GET_NUMERIC_EFFECTER_VALUE (R409). -/
  | getNumericEffecterValue (md : Medium) (id : BitVec 16)
  /-- GET_PDR_REPOSITORY_INFO (R416). -/
  | getPdrRepositoryInfo (md : Medium)
  /-- GET_PDR (R416). -/
  | getPdr (md : Medium) (h : Word)
  /-- QUERY_DEVICE_IDENTIFIERS (R416). -/
  | queryDeviceIdentifiers (md : Medium)
  /-- GET_FIRMWARE_PARAMETERS (R416). -/
  | getFirmwareParameters (md : Medium)
  /-- REQUEST_UPDATE (R423). -/
  | requestUpdate (md : Medium)
  /-- PASS_COMPONENT_TABLE (R423). -/
  | passComponentTable (md : Medium) (comps : List Nat)
  /-- UPDATE_COMPONENT (R423). -/
  | updateComponent (md : Medium) (comp : Nat)
  /-- FIRMWARE_DATA (R423). -/
  | firmwareData (md : Medium) (img : ImageFile)
  /-- ACTIVATE_FIRMWARE (R423). -/
  | activateFirmware (md : Medium)
  /-- GET_STATUS (R416). -/
  | getStatus (md : Medium)
  /-- CANCEL_UPDATE_COMPONENT (R416). -/
  | cancelUpdateComponent (md : Medium)
  /-- CANCEL_UPDATE (R416). -/
  | cancelUpdate (md : Medium)
  /-- GET_VERSION (R418). -/
  | spdmGetVersion (md : Medium)
  /-- GET_CAPABILITIES (R418). -/
  | getCapabilities (md : Medium)
  /-- NEGOTIATE_ALGORITHMS (R418). -/
  | negotiateAlgorithms (md : Medium)
  /-- GET_DIGESTS (R418). -/
  | getDigests (md : Medium)
  /-- GET_CERTIFICATE (R419). -/
  | getCertificate (md : Medium) (slot : Nat) (off : Nat) (n : Nat)
  /-- CHALLENGE (R418). -/
  | challenge (md : Medium) (slot : Nat) (idx : Byte) (nonce : BitVec 256)
  /-- GET_MEASUREMENTS (R418). -/
  | getMeasurements (md : Medium) (slot : Nat) (idx : Byte) (nonce : BitVec 256)
  /-- GET_NONCE (R429). -/
  | getNonce (md : Medium)
  /-- GET_LEDGER (R428). -/
  | getLedger (md : Medium) (piece : Nat)
  /-- TAKE_OWNERSHIP (R429). -/
  | takeOwnership (rq : SignedReq) (key : Key)
  /-- TRANSFER_OWNERSHIP (R429). -/
  | transferOwnership (rq : SignedReq) (key : Key)
  /-- RELEASE_OWNERSHIP (R429). -/
  | releaseOwnership (rq : SignedReq)
  /-- SET_TENANT_KEYS (R429). -/
  | setTenantKeys (rq : SignedReq) (keys : List Key)
  /-- TENANT_WIPE (R430). -/
  | tenantWipe (rq : SignedReq)
  /-- ENTER_REFURBISHMENT (R434). -/
  | enterRefurbishment (rq : SignedReq)
  /-- WIPE_COMPLETE (R430). -/
  | wipeComplete (failed : Nat) (sramClean : Bool)
  /-- REFURBISHMENT_COMPLETE (R434). -/
  | refurbishmentComplete (r : RefurbResult)
  /-- REFCLK_LOSS (R353). -/
  | refclkLoss (port : Nat)
  /-- REFCLK_RETURN (R353). -/
  | refclkReturn (port : Nat)
  /-- PORT_LINK_UP (R437). -/
  | portLinkUp (port : Nat) (width : BitVec 3) (speed : BitVec 3)
  /-- PORT_LINK_DOWN (R447). -/
  | portLinkDown (port : Nat)
  /-- LINK_PARTNER_DISABLED (R249). -/
  | linkPartnerDisabled (l : Nat)
  /-- PLATFORM_EVENT_ACKNOWLEDGED (R417). -/
  | platformEventAcknowledged
  /-- TCK_EDGE (R461). -/
  | tckEdge (rising : Bool) (tms : Bool) (tdi : TapIn)
  /-- TRST_N_FALL (R461). -/
  | trstNFall
deriving DecidableEq, Repr

end Sys2Proof
end

