-- ==== Sys2Proof/Config.lean ====
section
/-! DEFINITION. The free values of the model: constants without a body for what the manual leaves open. Nothing can be
proved of their values; a claim that holds, holds whatever they are. Each is named in the assumption log. -/

namespace Sys2Proof.Config

/-- Nanoseconds that the host-die timer advances between two readings of it (log entry 5). -/
opaque elapsed : Nat → Nat

/-- Where the timer of a die stands among those of the device, in ns, folded into the bound of R354: draw, die (log entry 5). -/
opaque skew : Nat → Nat → Nat

/-- A byte of host memory that neither a device write nor a host write carried by a command has set (log entry 6). -/
opaque hostByte : Nat → Byte

/-- A device read of host memory ends in Unsupported Request, Completer Abort or completion timeout (R379, entry 6). -/
opaque hostFails : Nat → Bool

/-- A choice between an old and a new value where the manual allows either (R180, R191, R204; entry 7). -/
opaque choice : Nat → Bool

/-- Items of a core's last backward pass that may still run when a bucket is already full: bucket, logical core (R25; log
entry 92). -/
opaque behind : Nat → Nat → Nat

/-- Rows and columns, of the 32 × 32 tile at a VA, that lie inside its tensor (R46; log entry 90). -/
opaque edge : Nat → Nat × Nat

/-- The tensor id in a checkpoint's record of a bucket and a KIND (Table 9.15; log entry 22). -/
opaque ckTensor : Nat → Nat → Word

/-- A running group has its operands and its unit free, and can take an issue slot: draw, group slot (R212, R213; log entry
65). -/
opaque ready : Nat → Nat → Bool

/-- The hash of source, destination and flow that chooses a global index, and the one that draws VIA (R271, R272; entry 7). -/
opaque flowHash : Nat → Nat → Nat → Nat
opaque viaHash : Nat → Nat → Nat → Nat

/-- A link of a device of another chassis runs version 1.2: node, link (R274; log entry 105). -/
opaque farOld : Nat → Nat → Bool

/-- A byte of a CPER's header or section descriptor that the manual does not fill (R334; log entry 109). -/
opaque cperByte : Nat → Byte

/-- A number where the manual gives a bound and no value: folded into the bound where it is used (entry 7). -/
opaque pick : Nat → Nat

/-- The result code that a special function would like to give (R220): function, operand. It counts where it lies within the
bound of Table 7.7 (entry 8). -/
opaque special : Nat → Word → Word

/-- Random bits of Ndomir's nonces and signatures (R418, R429; entry 9). -/
opaque random : Nat → BitVec 256

/-- SHA-256 of bytes (R419): its value is not computed in the model (entry 27). -/
opaque sha256 : List Byte → BitVec 256

/-- The ECDSA signature that the alias key of an Ndomir image, named by the image's digest, gives over bytes (R419, entry 27). -/
opaque sign : BitVec 256 → List Byte → BitVec 512

/-- The certificate chain of slot 0 for an Ndomir image: its length and its bytes (R419, entry 27). -/
opaque chainLen : BitVec 256 → Nat
opaque chainByte : BitVec 256 → Nat → Byte

/-- SHA-256 of what the configuration store holds, the tenant region left out: its byte layout is not given (Table 13.4, entry
27). -/
opaque storeDigest : List (List Nat) → BitVec 256

/-- The digest of the ROM (Table 13.4, entry 27). -/
opaque romDigest : Nat → BitVec 256

/-- The endpoint UUID of the part with a serial number (R415, entry 28). -/
opaque uuid : BitVec 64 → BitVec 128

/-- Bytes of an answer whose content the manual leaves to the DMTF standards (R415 to R418, entry 28). -/
opaque dmtf : Nat → Byte

/-- The low seven bits of the DMTF type of a measurement block, by its index (R418, entry 28). -/
opaque measType : Nat → BitVec 7

/-- The cells of the boundary register, and what a capture finds on their lands (R461, entry 29). -/
opaque boundaryLen : Nat
opaque land : Nat → Nat → Bool

/-- The instruction that a pattern of the TAP's instruction register selects, among those of R461 (entry 29). -/
opaque tapDecode : List Bool → Nat

/-- Bits of a configuration register, by its number, that the manual leaves to the PCIe specification (R378, entry 110). -/
opaque cfgBits : Nat → Word

end Sys2Proof.Config
end

