-- ==== Sys2Proof/Machine/RegMap.lean ====
section
/-! DEFINITION. The BAR0 register map (spec/16 R468, R469 and the register tables of the chapters that own each block):
the name of every register, its place, and the field map (bits, access code, reset value) of each. -/

namespace Sys2Proof.Machine

/-- Access codes of a field (R10). `w1cAll` is a W1C count that a one in any of its bits clears whole. -/
inductive Access where
  | ro | rw | w1c | w1cAll | wo | rsvd
deriving DecidableEq, Repr

/-- One field of a field map: bits [hi:lo], access code, reset value. -/
structure FieldDesc where
  hi : Nat
  lo : Nat
  acc : Access
  reset : Nat
deriving DecidableEq, Repr

/-- A register's place: byte offset in BAR0 of its copy (0, 0), and up to two indices with their strides. -/
structure RegDesc where
  base : Nat
  n1 : Nat
  s1 : Nat
  n2 : Nat
  s2 : Nat
  fields : List FieldDesc
deriving DecidableEq, Repr

/-- Every register of the device, named BLOCK_REGISTER (R10). -/
inductive Reg where
  | HIF_CAP
  | HIF_MODE
  | HIF_FOCTL
  | HIF_FOSTAT
  | HIF_PSTAT
  | HIF_HBEAT
  | HIF_CLAIM
  | HIF_ALERT
  | HIF_ALERTEN
  | HIF_QSQLO
  | HIF_QSQHI
  | HIF_QCQLO
  | HIF_QCQHI
  | HIF_QSTLO
  | HIF_QSTHI
  | HIF_QCTL
  | HIF_QSTAT
  | HIF_MSIXALO
  | HIF_MSIXAHI
  | HIF_MSIXDATA
  | HIF_MSIXVCTL
  | HIF_MSIXPBA
  | SEQ_CMD
  | SEQ_ARGLO
  | SEQ_ARGHI
  | SEQ_STATE
  | SEQ_STEP
  | SEQ_DRTAIL
  | SEQ_TIMEOUT
  | SEQ_VERDICT
  | SEQ_CAP
  | SEQ_HMOUT
  | SEQ_HMIN
  | MEM_PTBASELO
  | MEM_PTBASEHI
  | MEM_MMUCTL
  | MEM_TLBVALO
  | MEM_TLBVAHI
  | MEM_TLBINV
  | MEM_FAULTLO
  | MEM_FAULTHI
  | MEM_FAULTINFO
  | MEM_HBMCFG
  | MEM_SCRUB
  | MEM_IMODE
  | MEM_HBMCE
  | MEM_HBMUE
  | MEM_HBMRET
  | MSE_RINGLO
  | MSE_RINGHI
  | MSE_RHEAD
  | MSE_RTAIL
  | MSE_STAT
  | MSE_SRAM
  | MSE_EVENT
  | MSE_HIST
  | DMA_CHRINGLO
  | DMA_CHRINGHI
  | DMA_CHHEAD
  | DMA_CHTAIL
  | DMA_CHPACE
  | DMA_CHSTAT
  | DMA_ALIGNLOG
  | DMA_ALIGNCNT
  | LNK_CTL
  | LNK_STAT
  | LNK_PARTNER
  | LNK_GPORT
  | LNK_FECCE
  | LNK_FECUE
  | LNK_RETRY
  | LNK_EVENT
  | LNK_NODE
  | LNK_SYSCFG
  | LNK_SVCCTL
  | LNK_EXCL
  | SAF_STATE
  | SAF_ERTAIL
  | SAF_ERHEAD
  | SAF_ERDROP
  | SAF_IFT
  | SAF_IFTSTAT
  | SAF_WDOG
  | SAF_CMAP
  | SAF_CELLAR
  | SAF_PHASE
  | SAF_ERRING
  | NUM_CFLAGS
  | NUM_MFLAGS
  | NUM_FLAGSUM
  | NUM_FLAGCTL
  | NUM_LSCALE
  | NUM_LSGROW
  | NUM_LSSTAT
  | NUM_FBCTL
  | NUM_FBSTAT
  | NUM_STSEEDLO
  | NUM_STSEEDHI
  | NUM_BLCTL
  | NUM_BLTHR
  | NUM_CLASSFMT
  | NUM_BLHIST
  | NUM_BLSTAT
  | NUM_CRUSH
  | PWR_GOVCTL
  | PWR_CAP
  | PWR_RATETGT
  | PWR_GOVSTAT
  | PWR_RPRATE
  | PWR_DSTAT
  | PWR_INPUT
  | PWR_PIN
  | PWR_RAIL
  | PWR_THRSTAT
  | PWR_THRCNT
  | PWR_TSOFFLO
  | PWR_TSOFFHI
  | PWR_TCAL
  | PWR_TSTAT
  | MGT_STAT
  | MGT_FWVER
  | MGT_SVN
  | MGT_POS
  | MGT_I3C
  | MGT_LIFE
  | MGT_ALERT
  | MGT_ALERTEN
  | MGT_HOURS
  | DBG_DEVSTATE
  | DBG_RSTCTL
  | DBG_RSTCAUSE
  | DBG_STARTTIME
  | DBG_IDPCI
  | DBG_IDSTEP
  | DBG_IDMFR
  | DBG_IDCODE
  | DBG_SERIALLO
  | DBG_SERIALHI
  | DBG_CAPRES
  | DBG_CAPMEM
  | DBG_CAPVER
  | DBG_FWVER
  | CORE_PSARB
  | CORE_PSQLO
  | CORE_PSQHI
  | CORE_PSHEAD
  | CORE_PSTAIL
  | CORE_FAULTCTL
  | CORE_FECTL
  | CORE_GSTAT
  | CORE_GCTL
  | CORE_DBGSEL
  | CORE_DBGDATA
  | CORE_BKPTLO
  | CORE_BKPTHI
  | CORE_MXCTL
  | CORE_MXSTAT
  | CORE_MXCHK
  | CORE_MXNMAP
deriving DecidableEq, Repr

/-- The place and field map of each register, from the register tables of spec/02 to spec/16. -/
def Reg.desc : Reg → RegDesc
  | .HIF_CAP => ⟨0x0, 1, 0, 1, 0,
      [⟨31, 24, .rsvd, 0⟩, ⟨23, 16, .ro, 0xff⟩, ⟨15, 8, .rsvd, 0⟩, ⟨7, 0, .ro, 0xc⟩]⟩
  | .HIF_MODE => ⟨0x4, 1, 0, 1, 0,
      [⟨31, 2, .rsvd, 0⟩, ⟨1, 1, .ro, 0⟩, ⟨0, 0, .rw, 0⟩]⟩
  | .HIF_FOCTL => ⟨0x8, 1, 0, 1, 0,
      [⟨31, 16, .rsvd, 0⟩, ⟨15, 0, .rw, 0x7d0⟩]⟩
  | .HIF_FOSTAT => ⟨0xc, 1, 0, 1, 0,
      [⟨31, 3, .rsvd, 0⟩, ⟨2, 1, .ro, 0⟩, ⟨0, 0, .ro, 0⟩]⟩
  | .HIF_PSTAT => ⟨0x10000, 2, 0x10000, 1, 0,
      [⟨31, 8, .rsvd, 0⟩, ⟨7, 5, .ro, 0⟩, ⟨4, 2, .ro, 0⟩, ⟨1, 1, .ro, 0⟩, ⟨0, 0, .rsvd, 0⟩]⟩
  | .HIF_HBEAT => ⟨0x10004, 2, 0x10000, 1, 0,
      [⟨31, 0, .wo, 0⟩]⟩
  | .HIF_CLAIM => ⟨0x10008, 2, 0x10000, 1, 0,
      [⟨31, 1, .rsvd, 0⟩, ⟨0, 0, .wo, 0⟩]⟩
  | .HIF_ALERT => ⟨0x10010, 2, 0x10000, 1, 0,
      [⟨31, 5, .rsvd, 0⟩, ⟨4, 0, .w1c, 0⟩]⟩
  | .HIF_ALERTEN => ⟨0x10014, 2, 0x10000, 1, 0,
      [⟨31, 5, .rsvd, 0⟩, ⟨4, 0, .rw, 0x1f⟩]⟩
  | .HIF_QSQLO => ⟨0x11000, 2, 0x10000, 256, 0x20,
      [⟨31, 12, .rw, 0⟩, ⟨11, 0, .rsvd, 0⟩]⟩
  | .HIF_QSQHI => ⟨0x11004, 2, 0x10000, 256, 0x20,
      [⟨31, 0, .rw, 0⟩]⟩
  | .HIF_QCQLO => ⟨0x11008, 2, 0x10000, 256, 0x20,
      [⟨31, 12, .rw, 0⟩, ⟨11, 0, .rsvd, 0⟩]⟩
  | .HIF_QCQHI => ⟨0x1100c, 2, 0x10000, 256, 0x20,
      [⟨31, 0, .rw, 0⟩]⟩
  | .HIF_QSTLO => ⟨0x11010, 2, 0x10000, 256, 0x20,
      [⟨31, 6, .rw, 0⟩, ⟨5, 0, .rsvd, 0⟩]⟩
  | .HIF_QSTHI => ⟨0x11014, 2, 0x10000, 256, 0x20,
      [⟨31, 0, .rw, 0⟩]⟩
  | .HIF_QCTL => ⟨0x11018, 2, 0x10000, 256, 0x20,
      [⟨31, 27, .rsvd, 0⟩, ⟨26, 24, .rw, 3⟩, ⟨23, 20, .rw, 4⟩, ⟨19, 16, .rw, 4⟩, ⟨15, 12, .rsvd, 0⟩, ⟨11, 8, .rw, 0⟩, ⟨7, 2, .rsvd, 0⟩, ⟨1, 1, .rw, 0⟩, ⟨0, 0, .rw, 0⟩]⟩
  | .HIF_QSTAT => ⟨0x1101c, 2, 0x10000, 256, 0x20,
      [⟨31, 28, .ro, 0⟩, ⟨27, 24, .ro, 0⟩, ⟨23, 16, .rsvd, 0⟩, ⟨15, 0, .ro, 0⟩]⟩
  | .HIF_MSIXALO => ⟨0x14000, 2, 0x10000, 1, 0,
      [⟨31, 0, .rw, 0⟩]⟩
  | .HIF_MSIXAHI => ⟨0x14004, 2, 0x10000, 1, 0,
      [⟨31, 0, .rw, 0⟩]⟩
  | .HIF_MSIXDATA => ⟨0x14008, 2, 0x10000, 1, 0,
      [⟨31, 0, .rw, 0⟩]⟩
  | .HIF_MSIXVCTL => ⟨0x1400c, 2, 0x10000, 1, 0,
      [⟨31, 1, .rsvd, 0⟩, ⟨0, 0, .rw, 1⟩]⟩
  | .HIF_MSIXPBA => ⟨0x15000, 2, 0x10000, 2, 0x4,
      [⟨31, 0, .ro, 0⟩]⟩
  | .SEQ_CMD => ⟨0x100000, 1, 0, 1, 0,
      [⟨31, 31, .ro, 0⟩, ⟨30, 30, .w1c, 0⟩, ⟨29, 8, .rsvd, 0⟩, ⟨7, 0, .wo, 0⟩]⟩
  | .SEQ_ARGLO => ⟨0x100004, 1, 0, 1, 0,
      [⟨31, 0, .rw, 0⟩]⟩
  | .SEQ_ARGHI => ⟨0x100008, 1, 0, 1, 0,
      [⟨31, 0, .rw, 0⟩]⟩
  | .SEQ_STATE => ⟨0x10000c, 1, 0, 1, 0,
      [⟨31, 28, .ro, 0⟩, ⟨27, 20, .ro, 0⟩, ⟨19, 8, .rsvd, 0⟩, ⟨7, 0, .ro, 0⟩]⟩
  | .SEQ_STEP => ⟨0x100010, 1, 0, 1, 0,
      [⟨31, 0, .ro, 0⟩]⟩
  | .SEQ_DRTAIL => ⟨0x100018, 1, 0, 1, 0,
      [⟨31, 0, .rw, 0⟩]⟩
  | .SEQ_TIMEOUT => ⟨0x100020, 1, 0, 1, 0,
      [⟨31, 16, .rw, 0x7d0⟩, ⟨15, 0, .rw, 0x2710⟩]⟩
  | .SEQ_VERDICT => ⟨0x100024, 1, 0, 1, 0,
      [⟨31, 16, .ro, 0⟩, ⟨15, 8, .ro, 0⟩, ⟨7, 2, .rsvd, 0⟩, ⟨1, 1, .ro, 0⟩, ⟨0, 0, .ro, 0⟩]⟩
  | .SEQ_CAP => ⟨0x100030, 1, 0, 1, 0,
      [⟨31, 16, .ro, 3⟩, ⟨15, 0, .ro, 0⟩]⟩
  | .SEQ_HMOUT => ⟨0x100034, 1, 0, 1, 0,
      [⟨31, 8, .rsvd, 0⟩, ⟨7, 0, .ro, 0⟩]⟩
  | .SEQ_HMIN => ⟨0x100040, 4, 0x4, 1, 0,
      [⟨31, 0, .rw, 0⟩]⟩
  | .MEM_PTBASELO => ⟨0x200000, 1, 0, 1, 0,
      [⟨31, 12, .rw, 0⟩, ⟨11, 0, .rsvd, 0⟩]⟩
  | .MEM_PTBASEHI => ⟨0x200004, 1, 0, 1, 0,
      [⟨31, 8, .rsvd, 0⟩, ⟨7, 0, .rw, 0⟩]⟩
  | .MEM_MMUCTL => ⟨0x200008, 1, 0, 1, 0,
      [⟨31, 1, .rsvd, 0⟩, ⟨0, 0, .rw, 0⟩]⟩
  | .MEM_TLBVALO => ⟨0x200010, 1, 0, 1, 0,
      [⟨31, 12, .rw, 0⟩, ⟨11, 0, .rsvd, 0⟩]⟩
  | .MEM_TLBVAHI => ⟨0x200014, 1, 0, 1, 0,
      [⟨31, 16, .rsvd, 0⟩, ⟨15, 0, .rw, 0⟩]⟩
  | .MEM_TLBINV => ⟨0x200018, 1, 0, 1, 0,
      [⟨31, 31, .ro, 1⟩, ⟨30, 20, .rsvd, 0⟩, ⟨19, 0, .wo, 0⟩]⟩
  | .MEM_FAULTLO => ⟨0x200020, 1, 0, 1, 0,
      [⟨31, 0, .ro, 0⟩]⟩
  | .MEM_FAULTHI => ⟨0x200024, 1, 0, 1, 0,
      [⟨31, 16, .rsvd, 0⟩, ⟨15, 0, .ro, 0⟩]⟩
  | .MEM_FAULTINFO => ⟨0x200028, 1, 0, 1, 0,
      [⟨31, 31, .w1c, 0⟩, ⟨30, 24, .rsvd, 0⟩, ⟨23, 16, .ro, 0⟩, ⟨15, 8, .rsvd, 0⟩, ⟨7, 4, .ro, 0⟩, ⟨3, 0, .rsvd, 0⟩]⟩
  | .MEM_HBMCFG => ⟨0x200040, 1, 0, 1, 0,
      [⟨31, 16, .rsvd, 0⟩, ⟨15, 12, .rw, 4⟩, ⟨11, 9, .rsvd, 0⟩, ⟨8, 8, .ro, 0⟩, ⟨7, 2, .rsvd, 0⟩, ⟨1, 1, .ro, 0⟩, ⟨0, 0, .rw, 1⟩]⟩
  | .MEM_SCRUB => ⟨0x200044, 1, 0, 1, 0,
      [⟨31, 20, .rsvd, 0⟩, ⟨19, 16, .rw, 6⟩, ⟨15, 8, .rsvd, 0⟩, ⟨7, 0, .ro, 0⟩]⟩
  | .MEM_IMODE => ⟨0x200100, 47, 0x4, 1, 0,
      [⟨31, 4, .rsvd, 0⟩, ⟨3, 3, .rw, 0⟩, ⟨2, 0, .rw, 0⟩]⟩
  | .MEM_HBMCE => ⟨0x200200, 12, 0x4, 1, 0,
      [⟨31, 0, .rw, 0⟩]⟩
  | .MEM_HBMUE => ⟨0x200240, 12, 0x4, 1, 0,
      [⟨31, 16, .rsvd, 0⟩, ⟨15, 0, .rw, 0⟩]⟩
  | .MEM_HBMRET => ⟨0x200280, 12, 0x4, 1, 0,
      [⟨31, 19, .rsvd, 0⟩, ⟨18, 0, .ro, 0⟩]⟩
  | .MSE_RINGLO => ⟨0x400000, 6, 0x10000, 4, 0x20,
      [⟨31, 12, .rw, 0⟩, ⟨11, 0, .rsvd, 0⟩]⟩
  | .MSE_RINGHI => ⟨0x400004, 6, 0x10000, 4, 0x20,
      [⟨31, 21, .rsvd, 0⟩, ⟨20, 16, .rw, 0⟩, ⟨15, 0, .rw, 0⟩]⟩
  | .MSE_RHEAD => ⟨0x400008, 6, 0x10000, 4, 0x20,
      [⟨31, 12, .rsvd, 0⟩, ⟨11, 0, .ro, 0⟩]⟩
  | .MSE_RTAIL => ⟨0x40000c, 6, 0x10000, 4, 0x20,
      [⟨31, 12, .rsvd, 0⟩, ⟨11, 0, .rw, 0⟩]⟩
  | .MSE_STAT => ⟨0x400100, 6, 0x10000, 1, 0,
      [⟨31, 8, .rsvd, 0⟩, ⟨7, 4, .ro, 0⟩, ⟨3, 1, .rsvd, 0⟩, ⟨0, 0, .ro, 0⟩]⟩
  | .MSE_SRAM => ⟨0x400104, 6, 0x10000, 1, 0,
      [⟨31, 16, .ro, 0⟩, ⟨15, 0, .ro, 0xbc00⟩]⟩
  | .MSE_EVENT => ⟨0x400108, 6, 0x10000, 1, 0,
      [⟨31, 16, .w1cAll, 0⟩, ⟨15, 0, .w1cAll, 0⟩]⟩
  | .MSE_HIST => ⟨0x400200, 6, 0x10000, 66, 0x4,
      [⟨31, 0, .rw, 0⟩]⟩
  | .DMA_CHRINGLO => ⟨0x500000, 32, 0x100, 1, 0,
      [⟨31, 12, .rw, 0⟩, ⟨11, 0, .rsvd, 0⟩]⟩
  | .DMA_CHRINGHI => ⟨0x500004, 32, 0x100, 1, 0,
      [⟨31, 21, .rsvd, 0⟩, ⟨20, 16, .rw, 0⟩, ⟨15, 0, .rw, 0⟩]⟩
  | .DMA_CHHEAD => ⟨0x500008, 32, 0x100, 1, 0,
      [⟨31, 12, .rsvd, 0⟩, ⟨11, 0, .ro, 0⟩]⟩
  | .DMA_CHTAIL => ⟨0x50000c, 32, 0x100, 1, 0,
      [⟨31, 12, .rsvd, 0⟩, ⟨11, 0, .rw, 0⟩]⟩
  | .DMA_CHPACE => ⟨0x500010, 32, 0x100, 1, 0,
      [⟨31, 7, .rsvd, 0⟩, ⟨6, 0, .rw, 0x40⟩]⟩
  | .DMA_CHSTAT => ⟨0x500014, 32, 0x100, 1, 0,
      [⟨31, 9, .rsvd, 0⟩, ⟨8, 8, .ro, 0⟩, ⟨7, 0, .ro, 0⟩]⟩
  | .DMA_ALIGNLOG => ⟨0x502000, 1, 0, 1, 0,
      [⟨31, 17, .rsvd, 0⟩, ⟨16, 12, .ro, 0⟩, ⟨11, 0, .ro, 0⟩]⟩
  | .DMA_ALIGNCNT => ⟨0x502004, 1, 0, 1, 0,
      [⟨31, 0, .w1cAll, 0⟩]⟩
  | .LNK_CTL => ⟨0x600000, 96, 0x1000, 1, 0,
      [⟨31, 8, .rsvd, 0⟩, ⟨7, 7, .wo, 0⟩, ⟨6, 6, .rw, 1⟩, ⟨5, 4, .rw, 0⟩, ⟨3, 3, .rw, 0⟩, ⟨2, 1, .rsvd, 0⟩, ⟨0, 0, .rw, 0⟩]⟩
  | .LNK_STAT => ⟨0x600004, 96, 0x1000, 1, 0,
      [⟨31, 28, .ro, 0⟩, ⟨27, 27, .ro, 0⟩, ⟨26, 25, .ro, 0⟩, ⟨24, 24, .ro, 0⟩, ⟨23, 23, .ro, 0⟩, ⟨22, 21, .ro, 0⟩, ⟨20, 0, .rsvd, 0⟩]⟩
  | .LNK_PARTNER => ⟨0x600008, 96, 0x1000, 1, 0,
      [⟨31, 16, .ro, 0⟩, ⟨15, 7, .rsvd, 0⟩, ⟨6, 0, .ro, 0⟩]⟩
  | .LNK_GPORT => ⟨0x60000c, 96, 0x1000, 1, 0,
      [⟨31, 27, .rsvd, 0⟩, ⟨26, 16, .ro, 0x7ff⟩, ⟨15, 12, .rsvd, 0⟩, ⟨11, 11, .rw, 0⟩, ⟨10, 0, .rw, 0⟩]⟩
  | .LNK_FECCE => ⟨0x600010, 96, 0x1000, 1, 0,
      [⟨31, 0, .rw, 0⟩]⟩
  | .LNK_FECUE => ⟨0x600014, 96, 0x1000, 1, 0,
      [⟨31, 0, .rw, 0⟩]⟩
  | .LNK_RETRY => ⟨0x600018, 96, 0x1000, 1, 0,
      [⟨31, 16, .rw, 0⟩, ⟨15, 0, .rw, 0⟩]⟩
  | .LNK_EVENT => ⟨0x60001c, 96, 0x1000, 1, 0,
      [⟨31, 16, .w1cAll, 0⟩, ⟨15, 0, .w1cAll, 0⟩]⟩
  | .LNK_NODE => ⟨0x600800, 1, 0, 1, 0,
      [⟨31, 26, .rsvd, 0⟩, ⟨25, 16, .rw, 0⟩, ⟨15, 7, .rsvd, 0⟩, ⟨6, 6, .ro, 0⟩, ⟨5, 0, .ro, 0⟩]⟩
  | .LNK_SYSCFG => ⟨0x600804, 1, 0, 1, 0,
      [⟨31, 24, .rw, 0x10⟩, ⟨23, 17, .rsvd, 0⟩, ⟨16, 16, .rw, 1⟩, ⟨15, 10, .rsvd, 0⟩, ⟨9, 0, .rw, 0⟩]⟩
  | .LNK_SVCCTL => ⟨0x600808, 1, 0, 1, 0,
      [⟨31, 1, .rsvd, 0⟩, ⟨0, 0, .rw, 0⟩]⟩
  | .LNK_EXCL => ⟨0x60080c, 1, 0, 1, 0,
      [⟨31, 9, .rsvd, 0⟩, ⟨8, 0, .ro, 0⟩]⟩
  | .SAF_STATE => ⟨0x800000, 1, 0, 1, 0,
      [⟨31, 31, .ro, 0⟩, ⟨30, 24, .rsvd, 0⟩, ⟨23, 16, .ro, 0⟩, ⟨15, 0, .rsvd, 0⟩]⟩
  | .SAF_ERTAIL => ⟨0x800010, 1, 0, 1, 0,
      [⟨31, 0, .ro, 0⟩]⟩
  | .SAF_ERHEAD => ⟨0x800014, 1, 0, 1, 0,
      [⟨31, 0, .rw, 0⟩]⟩
  | .SAF_ERDROP => ⟨0x800018, 1, 0, 1, 0,
      [⟨31, 16, .rw, 0⟩, ⟨15, 0, .rw, 0⟩]⟩
  | .SAF_IFT => ⟨0x800020, 1, 0, 1, 0,
      [⟨31, 24, .rsvd, 0⟩, ⟨23, 16, .rw, 0x18⟩, ⟨15, 8, .rw, 0x32⟩, ⟨7, 1, .rsvd, 0⟩, ⟨0, 0, .rw, 1⟩]⟩
  | .SAF_IFTSTAT => ⟨0x800024, 1, 0, 1, 0,
      [⟨31, 28, .ro, 0⟩, ⟨27, 24, .ro, 0⟩, ⟨23, 21, .ro, 0⟩, ⟨20, 16, .rsvd, 0⟩, ⟨15, 0, .ro, 0⟩]⟩
  | .SAF_WDOG => ⟨0x800028, 1, 0, 1, 0,
      [⟨31, 16, .rsvd, 0⟩, ⟨15, 8, .rw, 8⟩, ⟨7, 0, .rsvd, 0⟩]⟩
  | .SAF_CMAP => ⟨0x800100, 16, 0x4, 1, 0,
      [⟨31, 28, .ro, 0xf⟩, ⟨27, 24, .rsvd, 0⟩, ⟨23, 21, .ro, 3⟩, ⟨20, 18, .ro, 2⟩, ⟨17, 15, .ro, 1⟩, ⟨14, 12, .ro, 0⟩, ⟨11, 9, .ro, 4⟩, ⟨8, 5, .rsvd, 0⟩, ⟨4, 0, .ro, 0⟩]⟩
  | .SAF_CELLAR => ⟨0x800200, 1, 0, 1, 0,
      [⟨31, 30, .ro, 0⟩, ⟨29, 24, .rsvd, 0⟩, ⟨23, 16, .ro, 0x40⟩, ⟨15, 8, .ro, 0x64⟩, ⟨7, 0, .ro, 0x64⟩]⟩
  | .SAF_PHASE => ⟨0x800204, 1, 0, 1, 0,
      [⟨31, 0, .ro, 0⟩]⟩
  | .SAF_ERRING => ⟨0x801000, 64, 0x40, 16, 0x4,
      [⟨31, 0, .ro, 0⟩]⟩
  | .NUM_CFLAGS => ⟨0x900000, 64, 0x4, 1, 0,
      [⟨31, 12, .rsvd, 0⟩, ⟨11, 11, .w1c, 0⟩, ⟨10, 10, .w1c, 0⟩, ⟨9, 9, .w1c, 0⟩, ⟨8, 8, .w1c, 0⟩, ⟨7, 7, .w1c, 0⟩, ⟨6, 6, .w1c, 0⟩, ⟨5, 5, .w1c, 0⟩, ⟨4, 4, .w1c, 0⟩, ⟨3, 3, .w1c, 0⟩, ⟨2, 2, .w1c, 0⟩, ⟨1, 1, .w1c, 0⟩, ⟨0, 0, .w1c, 0⟩]⟩
  | .NUM_MFLAGS => ⟨0x900100, 6, 0x4, 1, 0,
      [⟨31, 4, .rsvd, 0⟩, ⟨3, 3, .w1c, 0⟩, ⟨2, 2, .w1c, 0⟩, ⟨1, 1, .w1c, 0⟩, ⟨0, 0, .w1c, 0⟩]⟩
  | .NUM_FLAGSUM => ⟨0x900200, 1, 0, 1, 0,
      [⟨31, 16, .rsvd, 0⟩, ⟨15, 12, .ro, 0⟩, ⟨11, 8, .ro, 0⟩, ⟨7, 4, .ro, 0⟩, ⟨3, 0, .ro, 0⟩]⟩
  | .NUM_FLAGCTL => ⟨0x900210, 1, 0, 1, 0,
      [⟨31, 1, .rsvd, 0⟩, ⟨0, 0, .rw, 1⟩]⟩
  | .NUM_LSCALE => ⟨0x901000, 1, 0, 1, 0,
      [⟨31, 30, .rsvd, 0⟩, ⟨29, 24, .rw, 0x20⟩, ⟨23, 22, .rsvd, 0⟩, ⟨21, 16, .rw, 0⟩, ⟨15, 14, .rsvd, 0⟩, ⟨13, 8, .rw, 0x10⟩, ⟨7, 6, .rsvd, 0⟩, ⟨5, 0, .ro, 0x10⟩]⟩
  | .NUM_LSGROW => ⟨0x901004, 1, 0, 1, 0,
      [⟨31, 16, .rsvd, 0⟩, ⟨15, 0, .rw, 0x7d0⟩]⟩
  | .NUM_LSSTAT => ⟨0x901008, 1, 0, 1, 0,
      [⟨31, 16, .ro, 0⟩, ⟨15, 0, .ro, 0⟩]⟩
  | .NUM_FBCTL => ⟨0x901010, 1, 0, 1, 0,
      [⟨31, 16, .rw, 0x3e8⟩, ⟨15, 8, .rw, 0x32⟩, ⟨7, 4, .rw, 1⟩, ⟨3, 2, .rsvd, 0⟩, ⟨1, 1, .rw, 1⟩, ⟨0, 0, .rw, 0⟩]⟩
  | .NUM_FBSTAT => ⟨0x901014, 1, 0, 1, 0,
      [⟨31, 17, .rsvd, 0⟩, ⟨16, 16, .ro, 0⟩, ⟨15, 0, .ro, 0⟩]⟩
  | .NUM_STSEEDLO => ⟨0x901020, 1, 0, 1, 0,
      [⟨31, 0, .rw, 0⟩]⟩
  | .NUM_STSEEDHI => ⟨0x901024, 1, 0, 1, 0,
      [⟨31, 0, .rw, 0⟩]⟩
  | .NUM_BLCTL => ⟨0x901030, 1, 0, 1, 0,
      [⟨31, 24, .rw, 0⟩, ⟨23, 16, .rw, 0xff⟩, ⟨15, 12, .rsvd, 0⟩, ⟨11, 8, .rw, 6⟩, ⟨7, 5, .rsvd, 0⟩, ⟨4, 0, .rw, 0xc⟩]⟩
  | .NUM_BLTHR => ⟨0x901034, 1, 0, 1, 0,
      [⟨31, 0, .rw, 0x44444444⟩]⟩
  | .NUM_CLASSFMT => ⟨0x901038, 1, 0, 1, 0,
      [⟨31, 8, .rsvd, 0⟩, ⟨7, 0, .rw, 0⟩]⟩
  | .NUM_BLHIST => ⟨0x901100, 8, 0x80, 32, 0x4,
      [⟨31, 0, .rw, 0⟩]⟩
  | .NUM_BLSTAT => ⟨0x901500, 8, 0x4, 1, 0,
      [⟨31, 16, .rw, 0⟩, ⟨15, 0, .rw, 0⟩]⟩
  | .NUM_CRUSH => ⟨0x901520, 8, 0x4, 1, 0,
      [⟨31, 0, .ro, 0⟩]⟩
  | .PWR_GOVCTL => ⟨0xa00000, 1, 0, 1, 0,
      [⟨31, 24, .rw, 0x64⟩, ⟨23, 16, .rw, 0x64⟩, ⟨15, 1, .rsvd, 0⟩, ⟨0, 0, .rw, 0⟩]⟩
  | .PWR_CAP => ⟨0xa00004, 1, 0, 1, 0,
      [⟨31, 16, .rsvd, 0⟩, ⟨15, 0, .rw, 0xed8⟩]⟩
  | .PWR_RATETGT => ⟨0xa00008, 1, 0, 1, 0,
      [⟨31, 12, .rsvd, 0⟩, ⟨11, 0, .rw, 0x5dc⟩]⟩
  | .PWR_GOVSTAT => ⟨0xa0000c, 1, 0, 1, 0,
      [⟨31, 20, .ro, 0x5dc⟩, ⟨19, 17, .ro, 0⟩, ⟨16, 16, .w1c, 0⟩, ⟨15, 0, .rsvd, 0⟩]⟩
  | .PWR_RPRATE => ⟨0xa00010, 1, 0, 1, 0,
      [⟨31, 13, .rsvd, 0⟩, ⟨12, 12, .ro, 0⟩, ⟨11, 0, .ro, 0⟩]⟩
  | .PWR_DSTAT => ⟨0xa00100, 15, 0x4, 1, 0,
      [⟨31, 20, .ro, 0⟩, ⟨19, 10, .ro, 0⟩, ⟨9, 7, .ro, 0⟩, ⟨6, 0, .ro, 0⟩]⟩
  | .PWR_INPUT => ⟨0xa00200, 1, 0, 1, 0,
      [⟨31, 20, .ro, 0⟩, ⟨19, 8, .ro, 0⟩, ⟨7, 0, .rsvd, 0⟩]⟩
  | .PWR_PIN => ⟨0xa00204, 1, 0, 1, 0,
      [⟨31, 16, .rw, 0⟩, ⟨15, 0, .ro, 0⟩]⟩
  | .PWR_RAIL => ⟨0xa00300, 16, 0x4, 1, 0,
      [⟨31, 20, .rsvd, 0⟩, ⟨19, 16, .ro, 0xc⟩, ⟨15, 0, .ro, 0⟩]⟩
  | .PWR_THRSTAT => ⟨0xa00400, 1, 0, 1, 0,
      [⟨31, 3, .rsvd, 0⟩, ⟨2, 2, .ro, 0⟩, ⟨1, 1, .ro, 0⟩, ⟨0, 0, .ro, 1⟩]⟩
  | .PWR_THRCNT => ⟨0xa00404, 1, 0, 1, 0,
      [⟨31, 16, .rw, 0⟩, ⟨15, 0, .rw, 0⟩]⟩
  | .PWR_TSOFFLO => ⟨0xa00500, 1, 0, 1, 0,
      [⟨31, 0, .rw, 0⟩]⟩
  | .PWR_TSOFFHI => ⟨0xa00504, 1, 0, 1, 0,
      [⟨31, 0, .rw, 0⟩]⟩
  | .PWR_TCAL => ⟨0xa00508, 1, 0, 1, 0,
      [⟨31, 16, .rsvd, 0⟩, ⟨15, 0, .rw, 0⟩]⟩
  | .PWR_TSTAT => ⟨0xa0050c, 1, 0, 1, 0,
      [⟨31, 3, .rsvd, 0⟩, ⟨2, 2, .ro, 0⟩, ⟨1, 0, .ro, 2⟩]⟩
  | .MGT_STAT => ⟨0xb00000, 1, 0, 1, 0,
      [⟨31, 28, .ro, 0⟩, ⟨27, 24, .rsvd, 0⟩, ⟨23, 16, .rw, 0⟩, ⟨15, 9, .rsvd, 0⟩, ⟨8, 0, .ro, 0⟩]⟩
  | .MGT_FWVER => ⟨0xb00004, 1, 0, 1, 0,
      [⟨31, 0, .ro, 0⟩]⟩
  | .MGT_SVN => ⟨0xb00008, 1, 0, 1, 0,
      [⟨31, 14, .rsvd, 0⟩, ⟨13, 8, .ro, 0⟩, ⟨7, 6, .rsvd, 0⟩, ⟨5, 0, .ro, 0⟩]⟩
  | .MGT_POS => ⟨0xb0000c, 1, 0, 1, 0,
      [⟨31, 31, .w1c, 0⟩, ⟨30, 14, .rsvd, 0⟩, ⟨13, 8, .ro, 0⟩, ⟨7, 7, .rsvd, 0⟩, ⟨6, 6, .ro, 0⟩, ⟨5, 0, .ro, 0⟩]⟩
  | .MGT_I3C => ⟨0xb00010, 1, 0, 1, 0,
      [⟨31, 8, .rsvd, 0⟩, ⟨7, 7, .ro, 0⟩, ⟨6, 0, .ro, 0⟩]⟩
  | .MGT_LIFE => ⟨0xb00014, 1, 0, 1, 0,
      [⟨31, 30, .ro, 0⟩, ⟨29, 29, .ro, 0⟩, ⟨28, 28, .ro, 0⟩, ⟨27, 27, .ro, 0⟩, ⟨26, 16, .rsvd, 0⟩, ⟨15, 0, .ro, 0⟩]⟩
  | .MGT_ALERT => ⟨0xb00018, 1, 0, 1, 0,
      [⟨31, 4, .rsvd, 0⟩, ⟨3, 3, .w1c, 0⟩, ⟨2, 2, .w1c, 0⟩, ⟨1, 1, .w1c, 0⟩, ⟨0, 0, .w1c, 0⟩]⟩
  | .MGT_ALERTEN => ⟨0xb0001c, 1, 0, 1, 0,
      [⟨31, 4, .rsvd, 0⟩, ⟨3, 0, .rw, 0xf⟩]⟩
  | .MGT_HOURS => ⟨0xb00020, 1, 0, 1, 0,
      [⟨31, 0, .ro, 0⟩]⟩
  | .DBG_DEVSTATE => ⟨0xc00000, 1, 0, 1, 0,
      [⟨31, 28, .ro, 1⟩, ⟨27, 24, .ro, 0⟩, ⟨23, 12, .ro, 0⟩, ⟨11, 0, .rsvd, 0⟩]⟩
  | .DBG_RSTCTL => ⟨0xc00004, 1, 0, 1, 0,
      [⟨31, 16, .wo, 0⟩, ⟨15, 1, .rsvd, 0⟩, ⟨0, 0, .wo, 0⟩]⟩
  | .DBG_RSTCAUSE => ⟨0xc00008, 1, 0, 1, 0,
      [⟨31, 24, .ro, 0⟩, ⟨23, 16, .rsvd, 0⟩, ⟨15, 0, .ro, 0⟩]⟩
  | .DBG_STARTTIME => ⟨0xc0000c, 1, 0, 1, 0,
      [⟨31, 0, .ro, 0⟩]⟩
  | .DBG_IDPCI => ⟨0xc00100, 1, 0, 1, 0,
      [⟨31, 16, .ro, 0x960⟩, ⟨15, 0, .ro, 0x1f4b⟩]⟩
  | .DBG_IDSTEP => ⟨0xc00104, 1, 0, 1, 0,
      [⟨31, 16, .rsvd, 0⟩, ⟨15, 8, .ro, 3⟩, ⟨7, 4, .ro, 1⟩, ⟨3, 0, .ro, 1⟩]⟩
  | .DBG_IDMFR => ⟨0xc00108, 1, 0, 1, 0,
      [⟨31, 27, .rsvd, 0⟩, ⟨26, 16, .ro, 0x4a7⟩, ⟨15, 15, .rsvd, 0⟩, ⟨14, 0, .ro, 0x593⟩]⟩
  | .DBG_IDCODE => ⟨0xc0010c, 1, 0, 1, 0,
      [⟨31, 0, .ro, 0x3096094f⟩]⟩
  | .DBG_SERIALLO => ⟨0xc00110, 1, 0, 1, 0,
      [⟨31, 0, .ro, 0⟩]⟩
  | .DBG_SERIALHI => ⟨0xc00114, 1, 0, 1, 0,
      [⟨31, 0, .ro, 0⟩]⟩
  | .DBG_CAPRES => ⟨0xc00120, 1, 0, 1, 0,
      [⟨31, 30, .ro, 0⟩, ⟨29, 29, .ro, 0⟩, ⟨28, 28, .ro, 0⟩, ⟨27, 24, .rsvd, 0⟩, ⟨23, 16, .ro, 0⟩, ⟨15, 8, .ro, 0xc⟩, ⟨7, 0, .ro, 0x60⟩]⟩
  | .DBG_CAPMEM => ⟨0xc00124, 1, 0, 1, 0,
      [⟨31, 16, .ro, 0x234⟩, ⟨15, 8, .ro, 0x30⟩, ⟨7, 0, .rsvd, 0⟩]⟩
  | .DBG_CAPVER => ⟨0xc00128, 1, 0, 1, 0,
      [⟨31, 24, .ro, 3⟩, ⟨23, 16, .ro, 0xc⟩, ⟨15, 8, .ro, 3⟩, ⟨7, 0, .ro, 1⟩]⟩
  | .DBG_FWVER => ⟨0xc00130, 3, 0x4, 1, 0,
      [⟨31, 0, .ro, 0⟩]⟩
  | .CORE_PSARB => ⟨0x1000000, 80, 0x10000, 1, 0,
      [⟨31, 12, .rsvd, 0⟩, ⟨11, 8, .rw, 1⟩, ⟨7, 4, .rw, 1⟩, ⟨3, 0, .rw, 2⟩]⟩
  | .CORE_PSQLO => ⟨0x1000010, 80, 0x10000, 3, 0x10,
      [⟨31, 12, .rw, 0⟩, ⟨11, 0, .rsvd, 0⟩]⟩
  | .CORE_PSQHI => ⟨0x1000014, 80, 0x10000, 3, 0x10,
      [⟨31, 21, .rsvd, 0⟩, ⟨20, 16, .rw, 0⟩, ⟨15, 0, .rw, 0⟩]⟩
  | .CORE_PSHEAD => ⟨0x1000018, 80, 0x10000, 3, 0x10,
      [⟨31, 12, .rsvd, 0⟩, ⟨11, 0, .ro, 0⟩]⟩
  | .CORE_PSTAIL => ⟨0x100001c, 80, 0x10000, 3, 0x10,
      [⟨31, 12, .rsvd, 0⟩, ⟨11, 0, .rw, 0⟩]⟩
  | .CORE_FAULTCTL => ⟨0x1000100, 80, 0x10000, 1, 0,
      [⟨31, 17, .rsvd, 0⟩, ⟨16, 16, .rw, 0⟩, ⟨15, 0, .rw, 0x3e8⟩]⟩
  | .CORE_FECTL => ⟨0x1000104, 80, 0x10000, 1, 0,
      [⟨31, 31, .wo, 0⟩, ⟨30, 16, .rsvd, 0⟩, ⟨15, 0, .rw, 0x64⟩]⟩
  | .CORE_GSTAT => ⟨0x1001000, 80, 0x10000, 64, 0x4,
      [⟨31, 29, .ro, 0⟩, ⟨28, 27, .ro, 0⟩, ⟨26, 26, .ro, 0⟩, ⟨25, 25, .ro, 0⟩, ⟨24, 21, .ro, 0⟩, ⟨20, 16, .rsvd, 0⟩, ⟨15, 8, .ro, 0⟩, ⟨7, 0, .rsvd, 0⟩]⟩
  | .CORE_GCTL => ⟨0x1001100, 80, 0x10000, 64, 0x4,
      [⟨31, 4, .rsvd, 0⟩, ⟨3, 3, .wo, 0⟩, ⟨2, 2, .wo, 0⟩, ⟨1, 1, .wo, 0⟩, ⟨0, 0, .rw, 0⟩]⟩
  | .CORE_DBGSEL => ⟨0x1002000, 80, 0x10000, 1, 0,
      [⟨31, 30, .rw, 0⟩, ⟨29, 24, .rw, 0⟩, ⟨23, 18, .rw, 0⟩, ⟨17, 10, .rw, 0⟩, ⟨9, 0, .rsvd, 0⟩]⟩
  | .CORE_DBGDATA => ⟨0x1002004, 80, 0x10000, 1, 0,
      [⟨31, 0, .rw, 0⟩]⟩
  | .CORE_BKPTLO => ⟨0x1002010, 80, 0x10000, 4, 0x8,
      [⟨31, 3, .rw, 0⟩, ⟨2, 1, .rsvd, 0⟩, ⟨0, 0, .rw, 0⟩]⟩
  | .CORE_BKPTHI => ⟨0x1002014, 80, 0x10000, 4, 0x8,
      [⟨31, 16, .rsvd, 0⟩, ⟨15, 0, .rw, 0⟩]⟩
  | .CORE_MXCTL => ⟨0x1003000, 80, 0x10000, 1, 0,
      [⟨31, 16, .rsvd, 0⟩, ⟨15, 8, .rw, 0x10⟩, ⟨7, 1, .rsvd, 0⟩, ⟨0, 0, .rw, 1⟩]⟩
  | .CORE_MXSTAT => ⟨0x1003004, 80, 0x10000, 1, 0,
      [⟨31, 4, .rsvd, 0⟩, ⟨3, 3, .ro, 0⟩, ⟨2, 2, .ro, 0⟩, ⟨1, 1, .ro, 0⟩, ⟨0, 0, .ro, 0⟩]⟩
  | .CORE_MXCHK => ⟨0x1003008, 80, 0x10000, 1, 0,
      [⟨31, 28, .ro, 0⟩, ⟨27, 24, .ro, 0⟩, ⟨23, 16, .ro, 0⟩, ⟨15, 0, .rw, 0⟩]⟩
  | .CORE_MXNMAP => ⟨0x1003010, 80, 0x10000, 1, 0,
      [⟨31, 30, .rsvd, 0⟩, ⟨29, 25, .ro, 0⟩, ⟨24, 20, .ro, 0⟩, ⟨19, 15, .ro, 0⟩, ⟨14, 10, .ro, 0⟩, ⟨9, 5, .ro, 0⟩, ⟨4, 0, .ro, 0⟩]⟩

/-- The registers of the HIF block. -/
def Reg.inHIF : List Reg :=
  [.HIF_CAP, .HIF_MODE, .HIF_FOCTL, .HIF_FOSTAT, .HIF_PSTAT, .HIF_HBEAT, .HIF_CLAIM, .HIF_ALERT, .HIF_ALERTEN, .HIF_QSQLO, .HIF_QSQHI, .HIF_QCQLO, .HIF_QCQHI, .HIF_QSTLO, .HIF_QSTHI, .HIF_QCTL, .HIF_QSTAT, .HIF_MSIXALO, .HIF_MSIXAHI, .HIF_MSIXDATA, .HIF_MSIXVCTL, .HIF_MSIXPBA]

/-- The registers of the SEQ block. -/
def Reg.inSEQ : List Reg :=
  [.SEQ_CMD, .SEQ_ARGLO, .SEQ_ARGHI, .SEQ_STATE, .SEQ_STEP, .SEQ_DRTAIL, .SEQ_TIMEOUT, .SEQ_VERDICT, .SEQ_CAP, .SEQ_HMOUT, .SEQ_HMIN]

/-- The registers of the MEM block. -/
def Reg.inMEM : List Reg :=
  [.MEM_PTBASELO, .MEM_PTBASEHI, .MEM_MMUCTL, .MEM_TLBVALO, .MEM_TLBVAHI, .MEM_TLBINV, .MEM_FAULTLO, .MEM_FAULTHI, .MEM_FAULTINFO, .MEM_HBMCFG, .MEM_SCRUB, .MEM_IMODE, .MEM_HBMCE, .MEM_HBMUE, .MEM_HBMRET]

/-- The registers of the MSE block. -/
def Reg.inMSE : List Reg :=
  [.MSE_RINGLO, .MSE_RINGHI, .MSE_RHEAD, .MSE_RTAIL, .MSE_STAT, .MSE_SRAM, .MSE_EVENT, .MSE_HIST]

/-- The registers of the DMA block. -/
def Reg.inDMA : List Reg :=
  [.DMA_CHRINGLO, .DMA_CHRINGHI, .DMA_CHHEAD, .DMA_CHTAIL, .DMA_CHPACE, .DMA_CHSTAT, .DMA_ALIGNLOG, .DMA_ALIGNCNT]

/-- The registers of the LNK block. -/
def Reg.inLNK : List Reg :=
  [.LNK_CTL, .LNK_STAT, .LNK_PARTNER, .LNK_GPORT, .LNK_FECCE, .LNK_FECUE, .LNK_RETRY, .LNK_EVENT, .LNK_NODE, .LNK_SYSCFG, .LNK_SVCCTL, .LNK_EXCL]

/-- The registers of the SAF block. -/
def Reg.inSAF : List Reg :=
  [.SAF_STATE, .SAF_ERTAIL, .SAF_ERHEAD, .SAF_ERDROP, .SAF_IFT, .SAF_IFTSTAT, .SAF_WDOG, .SAF_CMAP, .SAF_CELLAR, .SAF_PHASE, .SAF_ERRING]

/-- The registers of the NUM block. -/
def Reg.inNUM : List Reg :=
  [.NUM_CFLAGS, .NUM_MFLAGS, .NUM_FLAGSUM, .NUM_FLAGCTL, .NUM_LSCALE, .NUM_LSGROW, .NUM_LSSTAT, .NUM_FBCTL, .NUM_FBSTAT, .NUM_STSEEDLO, .NUM_STSEEDHI, .NUM_BLCTL, .NUM_BLTHR, .NUM_CLASSFMT, .NUM_BLHIST, .NUM_BLSTAT, .NUM_CRUSH]

/-- The registers of the PWR block. -/
def Reg.inPWR : List Reg :=
  [.PWR_GOVCTL, .PWR_CAP, .PWR_RATETGT, .PWR_GOVSTAT, .PWR_RPRATE, .PWR_DSTAT, .PWR_INPUT, .PWR_PIN, .PWR_RAIL, .PWR_THRSTAT, .PWR_THRCNT, .PWR_TSOFFLO, .PWR_TSOFFHI, .PWR_TCAL, .PWR_TSTAT]

/-- The registers of the MGT block. -/
def Reg.inMGT : List Reg :=
  [.MGT_STAT, .MGT_FWVER, .MGT_SVN, .MGT_POS, .MGT_I3C, .MGT_LIFE, .MGT_ALERT, .MGT_ALERTEN, .MGT_HOURS]

/-- The registers of the DBG block. -/
def Reg.inDBG : List Reg :=
  [.DBG_DEVSTATE, .DBG_RSTCTL, .DBG_RSTCAUSE, .DBG_STARTTIME, .DBG_IDPCI, .DBG_IDSTEP, .DBG_IDMFR, .DBG_IDCODE, .DBG_SERIALLO, .DBG_SERIALHI, .DBG_CAPRES, .DBG_CAPMEM, .DBG_CAPVER, .DBG_FWVER]

/-- The registers of the CORE block. -/
def Reg.inCORE : List Reg :=
  [.CORE_PSARB, .CORE_PSQLO, .CORE_PSQHI, .CORE_PSHEAD, .CORE_PSTAIL, .CORE_FAULTCTL, .CORE_FECTL, .CORE_GSTAT, .CORE_GCTL, .CORE_DBGSEL, .CORE_DBGDATA, .CORE_BKPTLO, .CORE_BKPTHI, .CORE_MXCTL, .CORE_MXSTAT, .CORE_MXCHK, .CORE_MXNMAP]

/-- The blocks of Table 16.1. -/
inductive BlockId where
  | hif | seq | mem | mse | dma | lnk | saf | num | pwr | mgt | dbg | core
deriving DecidableEq, Repr

/-- The registers of a block. -/
def BlockId.regs : BlockId → List Reg
  | .hif => Reg.inHIF
  | .seq => Reg.inSEQ
  | .mem => Reg.inMEM
  | .mse => Reg.inMSE
  | .dma => Reg.inDMA
  | .lnk => Reg.inLNK
  | .saf => Reg.inSAF
  | .num => Reg.inNUM
  | .pwr => Reg.inPWR
  | .mgt => Reg.inMGT
  | .dbg => Reg.inDBG
  | .core => Reg.inCORE

/-- The block whose span holds a BAR0 offset (Table 16.1, R468). -/
def BlockId.ofOffset (o : Nat) : Option BlockId :=
  if o < 0x100000 then some .hif
  else if o < 0x200000 then some .seq
  else if o < 0x400000 then some .mem
  else if o < 0x500000 then some .mse
  else if o < 0x600000 then some .dma
  else if o < 0x800000 then some .lnk
  else if o < 0x900000 then some .saf
  else if o < 0xA00000 then some .num
  else if o < 0xB00000 then some .pwr
  else if o < 0xC00000 then some .mgt
  else if o < 0x1000000 then some .dbg
  else if o < 0x1500000 then some .core
  else none

/-- A field of a register, for named access. -/
structure Field where
  reg : Reg
  hi : Nat
  lo : Nat
deriving DecidableEq, Repr

/-- HIF.CAP.NQM1 [23:16] RO (R406). -/
def F.HIF_CAP_NQM1 : Field := ⟨.HIF_CAP, 23, 16⟩
/-- HIF.CAP.ABIMASK [7:0] RO (R406). -/
def F.HIF_CAP_ABIMASK : Field := ⟨.HIF_CAP, 7, 0⟩
/-- HIF.MODE.ACTIVE [1:1] RO (R406). -/
def F.HIF_MODE_ACTIVE : Field := ⟨.HIF_MODE, 1, 1⟩
/-- HIF.MODE.FAILOVER [0:0] RW (R406). -/
def F.HIF_MODE_FAILOVER : Field := ⟨.HIF_MODE, 0, 0⟩
/-- HIF.FOCTL.HBTO [15:0] RW (R406). -/
def F.HIF_FOCTL_HBTO : Field := ⟨.HIF_FOCTL, 15, 0⟩
/-- HIF.FOSTAT.CLAIMST [2:1] RO (R406). -/
def F.HIF_FOSTAT_CLAIMST : Field := ⟨.HIF_FOSTAT, 2, 1⟩
/-- HIF.FOSTAT.EXPIRED [0:0] RO (R406). -/
def F.HIF_FOSTAT_EXPIRED : Field := ⟨.HIF_FOSTAT, 0, 0⟩
/-- HIF.PSTAT.WIDTH [7:5] RO (R406). -/
def F.HIF_PSTAT_WIDTH : Field := ⟨.HIF_PSTAT, 7, 5⟩
/-- HIF.PSTAT.SPEED [4:2] RO (R406). -/
def F.HIF_PSTAT_SPEED : Field := ⟨.HIF_PSTAT, 4, 2⟩
/-- HIF.PSTAT.UP [1:1] RO (R406). -/
def F.HIF_PSTAT_UP : Field := ⟨.HIF_PSTAT, 1, 1⟩
/-- HIF.HBEAT.ANY [31:0] WO (R406). -/
def F.HIF_HBEAT_ANY : Field := ⟨.HIF_HBEAT, 31, 0⟩
/-- HIF.CLAIM.CLAIM [0:0] WO (R406). -/
def F.HIF_CLAIM_CLAIM : Field := ⟨.HIF_CLAIM, 0, 0⟩
/-- HIF.ALERT.CAUSE [4:0] W1C (R406). -/
def F.HIF_ALERT_CAUSE : Field := ⟨.HIF_ALERT, 4, 0⟩
/-- HIF.ALERTEN.EN [4:0] RW (R406). -/
def F.HIF_ALERTEN_EN : Field := ⟨.HIF_ALERTEN, 4, 0⟩
/-- HIF.QSQLO.BASELO [31:12] RW (R406). -/
def F.HIF_QSQLO_BASELO : Field := ⟨.HIF_QSQLO, 31, 12⟩
/-- HIF.QSQHI.BASEHI [31:0] RW (R406). -/
def F.HIF_QSQHI_BASEHI : Field := ⟨.HIF_QSQHI, 31, 0⟩
/-- HIF.QCQLO.BASELO [31:12] RW (R406). -/
def F.HIF_QCQLO_BASELO : Field := ⟨.HIF_QCQLO, 31, 12⟩
/-- HIF.QCQHI.BASEHI [31:0] RW (R406). -/
def F.HIF_QCQHI_BASEHI : Field := ⟨.HIF_QCQHI, 31, 0⟩
/-- HIF.QSTLO.BASELO [31:6] RW (R406). -/
def F.HIF_QSTLO_BASELO : Field := ⟨.HIF_QSTLO, 31, 6⟩
/-- HIF.QSTHI.BASEHI [31:0] RW (R406). -/
def F.HIF_QSTHI_BASEHI : Field := ⟨.HIF_QSTHI, 31, 0⟩
/-- HIF.QCTL.ABI [26:24] RW (R406). -/
def F.HIF_QCTL_ABI : Field := ⟨.HIF_QCTL, 26, 24⟩
/-- HIF.QCTL.SQLOG [23:20] RW (R406). -/
def F.HIF_QCTL_SQLOG : Field := ⟨.HIF_QCTL, 23, 20⟩
/-- HIF.QCTL.CQLOG [19:16] RW (R406). -/
def F.HIF_QCTL_CQLOG : Field := ⟨.HIF_QCTL, 19, 16⟩
/-- HIF.QCTL.CHAN [11:8] RW (R406). -/
def F.HIF_QCTL_CHAN : Field := ⟨.HIF_QCTL, 11, 8⟩
/-- HIF.QCTL.MIRROR [1:1] RW (R406). -/
def F.HIF_QCTL_MIRROR : Field := ⟨.HIF_QCTL, 1, 1⟩
/-- HIF.QCTL.EN [0:0] RW (R406). -/
def F.HIF_QCTL_EN : Field := ⟨.HIF_QCTL, 0, 0⟩
/-- HIF.QSTAT.STATE [31:28] RO (R406). -/
def F.HIF_QSTAT_STATE : Field := ⟨.HIF_QSTAT, 31, 28⟩
/-- HIF.QSTAT.ERR [27:24] RO (R406). -/
def F.HIF_QSTAT_ERR : Field := ⟨.HIF_QSTAT, 27, 24⟩
/-- HIF.QSTAT.OUT [15:0] RO (R406). -/
def F.HIF_QSTAT_OUT : Field := ⟨.HIF_QSTAT, 15, 0⟩
/-- HIF.MSIXALO.MSIXALO [31:0] RW (R406). -/
def F.HIF_MSIXALO_MSIXALO : Field := ⟨.HIF_MSIXALO, 31, 0⟩
/-- HIF.MSIXAHI.MSIXAHI [31:0] RW (R406). -/
def F.HIF_MSIXAHI_MSIXAHI : Field := ⟨.HIF_MSIXAHI, 31, 0⟩
/-- HIF.MSIXDATA.MSIXDATA [31:0] RW (R406). -/
def F.HIF_MSIXDATA_MSIXDATA : Field := ⟨.HIF_MSIXDATA, 31, 0⟩
/-- HIF.MSIXVCTL.MASK [0:0] RW (R406). -/
def F.HIF_MSIXVCTL_MASK : Field := ⟨.HIF_MSIXVCTL, 0, 0⟩
/-- HIF.MSIXPBA.PEND [31:0] RO (R406). -/
def F.HIF_MSIXPBA_PEND : Field := ⟨.HIF_MSIXPBA, 31, 0⟩
/-- SEQ.CMD.BUSY [31:31] RO (R321). -/
def F.SEQ_CMD_BUSY : Field := ⟨.SEQ_CMD, 31, 31⟩
/-- SEQ.CMD.DROP [30:30] W1C (R321). -/
def F.SEQ_CMD_DROP : Field := ⟨.SEQ_CMD, 30, 30⟩
/-- SEQ.CMD.CODE [7:0] WO (R321). -/
def F.SEQ_CMD_CODE : Field := ⟨.SEQ_CMD, 7, 0⟩
/-- SEQ.ARGLO.ARG [31:0] RW (R321). -/
def F.SEQ_ARGLO_ARG : Field := ⟨.SEQ_ARGLO, 31, 0⟩
/-- SEQ.ARGHI.ARG [31:0] RW (R321). -/
def F.SEQ_ARGHI_ARG : Field := ⟨.SEQ_ARGHI, 31, 0⟩
/-- SEQ.STATE.STATE [31:28] RO (R321). -/
def F.SEQ_STATE_STATE : Field := ⟨.SEQ_STATE, 31, 28⟩
/-- SEQ.STATE.CAUSE [27:20] RO (R321). -/
def F.SEQ_STATE_CAUSE : Field := ⟨.SEQ_STATE, 27, 20⟩
/-- SEQ.STATE.CMDST [7:0] RO (R321). -/
def F.SEQ_STATE_CMDST : Field := ⟨.SEQ_STATE, 7, 0⟩
/-- SEQ.STEP.STEP [31:0] RO (R321). -/
def F.SEQ_STEP_STEP : Field := ⟨.SEQ_STEP, 31, 0⟩
/-- SEQ.DRTAIL.TAIL [31:0] RW (R321). -/
def F.SEQ_DRTAIL_TAIL : Field := ⟨.SEQ_DRTAIL, 31, 0⟩
/-- SEQ.TIMEOUT.SEALTO [31:16] RW (R321). -/
def F.SEQ_TIMEOUT_SEALTO : Field := ⟨.SEQ_TIMEOUT, 31, 16⟩
/-- SEQ.TIMEOUT.HMTO [15:0] RW (R321). -/
def F.SEQ_TIMEOUT_HMTO : Field := ⟨.SEQ_TIMEOUT, 15, 0⟩
/-- SEQ.VERDICT.ROUND [31:16] RO (R321). -/
def F.SEQ_VERDICT_ROUND : Field := ⟨.SEQ_VERDICT, 31, 16⟩
/-- SEQ.VERDICT.LSEXP [15:8] RO (R321). -/
def F.SEQ_VERDICT_LSEXP : Field := ⟨.SEQ_VERDICT, 15, 8⟩
/-- SEQ.VERDICT.FAULT [1:1] RO (R321). -/
def F.SEQ_VERDICT_FAULT : Field := ⟨.SEQ_VERDICT, 1, 1⟩
/-- SEQ.VERDICT.NONFIN [0:0] RO (R321). -/
def F.SEQ_VERDICT_NONFIN : Field := ⟨.SEQ_VERDICT, 0, 0⟩
/-- SEQ.CAP.PMAJOR [31:16] RO (R321). -/
def F.SEQ_CAP_PMAJOR : Field := ⟨.SEQ_CAP, 31, 16⟩
/-- SEQ.CAP.PMINOR [15:0] RO (R321). -/
def F.SEQ_CAP_PMINOR : Field := ⟨.SEQ_CAP, 15, 0⟩
/-- SEQ.HMOUT.NEXT [7:0] RO (R321). -/
def F.SEQ_HMOUT_NEXT : Field := ⟨.SEQ_HMOUT, 7, 0⟩
/-- SEQ.HMIN.DATA [31:0] RW (R321). -/
def F.SEQ_HMIN_DATA : Field := ⟨.SEQ_HMIN, 31, 0⟩
/-- MEM.PTBASELO.BASELO [31:12] RW (R202). -/
def F.MEM_PTBASELO_BASELO : Field := ⟨.MEM_PTBASELO, 31, 12⟩
/-- MEM.PTBASEHI.BASEHI [7:0] RW (R202). -/
def F.MEM_PTBASEHI_BASEHI : Field := ⟨.MEM_PTBASEHI, 7, 0⟩
/-- MEM.MMUCTL.EN [0:0] RW (R202). -/
def F.MEM_MMUCTL_EN : Field := ⟨.MEM_MMUCTL, 0, 0⟩
/-- MEM.TLBVALO.VALO [31:12] RW (R202). -/
def F.MEM_TLBVALO_VALO : Field := ⟨.MEM_TLBVALO, 31, 12⟩
/-- MEM.TLBVAHI.VAHI [15:0] RW (R202). -/
def F.MEM_TLBVAHI_VAHI : Field := ⟨.MEM_TLBVAHI, 15, 0⟩
/-- MEM.TLBINV.DONE [31:31] RO (R202). -/
def F.MEM_TLBINV_DONE : Field := ⟨.MEM_TLBINV, 31, 31⟩
/-- MEM.TLBINV.PAGES [19:0] WO (R202). -/
def F.MEM_TLBINV_PAGES : Field := ⟨.MEM_TLBINV, 19, 0⟩
/-- MEM.FAULTLO.VALO [31:0] RO (R202). -/
def F.MEM_FAULTLO_VALO : Field := ⟨.MEM_FAULTLO, 31, 0⟩
/-- MEM.FAULTHI.VAHI [15:0] RO (R202). -/
def F.MEM_FAULTHI_VAHI : Field := ⟨.MEM_FAULTHI, 15, 0⟩
/-- MEM.FAULTINFO.VALID [31:31] W1C (R202). -/
def F.MEM_FAULTINFO_VALID : Field := ⟨.MEM_FAULTINFO, 31, 31⟩
/-- MEM.FAULTINFO.AGENT [23:16] RO (R202). -/
def F.MEM_FAULTINFO_AGENT : Field := ⟨.MEM_FAULTINFO, 23, 16⟩
/-- MEM.FAULTINFO.CAUSE [7:4] RO (R202). -/
def F.MEM_FAULTINFO_CAUSE : Field := ⟨.MEM_FAULTINFO, 7, 4⟩
/-- MEM.HBMCFG.RETTHR [15:12] RW (R202). -/
def F.MEM_HBMCFG_RETTHR : Field := ⟨.MEM_HBMCFG, 15, 12⟩
/-- MEM.HBMCFG.QUAL [8:8] RO (R202). -/
def F.MEM_HBMCFG_QUAL : Field := ⟨.MEM_HBMCFG, 8, 8⟩
/-- MEM.HBMCFG.RATE [1:1] RO (R202). -/
def F.MEM_HBMCFG_RATE : Field := ⟨.MEM_HBMCFG, 1, 1⟩
/-- MEM.HBMCFG.MAXRATE [0:0] RW (R202). -/
def F.MEM_HBMCFG_MAXRATE : Field := ⟨.MEM_HBMCFG, 0, 0⟩
/-- MEM.SCRUB.PERIOD [19:16] RW (R202). -/
def F.MEM_SCRUB_PERIOD : Field := ⟨.MEM_SCRUB, 19, 16⟩
/-- MEM.SCRUB.PROGRESS [7:0] RO (R202). -/
def F.MEM_SCRUB_PROGRESS : Field := ⟨.MEM_SCRUB, 7, 0⟩
/-- MEM.IMODE.MODE [3:3] RW (R202). -/
def F.MEM_IMODE_MODE : Field := ⟨.MEM_IMODE, 3, 3⟩
/-- MEM.IMODE.GRAN [2:0] RW (R202). -/
def F.MEM_IMODE_GRAN : Field := ⟨.MEM_IMODE, 2, 0⟩
/-- MEM.HBMCE.COUNT [31:0] RW (R202). -/
def F.MEM_HBMCE_COUNT : Field := ⟨.MEM_HBMCE, 31, 0⟩
/-- MEM.HBMUE.COUNT [15:0] RW (R202). -/
def F.MEM_HBMUE_COUNT : Field := ⟨.MEM_HBMUE, 15, 0⟩
/-- MEM.HBMRET.USED [18:0] RO (R202). -/
def F.MEM_HBMRET_USED : Field := ⟨.MEM_HBMRET, 18, 0⟩
/-- MSE.RINGLO.BASELO [31:12] RW (R171). -/
def F.MSE_RINGLO_BASELO : Field := ⟨.MSE_RINGLO, 31, 12⟩
/-- MSE.RINGHI.SIZE [20:16] RW (R171). -/
def F.MSE_RINGHI_SIZE : Field := ⟨.MSE_RINGHI, 20, 16⟩
/-- MSE.RINGHI.BASEHI [15:0] RW (R171). -/
def F.MSE_RINGHI_BASEHI : Field := ⟨.MSE_RINGHI, 15, 0⟩
/-- MSE.RHEAD.HEAD [11:0] RO (R171). -/
def F.MSE_RHEAD_HEAD : Field := ⟨.MSE_RHEAD, 11, 0⟩
/-- MSE.RTAIL.TAIL [11:0] RW (R171). -/
def F.MSE_RTAIL_TAIL : Field := ⟨.MSE_RTAIL, 11, 0⟩
/-- MSE.STAT.RBUSY [7:4] RO (R171). -/
def F.MSE_STAT_RBUSY : Field := ⟨.MSE_STAT, 7, 4⟩
/-- MSE.STAT.OPENWAIT [0:0] RO (R171). -/
def F.MSE_STAT_OPENWAIT : Field := ⟨.MSE_STAT, 0, 0⟩
/-- MSE.SRAM.OPEN [31:16] RO (R171). -/
def F.MSE_SRAM_OPEN : Field := ⟨.MSE_SRAM, 31, 16⟩
/-- MSE.SRAM.FREE [15:0] RO (R171). -/
def F.MSE_SRAM_FREE : Field := ⟨.MSE_SRAM, 15, 0⟩
/-- MSE.EVENT.NOTOPEN [31:16] W1C (R171). -/
def F.MSE_EVENT_NOTOPEN : Field := ⟨.MSE_EVENT, 31, 16⟩
/-- MSE.EVENT.STALE [15:0] W1C (R171). -/
def F.MSE_EVENT_STALE : Field := ⟨.MSE_EVENT, 15, 0⟩
/-- MSE.HIST.COUNT [31:0] RW (R171). -/
def F.MSE_HIST_COUNT : Field := ⟨.MSE_HIST, 31, 0⟩
/-- DMA.CHRINGLO.BASELO [31:12] RW (R172). -/
def F.DMA_CHRINGLO_BASELO : Field := ⟨.DMA_CHRINGLO, 31, 12⟩
/-- DMA.CHRINGHI.SIZE [20:16] RW (R172). -/
def F.DMA_CHRINGHI_SIZE : Field := ⟨.DMA_CHRINGHI, 20, 16⟩
/-- DMA.CHRINGHI.BASEHI [15:0] RW (R172). -/
def F.DMA_CHRINGHI_BASEHI : Field := ⟨.DMA_CHRINGHI, 15, 0⟩
/-- DMA.CHHEAD.HEAD [11:0] RO (R172). -/
def F.DMA_CHHEAD_HEAD : Field := ⟨.DMA_CHHEAD, 11, 0⟩
/-- DMA.CHTAIL.TAIL [11:0] RW (R172). -/
def F.DMA_CHTAIL_TAIL : Field := ⟨.DMA_CHTAIL, 11, 0⟩
/-- DMA.CHPACE.SHARE [6:0] RW (R172). -/
def F.DMA_CHPACE_SHARE : Field := ⟨.DMA_CHPACE, 6, 0⟩
/-- DMA.CHSTAT.BUSY [8:8] RO (R172). -/
def F.DMA_CHSTAT_BUSY : Field := ⟨.DMA_CHSTAT, 8, 8⟩
/-- DMA.CHSTAT.LAST [7:0] RO (R172). -/
def F.DMA_CHSTAT_LAST : Field := ⟨.DMA_CHSTAT, 7, 0⟩
/-- DMA.ALIGNLOG.CHAN [16:12] RO (R172). -/
def F.DMA_ALIGNLOG_CHAN : Field := ⟨.DMA_ALIGNLOG, 16, 12⟩
/-- DMA.ALIGNLOG.INDEX [11:0] RO (R172). -/
def F.DMA_ALIGNLOG_INDEX : Field := ⟨.DMA_ALIGNLOG, 11, 0⟩
/-- DMA.ALIGNCNT.COUNT [31:0] W1C (R172). -/
def F.DMA_ALIGNCNT_COUNT : Field := ⟨.DMA_ALIGNCNT, 31, 0⟩
/-- LNK.CTL.RETRAIN [7:7] WO (R276). -/
def F.LNK_CTL_RETRAIN : Field := ⟨.LNK_CTL, 7, 7⟩
/-- LNK.CTL.SPAREEN [6:6] RW (R276). -/
def F.LNK_CTL_SPAREEN : Field := ⟨.LNK_CTL, 6, 6⟩
/-- LNK.CTL.MAXRATE [5:4] RW (R276). -/
def F.LNK_CTL_MAXRATE : Field := ⟨.LNK_CTL, 5, 4⟩
/-- LNK.CTL.V12ONLY [3:3] RW (R276). -/
def F.LNK_CTL_V12ONLY : Field := ⟨.LNK_CTL, 3, 3⟩
/-- LNK.CTL.EN [0:0] RW (R276). -/
def F.LNK_CTL_EN : Field := ⟨.LNK_CTL, 0, 0⟩
/-- LNK.STAT.STATE [31:28] RO (R276). -/
def F.LNK_STAT_STATE : Field := ⟨.LNK_STAT, 31, 28⟩
/-- LNK.STAT.VER [27:27] RO (R276). -/
def F.LNK_STAT_VER : Field := ⟨.LNK_STAT, 27, 27⟩
/-- LNK.STAT.RATE [26:25] RO (R276). -/
def F.LNK_STAT_RATE : Field := ⟨.LNK_STAT, 26, 25⟩
/-- LNK.STAT.NARROW [24:24] RO (R276). -/
def F.LNK_STAT_NARROW : Field := ⟨.LNK_STAT, 24, 24⟩
/-- LNK.STAT.SPUSE [23:23] RO (R276). -/
def F.LNK_STAT_SPUSE : Field := ⟨.LNK_STAT, 23, 23⟩
/-- LNK.STAT.SPLANE [22:21] RO (R276). -/
def F.LNK_STAT_SPLANE : Field := ⟨.LNK_STAT, 22, 21⟩
/-- LNK.PARTNER.NODE [31:16] RO (R276). -/
def F.LNK_PARTNER_NODE : Field := ⟨.LNK_PARTNER, 31, 16⟩
/-- LNK.PARTNER.MLINK [6:0] RO (R276). -/
def F.LNK_PARTNER_MLINK : Field := ⟨.LNK_PARTNER, 6, 0⟩
/-- LNK.GPORT.PGIDX [26:16] RO (R276). -/
def F.LNK_GPORT_PGIDX : Field := ⟨.LNK_GPORT, 26, 16⟩
/-- LNK.GPORT.SUBEN [11:11] RW (R276). -/
def F.LNK_GPORT_SUBEN : Field := ⟨.LNK_GPORT, 11, 11⟩
/-- LNK.GPORT.SUBST [10:0] RW (R276). -/
def F.LNK_GPORT_SUBST : Field := ⟨.LNK_GPORT, 10, 0⟩
/-- LNK.FECCE.COUNT [31:0] RW (R276). -/
def F.LNK_FECCE_COUNT : Field := ⟨.LNK_FECCE, 31, 0⟩
/-- LNK.FECUE.COUNT [31:0] RW (R276). -/
def F.LNK_FECUE_COUNT : Field := ⟨.LNK_FECUE, 31, 0⟩
/-- LNK.RETRY.REPLAYS [31:16] RW (R276). -/
def F.LNK_RETRY_REPLAYS : Field := ⟨.LNK_RETRY, 31, 16⟩
/-- LNK.RETRY.RETRAINS [15:0] RW (R276). -/
def F.LNK_RETRY_RETRAINS : Field := ⟨.LNK_RETRY, 15, 0⟩
/-- LNK.EVENT.LOST [31:16] W1C (R276). -/
def F.LNK_EVENT_LOST : Field := ⟨.LNK_EVENT, 31, 16⟩
/-- LNK.EVENT.REFUSED [15:0] W1C (R276). -/
def F.LNK_EVENT_REFUSED : Field := ⟨.LNK_EVENT, 15, 0⟩
/-- LNK.NODE.CHASSIS [25:16] RW (R276). -/
def F.LNK_NODE_CHASSIS : Field := ⟨.LNK_NODE, 25, 16⟩
/-- LNK.NODE.POSV [6:6] RO (R276). -/
def F.LNK_NODE_POSV : Field := ⟨.LNK_NODE, 6, 6⟩
/-- LNK.NODE.POS [5:0] RO (R276). -/
def F.LNK_NODE_POS : Field := ⟨.LNK_NODE, 5, 0⟩
/-- LNK.SYSCFG.ADTHR [31:24] RW (R276). -/
def F.LNK_SYSCFG_ADTHR : Field := ⟨.LNK_SYSCFG, 31, 24⟩
/-- LNK.SYSCFG.ADAPT [16:16] RW (R276). -/
def F.LNK_SYSCFG_ADAPT : Field := ⟨.LNK_SYSCFG, 16, 16⟩
/-- LNK.SYSCFG.NCHM1 [9:0] RW (R276). -/
def F.LNK_SYSCFG_NCHM1 : Field := ⟨.LNK_SYSCFG, 9, 0⟩
/-- LNK.SVCCTL.EN [0:0] RW (R276). -/
def F.LNK_SVCCTL_EN : Field := ⟨.LNK_SVCCTL, 0, 0⟩
/-- LNK.EXCL.COUNT [8:0] RO (R276). -/
def F.LNK_EXCL_COUNT : Field := ⟨.LNK_EXCL, 8, 0⟩
/-- SAF.STATE.SAFE [31:31] RO (R349). -/
def F.SAF_STATE_SAFE : Field := ⟨.SAF_STATE, 31, 31⟩
/-- SAF.STATE.CAUSE [23:16] RO (R349). -/
def F.SAF_STATE_CAUSE : Field := ⟨.SAF_STATE, 23, 16⟩
/-- SAF.ERTAIL.COUNT [31:0] RO (R349). -/
def F.SAF_ERTAIL_COUNT : Field := ⟨.SAF_ERTAIL, 31, 0⟩
/-- SAF.ERHEAD.COUNT [31:0] RW (R349). -/
def F.SAF_ERHEAD_COUNT : Field := ⟨.SAF_ERHEAD, 31, 0⟩
/-- SAF.ERDROP.UNCORR [31:16] RW (R349). -/
def F.SAF_ERDROP_UNCORR : Field := ⟨.SAF_ERDROP, 31, 16⟩
/-- SAF.ERDROP.CORR [15:0] RW (R349). -/
def F.SAF_ERDROP_CORR : Field := ⟨.SAF_ERDROP, 15, 0⟩
/-- SAF.IFT.PERIOD [23:16] RW (R349). -/
def F.SAF_IFT_PERIOD : Field := ⟨.SAF_IFT, 23, 16⟩
/-- SAF.IFT.PREEMPT [15:8] RW (R349). -/
def F.SAF_IFT_PREEMPT : Field := ⟨.SAF_IFT, 15, 8⟩
/-- SAF.IFT.EN [0:0] RW (R349). -/
def F.SAF_IFT_EN : Field := ⟨.SAF_IFT, 0, 0⟩
/-- SAF.IFTSTAT.STATE [31:28] RO (R349). -/
def F.SAF_IFTSTAT_STATE : Field := ⟨.SAF_IFTSTAT, 31, 28⟩
/-- SAF.IFTSTAT.CLUSTER [27:24] RO (R349). -/
def F.SAF_IFTSTAT_CLUSTER : Field := ⟨.SAF_IFTSTAT, 27, 24⟩
/-- SAF.IFTSTAT.SLOT [23:21] RO (R349). -/
def F.SAF_IFTSTAT_SLOT : Field := ⟨.SAF_IFTSTAT, 23, 21⟩
/-- SAF.IFTSTAT.PASSES [15:0] RO (R349). -/
def F.SAF_IFTSTAT_PASSES : Field := ⟨.SAF_IFTSTAT, 15, 0⟩
/-- SAF.WDOG.STALL [15:8] RW (R349). -/
def F.SAF_WDOG_STALL : Field := ⟨.SAF_WDOG, 15, 8⟩
/-- SAF.CMAP.AVAIL [31:28] RO (R349). -/
def F.SAF_CMAP_AVAIL : Field := ⟨.SAF_CMAP, 31, 28⟩
/-- SAF.CMAP.L3 [23:21] RO (R349). -/
def F.SAF_CMAP_L3 : Field := ⟨.SAF_CMAP, 23, 21⟩
/-- SAF.CMAP.L2 [20:18] RO (R349). -/
def F.SAF_CMAP_L2 : Field := ⟨.SAF_CMAP, 20, 18⟩
/-- SAF.CMAP.L1 [17:15] RO (R349). -/
def F.SAF_CMAP_L1 : Field := ⟨.SAF_CMAP, 17, 15⟩
/-- SAF.CMAP.L0 [14:12] RO (R349). -/
def F.SAF_CMAP_L0 : Field := ⟨.SAF_CMAP, 14, 12⟩
/-- SAF.CMAP.SPARE [11:9] RO (R349). -/
def F.SAF_CMAP_SPARE : Field := ⟨.SAF_CMAP, 11, 9⟩
/-- SAF.CMAP.RETIRED [4:0] RO (R349). -/
def F.SAF_CMAP_RETIRED : Field := ⟨.SAF_CMAP, 4, 0⟩
/-- SAF.CELLAR.GRADE [31:30] RO (R349). -/
def F.SAF_CELLAR_GRADE : Field := ⟨.SAF_CELLAR, 31, 30⟩
/-- SAF.CELLAR.LCORES [23:16] RO (R349). -/
def F.SAF_CELLAR_LCORES : Field := ⟨.SAF_CELLAR, 23, 16⟩
/-- SAF.CELLAR.NIBS [15:8] RO (R349). -/
def F.SAF_CELLAR_NIBS : Field := ⟨.SAF_CELLAR, 15, 8⟩
/-- SAF.CELLAR.LANES [7:0] RO (R349). -/
def F.SAF_CELLAR_LANES : Field := ⟨.SAF_CELLAR, 7, 0⟩
/-- SAF.PHASE.SHED [31:0] RO (R349). -/
def F.SAF_PHASE_SHED : Field := ⟨.SAF_PHASE, 31, 0⟩
/-- NUM.CFLAGS.VIV [11:11] W1C (R66). -/
def F.NUM_CFLAGS_VIV : Field := ⟨.NUM_CFLAGS, 11, 11⟩
/-- NUM.CFLAGS.VOF [10:10] W1C (R66). -/
def F.NUM_CFLAGS_VOF : Field := ⟨.NUM_CFLAGS, 10, 10⟩
/-- NUM.CFLAGS.VUF [9:9] W1C (R66). -/
def F.NUM_CFLAGS_VUF : Field := ⟨.NUM_CFLAGS, 9, 9⟩
/-- NUM.CFLAGS.VNX [8:8] W1C (R66). -/
def F.NUM_CFLAGS_VNX : Field := ⟨.NUM_CFLAGS, 8, 8⟩
/-- NUM.CFLAGS.BIV [7:7] W1C (R66). -/
def F.NUM_CFLAGS_BIV : Field := ⟨.NUM_CFLAGS, 7, 7⟩
/-- NUM.CFLAGS.BOF [6:6] W1C (R66). -/
def F.NUM_CFLAGS_BOF : Field := ⟨.NUM_CFLAGS, 6, 6⟩
/-- NUM.CFLAGS.BUF [5:5] W1C (R66). -/
def F.NUM_CFLAGS_BUF : Field := ⟨.NUM_CFLAGS, 5, 5⟩
/-- NUM.CFLAGS.BNX [4:4] W1C (R66). -/
def F.NUM_CFLAGS_BNX : Field := ⟨.NUM_CFLAGS, 4, 4⟩
/-- NUM.CFLAGS.FIV [3:3] W1C (R66). -/
def F.NUM_CFLAGS_FIV : Field := ⟨.NUM_CFLAGS, 3, 3⟩
/-- NUM.CFLAGS.FOF [2:2] W1C (R66). -/
def F.NUM_CFLAGS_FOF : Field := ⟨.NUM_CFLAGS, 2, 2⟩
/-- NUM.CFLAGS.FUF [1:1] W1C (R66). -/
def F.NUM_CFLAGS_FUF : Field := ⟨.NUM_CFLAGS, 1, 1⟩
/-- NUM.CFLAGS.FNX [0:0] W1C (R66). -/
def F.NUM_CFLAGS_FNX : Field := ⟨.NUM_CFLAGS, 0, 0⟩
/-- NUM.MFLAGS.IV [3:3] W1C (R66). -/
def F.NUM_MFLAGS_IV : Field := ⟨.NUM_MFLAGS, 3, 3⟩
/-- NUM.MFLAGS.OF [2:2] W1C (R66). -/
def F.NUM_MFLAGS_OF : Field := ⟨.NUM_MFLAGS, 2, 2⟩
/-- NUM.MFLAGS.UF [1:1] W1C (R66). -/
def F.NUM_MFLAGS_UF : Field := ⟨.NUM_MFLAGS, 1, 1⟩
/-- NUM.MFLAGS.NX [0:0] W1C (R66). -/
def F.NUM_MFLAGS_NX : Field := ⟨.NUM_MFLAGS, 0, 0⟩
/-- NUM.FLAGSUM.MSE [15:12] RO (R66). -/
def F.NUM_FLAGSUM_MSE : Field := ⟨.NUM_FLAGSUM, 15, 12⟩
/-- NUM.FLAGSUM.VEC [11:8] RO (R66). -/
def F.NUM_FLAGSUM_VEC : Field := ⟨.NUM_FLAGSUM, 11, 8⟩
/-- NUM.FLAGSUM.BENG [7:4] RO (R66). -/
def F.NUM_FLAGSUM_BENG : Field := ⟨.NUM_FLAGSUM, 7, 4⟩
/-- NUM.FLAGSUM.FENG [3:0] RO (R66). -/
def F.NUM_FLAGSUM_FENG : Field := ⟨.NUM_FLAGSUM, 3, 0⟩
/-- NUM.FLAGCTL.SNAPCLR [0:0] RW (R66). -/
def F.NUM_FLAGCTL_SNAPCLR : Field := ⟨.NUM_FLAGCTL, 0, 0⟩
/-- NUM.LSCALE.LSMAX [29:24] RW (R142). -/
def F.NUM_LSCALE_LSMAX : Field := ⟨.NUM_LSCALE, 29, 24⟩
/-- NUM.LSCALE.LSMIN [21:16] RW (R142). -/
def F.NUM_LSCALE_LSMIN : Field := ⟨.NUM_LSCALE, 21, 16⟩
/-- NUM.LSCALE.LSINIT [13:8] RW (R142). -/
def F.NUM_LSCALE_LSINIT : Field := ⟨.NUM_LSCALE, 13, 8⟩
/-- NUM.LSCALE.LSEXP [5:0] RO (R142). -/
def F.NUM_LSCALE_LSEXP : Field := ⟨.NUM_LSCALE, 5, 0⟩
/-- NUM.LSGROW.GROW [15:0] RW (R142). -/
def F.NUM_LSGROW_GROW : Field := ⟨.NUM_LSGROW, 15, 0⟩
/-- NUM.LSSTAT.CLEAN [31:16] RO (R142). -/
def F.NUM_LSSTAT_CLEAN : Field := ⟨.NUM_LSSTAT, 31, 16⟩
/-- NUM.LSSTAT.SKIPS [15:0] RO (R142). -/
def F.NUM_LSSTAT_SKIPS : Field := ⟨.NUM_LSSTAT, 15, 0⟩
/-- NUM.FBCTL.HOLD [31:16] RW (R142). -/
def F.NUM_FBCTL_HOLD : Field := ⟨.NUM_FBCTL, 31, 16⟩
/-- NUM.FBCTL.WINDOW [15:8] RW (R142). -/
def F.NUM_FBCTL_WINDOW : Field := ⟨.NUM_FBCTL, 15, 8⟩
/-- NUM.FBCTL.LIMIT [7:4] RW (R142). -/
def F.NUM_FBCTL_LIMIT : Field := ⟨.NUM_FBCTL, 7, 4⟩
/-- NUM.FBCTL.AUTO [1:1] RW (R142). -/
def F.NUM_FBCTL_AUTO : Field := ⟨.NUM_FBCTL, 1, 1⟩
/-- NUM.FBCTL.FORCE [0:0] RW (R142). -/
def F.NUM_FBCTL_FORCE : Field := ⟨.NUM_FBCTL, 0, 0⟩
/-- NUM.FBSTAT.ACTIVE [16:16] RO (R142). -/
def F.NUM_FBSTAT_ACTIVE : Field := ⟨.NUM_FBSTAT, 16, 16⟩
/-- NUM.FBSTAT.FLAGGED [15:0] RO (R142). -/
def F.NUM_FBSTAT_FLAGGED : Field := ⟨.NUM_FBSTAT, 15, 0⟩
/-- NUM.STSEEDLO.SEEDLO [31:0] RW (R142). -/
def F.NUM_STSEEDLO_SEEDLO : Field := ⟨.NUM_STSEEDLO, 31, 0⟩
/-- NUM.STSEEDHI.SEEDHI [31:0] RW (R142). -/
def F.NUM_STSEEDHI_SEEDHI : Field := ⟨.NUM_STSEEDHI, 31, 0⟩
/-- NUM.BLCTL.PROMOTE [31:24] RW (R142). -/
def F.NUM_BLCTL_PROMOTE : Field := ⟨.NUM_BLCTL, 31, 24⟩
/-- NUM.BLCTL.ENABLE [23:16] RW (R142). -/
def F.NUM_BLCTL_ENABLE : Field := ⟨.NUM_BLCTL, 23, 16⟩
/-- NUM.BLCTL.MINSAMP [11:8] RW (R142). -/
def F.NUM_BLCTL_MINSAMP : Field := ⟨.NUM_BLCTL, 11, 8⟩
/-- NUM.BLCTL.K [4:0] RW (R142). -/
def F.NUM_BLCTL_K : Field := ⟨.NUM_BLCTL, 4, 0⟩
/-- NUM.BLTHR.THR [31:0] RW (R142). -/
def F.NUM_BLTHR_THR : Field := ⟨.NUM_BLTHR, 31, 0⟩
/-- NUM.CLASSFMT.B16 [7:0] RW (R142). -/
def F.NUM_CLASSFMT_B16 : Field := ⟨.NUM_CLASSFMT, 7, 0⟩
/-- NUM.BLHIST.COUNT [31:0] RW (R142). -/
def F.NUM_BLHIST_COUNT : Field := ⟨.NUM_BLHIST, 31, 0⟩
/-- NUM.BLSTAT.DROPPED [31:16] RW (R142). -/
def F.NUM_BLSTAT_DROPPED : Field := ⟨.NUM_BLSTAT, 31, 16⟩
/-- NUM.BLSTAT.NONFIN [15:0] RW (R142). -/
def F.NUM_BLSTAT_NONFIN : Field := ⟨.NUM_BLSTAT, 15, 0⟩
/-- NUM.CRUSH.COUNT [31:0] RO (R142). -/
def F.NUM_CRUSH_COUNT : Field := ⟨.NUM_CRUSH, 31, 0⟩
/-- PWR.GOVCTL.TJLIM [31:24] RW (R376). -/
def F.PWR_GOVCTL_TJLIM : Field := ⟨.PWR_GOVCTL, 31, 24⟩
/-- PWR.GOVCTL.IDLEMS [23:16] RW (R376). -/
def F.PWR_GOVCTL_IDLEMS : Field := ⟨.PWR_GOVCTL, 23, 16⟩
/-- PWR.GOVCTL.MODE [0:0] RW (R376). -/
def F.PWR_GOVCTL_MODE : Field := ⟨.PWR_GOVCTL, 0, 0⟩
/-- PWR.CAP.WATTS [15:0] RW (R376). -/
def F.PWR_CAP_WATTS : Field := ⟨.PWR_CAP, 15, 0⟩
/-- PWR.RATETGT.MHS [11:0] RW (R376). -/
def F.PWR_RATETGT_MHS : Field := ⟨.PWR_RATETGT, 11, 0⟩
/-- PWR.GOVSTAT.RATE [31:20] RO (R376). -/
def F.PWR_GOVSTAT_RATE : Field := ⟨.PWR_GOVSTAT, 31, 20⟩
/-- PWR.GOVSTAT.LIMIT [19:17] RO (R376). -/
def F.PWR_GOVSTAT_LIMIT : Field := ⟨.PWR_GOVSTAT, 19, 17⟩
/-- PWR.GOVSTAT.CAPMISS [16:16] W1C (R376). -/
def F.PWR_GOVSTAT_CAPMISS : Field := ⟨.PWR_GOVSTAT, 16, 16⟩
/-- PWR.RPRATE.BIN [12:12] RO (R376). -/
def F.PWR_RPRATE_BIN : Field := ⟨.PWR_RPRATE, 12, 12⟩
/-- PWR.RPRATE.MHS [11:0] RO (R376). -/
def F.PWR_RPRATE_MHS : Field := ⟨.PWR_RPRATE, 11, 0⟩
/-- PWR.DSTAT.RATE [31:20] RO (R376). -/
def F.PWR_DSTAT_RATE : Field := ⟨.PWR_DSTAT, 31, 20⟩
/-- PWR.DSTAT.VOLT [19:10] RO (R376). -/
def F.PWR_DSTAT_VOLT : Field := ⟨.PWR_DSTAT, 19, 10⟩
/-- PWR.DSTAT.LIMIT [9:7] RO (R376). -/
def F.PWR_DSTAT_LIMIT : Field := ⟨.PWR_DSTAT, 9, 7⟩
/-- PWR.DSTAT.TJ [6:0] RO (R376). -/
def F.PWR_DSTAT_TJ : Field := ⟨.PWR_DSTAT, 6, 0⟩
/-- PWR.INPUT.VIN [31:20] RO (R376). -/
def F.PWR_INPUT_VIN : Field := ⟨.PWR_INPUT, 31, 20⟩
/-- PWR.INPUT.IIN [19:8] RO (R376). -/
def F.PWR_INPUT_IIN : Field := ⟨.PWR_INPUT, 19, 8⟩
/-- PWR.PIN.PEAK [31:16] RW (R376). -/
def F.PWR_PIN_PEAK : Field := ⟨.PWR_PIN, 31, 16⟩
/-- PWR.PIN.AVG [15:0] RO (R376). -/
def F.PWR_PIN_AVG : Field := ⟨.PWR_PIN, 15, 0⟩
/-- PWR.RAIL.PHASES [19:16] RO (R376). -/
def F.PWR_RAIL_PHASES : Field := ⟨.PWR_RAIL, 19, 16⟩
/-- PWR.RAIL.RATED [15:0] RO (R376). -/
def F.PWR_RAIL_RATED : Field := ⟨.PWR_RAIL, 15, 0⟩
/-- PWR.THRSTAT.SUST [2:2] RO (R376). -/
def F.PWR_THRSTAT_SUST : Field := ⟨.PWR_THRSTAT, 2, 2⟩
/-- PWR.THRSTAT.ACTIVE [1:1] RO (R376). -/
def F.PWR_THRSTAT_ACTIVE : Field := ⟨.PWR_THRSTAT, 1, 1⟩
/-- PWR.THRSTAT.LEVEL [0:0] RO (R376). -/
def F.PWR_THRSTAT_LEVEL : Field := ⟨.PWR_THRSTAT, 0, 0⟩
/-- PWR.THRCNT.QUAL [31:16] RW (R376). -/
def F.PWR_THRCNT_QUAL : Field := ⟨.PWR_THRCNT, 31, 16⟩
/-- PWR.THRCNT.GLITCH [15:0] RW (R376). -/
def F.PWR_THRCNT_GLITCH : Field := ⟨.PWR_THRCNT, 15, 0⟩
/-- PWR.TSOFFLO.OFF [31:0] RW (R376). -/
def F.PWR_TSOFFLO_OFF : Field := ⟨.PWR_TSOFFLO, 31, 0⟩
/-- PWR.TSOFFHI.OFF [31:0] RW (R376). -/
def F.PWR_TSOFFHI_OFF : Field := ⟨.PWR_TSOFFHI, 31, 0⟩
/-- PWR.TCAL.PPM [15:0] RW (R376). -/
def F.PWR_TCAL_PPM : Field := ⟨.PWR_TCAL, 15, 0⟩
/-- PWR.TSTAT.LOCK [2:2] RO (R376). -/
def F.PWR_TSTAT_LOCK : Field := ⟨.PWR_TSTAT, 2, 2⟩
/-- PWR.TSTAT.SRC [1:0] RO (R376). -/
def F.PWR_TSTAT_SRC : Field := ⟨.PWR_TSTAT, 1, 0⟩
/-- MGT.STAT.STATE [31:28] RO (R436). -/
def F.MGT_STAT_STATE : Field := ⟨.MGT_STAT, 31, 28⟩
/-- MGT.STAT.EVLOST [23:16] RW (R436). -/
def F.MGT_STAT_EVLOST : Field := ⟨.MGT_STAT, 23, 16⟩
/-- MGT.STAT.EVPEND [8:0] RO (R436). -/
def F.MGT_STAT_EVPEND : Field := ⟨.MGT_STAT, 8, 0⟩
/-- MGT.FWVER.VER [31:0] RO (R436). -/
def F.MGT_FWVER_VER : Field := ⟨.MGT_FWVER, 31, 0⟩
/-- MGT.SVN.FUSED [13:8] RO (R436). -/
def F.MGT_SVN_FUSED : Field := ⟨.MGT_SVN, 13, 8⟩
/-- MGT.SVN.IMAGE [5:0] RO (R436). -/
def F.MGT_SVN_IMAGE : Field := ⟨.MGT_SVN, 5, 0⟩
/-- MGT.POS.CONFLICT [31:31] W1C (R436). -/
def F.MGT_POS_CONFLICT : Field := ⟨.MGT_POS, 31, 31⟩
/-- MGT.POS.CWORD [13:8] RO (R436). -/
def F.MGT_POS_CWORD : Field := ⟨.MGT_POS, 13, 8⟩
/-- MGT.POS.POSV [6:6] RO (R436). -/
def F.MGT_POS_POSV : Field := ⟨.MGT_POS, 6, 6⟩
/-- MGT.POS.POS [5:0] RO (R436). -/
def F.MGT_POS_POS : Field := ⟨.MGT_POS, 5, 0⟩
/-- MGT.I3C.DAV [7:7] RO (R436). -/
def F.MGT_I3C_DAV : Field := ⟨.MGT_I3C, 7, 7⟩
/-- MGT.I3C.DA [6:0] RO (R436). -/
def F.MGT_I3C_DA : Field := ⟨.MGT_I3C, 6, 0⟩
/-- MGT.LIFE.GRADE [31:30] RO (R436). -/
def F.MGT_LIFE_GRADE : Field := ⟨.MGT_LIFE, 31, 30⟩
/-- MGT.LIFE.OWNED [29:29] RO (R436). -/
def F.MGT_LIFE_OWNED : Field := ⟨.MGT_LIFE, 29, 29⟩
/-- MGT.LIFE.LOST [28:28] RO (R436). -/
def F.MGT_LIFE_LOST : Field := ⟨.MGT_LIFE, 28, 28⟩
/-- MGT.LIFE.WIPEPEND [27:27] RO (R436). -/
def F.MGT_LIFE_WIPEPEND : Field := ⟨.MGT_LIFE, 27, 27⟩
/-- MGT.LIFE.TRANSFERS [15:0] RO (R436). -/
def F.MGT_LIFE_TRANSFERS : Field := ⟨.MGT_LIFE, 15, 0⟩
/-- MGT.ALERT.CONFLICT [3:3] W1C (R436). -/
def F.MGT_ALERT_CONFLICT : Field := ⟨.MGT_ALERT, 3, 3⟩
/-- MGT.ALERT.WIPED [2:2] W1C (R436). -/
def F.MGT_ALERT_WIPED : Field := ⟨.MGT_ALERT, 2, 2⟩
/-- MGT.ALERT.FWREADY [1:1] W1C (R436). -/
def F.MGT_ALERT_FWREADY : Field := ⟨.MGT_ALERT, 1, 1⟩
/-- MGT.ALERT.EVQ [0:0] W1C (R436). -/
def F.MGT_ALERT_EVQ : Field := ⟨.MGT_ALERT, 0, 0⟩
/-- MGT.ALERTEN.EN [3:0] RW (R436). -/
def F.MGT_ALERTEN_EN : Field := ⟨.MGT_ALERTEN, 3, 0⟩
/-- MGT.HOURS.POWERED [31:0] RO (R436). -/
def F.MGT_HOURS_POWERED : Field := ⟨.MGT_HOURS, 31, 0⟩
/-- DBG.DEVSTATE.PHASE [31:28] RO (R449). -/
def F.DBG_DEVSTATE_PHASE : Field := ⟨.DBG_DEVSTATE, 31, 28⟩
/-- DBG.DEVSTATE.FAIL [27:24] RO (R449). -/
def F.DBG_DEVSTATE_FAIL : Field := ⟨.DBG_DEVSTATE, 27, 24⟩
/-- DBG.DEVSTATE.STACKS [23:12] RO (R449). -/
def F.DBG_DEVSTATE_STACKS : Field := ⟨.DBG_DEVSTATE, 23, 12⟩
/-- DBG.RSTCTL.KEY [31:16] WO (R449). -/
def F.DBG_RSTCTL_KEY : Field := ⟨.DBG_RSTCTL, 31, 16⟩
/-- DBG.RSTCTL.DEVRST [0:0] WO (R449). -/
def F.DBG_RSTCTL_DEVRST : Field := ⟨.DBG_RSTCTL, 0, 0⟩
/-- DBG.RSTCAUSE.CAUSE [31:24] RO (R449). -/
def F.DBG_RSTCAUSE_CAUSE : Field := ⟨.DBG_RSTCAUSE, 31, 24⟩
/-- DBG.RSTCAUSE.COUNT [15:0] RO (R449). -/
def F.DBG_RSTCAUSE_COUNT : Field := ⟨.DBG_RSTCAUSE, 15, 0⟩
/-- DBG.STARTTIME.MS [31:0] RO (R449). -/
def F.DBG_STARTTIME_MS : Field := ⟨.DBG_STARTTIME, 31, 0⟩
/-- DBG.IDPCI.DEVICE [31:16] RO (R473). -/
def F.DBG_IDPCI_DEVICE : Field := ⟨.DBG_IDPCI, 31, 16⟩
/-- DBG.IDPCI.VENDOR [15:0] RO (R473). -/
def F.DBG_IDPCI_VENDOR : Field := ⟨.DBG_IDPCI, 15, 0⟩
/-- DBG.IDSTEP.REVID [15:8] RO (R473). -/
def F.DBG_IDSTEP_REVID : Field := ⟨.DBG_IDSTEP, 15, 8⟩
/-- DBG.IDSTEP.LETTER [7:4] RO (R473). -/
def F.DBG_IDSTEP_LETTER : Field := ⟨.DBG_IDSTEP, 7, 4⟩
/-- DBG.IDSTEP.NUMBER [3:0] RO (R473). -/
def F.DBG_IDSTEP_NUMBER : Field := ⟨.DBG_IDSTEP, 3, 0⟩
/-- DBG.IDMFR.JEDEC [26:16] RO (R473). -/
def F.DBG_IDMFR_JEDEC : Field := ⟨.DBG_IDMFR, 26, 16⟩
/-- DBG.IDMFR.MIPI [14:0] RO (R473). -/
def F.DBG_IDMFR_MIPI : Field := ⟨.DBG_IDMFR, 14, 0⟩
/-- DBG.IDCODE.IDCODE [31:0] RO (R473). -/
def F.DBG_IDCODE_IDCODE : Field := ⟨.DBG_IDCODE, 31, 0⟩
/-- DBG.SERIALLO.SERIAL [31:0] RO (R473). -/
def F.DBG_SERIALLO_SERIAL : Field := ⟨.DBG_SERIALLO, 31, 0⟩
/-- DBG.SERIALHI.SERIAL [31:0] RO (R473). -/
def F.DBG_SERIALHI_SERIAL : Field := ⟨.DBG_SERIALHI, 31, 0⟩
/-- DBG.CAPRES.GRADE [31:30] RO (R473). -/
def F.DBG_CAPRES_GRADE : Field := ⟨.DBG_CAPRES, 31, 30⟩
/-- DBG.CAPRES.GRADEV [29:29] RO (R473). -/
def F.DBG_CAPRES_GRADEV : Field := ⟨.DBG_CAPRES, 29, 29⟩
/-- DBG.CAPRES.BIN [28:28] RO (R473). -/
def F.DBG_CAPRES_BIN : Field := ⟨.DBG_CAPRES, 28, 28⟩
/-- DBG.CAPRES.LCORES [23:16] RO (R473). -/
def F.DBG_CAPRES_LCORES : Field := ⟨.DBG_CAPRES, 23, 16⟩
/-- DBG.CAPRES.STACKS [15:8] RO (R473). -/
def F.DBG_CAPRES_STACKS : Field := ⟨.DBG_CAPRES, 15, 8⟩
/-- DBG.CAPRES.LINKS [7:0] RO (R473). -/
def F.DBG_CAPRES_LINKS : Field := ⟨.DBG_CAPRES, 7, 0⟩
/-- DBG.CAPMEM.USABLE [31:16] RO (R473). -/
def F.DBG_CAPMEM_USABLE : Field := ⟨.DBG_CAPMEM, 31, 16⟩
/-- DBG.CAPMEM.SRAM [15:8] RO (R473). -/
def F.DBG_CAPMEM_SRAM : Field := ⟨.DBG_CAPMEM, 15, 8⟩
/-- DBG.CAPVER.MLVER [31:24] RO (R473). -/
def F.DBG_CAPVER_MLVER : Field := ⟨.DBG_CAPVER, 31, 24⟩
/-- DBG.CAPVER.ABIMASK [23:16] RO (R473). -/
def F.DBG_CAPVER_ABIMASK : Field := ⟨.DBG_CAPVER, 23, 16⟩
/-- DBG.CAPVER.PMAJOR [15:8] RO (R473). -/
def F.DBG_CAPVER_PMAJOR : Field := ⟨.DBG_CAPVER, 15, 8⟩
/-- DBG.CAPVER.CKMAJOR [7:0] RO (R473). -/
def F.DBG_CAPVER_CKMAJOR : Field := ⟨.DBG_CAPVER, 7, 0⟩
/-- DBG.FWVER.VER [31:0] RO (R473). -/
def F.DBG_FWVER_VER : Field := ⟨.DBG_FWVER, 31, 0⟩
/-- CORE.PSARB.WU [11:8] RW (R240). -/
def F.CORE_PSARB_WU : Field := ⟨.CORE_PSARB, 11, 8⟩
/-- CORE.PSARB.WF [7:4] RW (R240). -/
def F.CORE_PSARB_WF : Field := ⟨.CORE_PSARB, 7, 4⟩
/-- CORE.PSARB.WB [3:0] RW (R240). -/
def F.CORE_PSARB_WB : Field := ⟨.CORE_PSARB, 3, 0⟩
/-- CORE.PSQLO.BASELO [31:12] RW (R240). -/
def F.CORE_PSQLO_BASELO : Field := ⟨.CORE_PSQLO, 31, 12⟩
/-- CORE.PSQHI.SIZE [20:16] RW (R240). -/
def F.CORE_PSQHI_SIZE : Field := ⟨.CORE_PSQHI, 20, 16⟩
/-- CORE.PSQHI.BASEHI [15:0] RW (R240). -/
def F.CORE_PSQHI_BASEHI : Field := ⟨.CORE_PSQHI, 15, 0⟩
/-- CORE.PSHEAD.HEAD [11:0] RO (R240). -/
def F.CORE_PSHEAD_HEAD : Field := ⟨.CORE_PSHEAD, 11, 0⟩
/-- CORE.PSTAIL.TAIL [11:0] RW (R240). -/
def F.CORE_PSTAIL_TAIL : Field := ⟨.CORE_PSTAIL, 11, 0⟩
/-- CORE.FAULTCTL.MODE [16:16] RW (R240). -/
def F.CORE_FAULTCTL_MODE : Field := ⟨.CORE_FAULTCTL, 16, 16⟩
/-- CORE.FAULTCTL.PARKTO [15:0] RW (R240). -/
def F.CORE_FAULTCTL_PARKTO : Field := ⟨.CORE_FAULTCTL, 15, 0⟩
/-- CORE.FECTL.ICINV [31:31] WO (R240). -/
def F.CORE_FECTL_ICINV : Field := ⟨.CORE_FECTL, 31, 31⟩
/-- CORE.FECTL.BARWD [15:0] RW (R240). -/
def F.CORE_FECTL_BARWD : Field := ⟨.CORE_FECTL, 15, 0⟩
/-- CORE.GSTAT.STATE [31:29] RO (R240). -/
def F.CORE_GSTAT_STATE : Field := ⟨.CORE_GSTAT, 31, 29⟩
/-- CORE.GSTAT.STREAM [28:27] RO (R240). -/
def F.CORE_GSTAT_STREAM : Field := ⟨.CORE_GSTAT, 28, 27⟩
/-- CORE.GSTAT.PARTIAL [26:26] RO (R240). -/
def F.CORE_GSTAT_PARTIAL : Field := ⟨.CORE_GSTAT, 26, 26⟩
/-- CORE.GSTAT.BARW [25:25] RO (R240). -/
def F.CORE_GSTAT_BARW : Field := ⟨.CORE_GSTAT, 25, 25⟩
/-- CORE.GSTAT.BAR [24:21] RO (R240). -/
def F.CORE_GSTAT_BAR : Field := ⟨.CORE_GSTAT, 24, 21⟩
/-- CORE.GSTAT.CAUSE [15:8] RO (R240). -/
def F.CORE_GSTAT_CAUSE : Field := ⟨.CORE_GSTAT, 15, 8⟩
/-- CORE.GCTL.KILL [3:3] WO (R240). -/
def F.CORE_GCTL_KILL : Field := ⟨.CORE_GCTL, 3, 3⟩
/-- CORE.GCTL.STEP [2:2] WO (R240). -/
def F.CORE_GCTL_STEP : Field := ⟨.CORE_GCTL, 2, 2⟩
/-- CORE.GCTL.REPLAY [1:1] WO (R240). -/
def F.CORE_GCTL_REPLAY : Field := ⟨.CORE_GCTL, 1, 1⟩
/-- CORE.GCTL.HALT [0:0] RW (R240). -/
def F.CORE_GCTL_HALT : Field := ⟨.CORE_GCTL, 0, 0⟩
/-- CORE.DBGSEL.CLASS [31:30] RW (R240). -/
def F.CORE_DBGSEL_CLASS : Field := ⟨.CORE_DBGSEL, 31, 30⟩
/-- CORE.DBGSEL.GROUP [29:24] RW (R240). -/
def F.CORE_DBGSEL_GROUP : Field := ⟨.CORE_DBGSEL, 29, 24⟩
/-- CORE.DBGSEL.LANE [23:18] RW (R240). -/
def F.CORE_DBGSEL_LANE : Field := ⟨.CORE_DBGSEL, 23, 18⟩
/-- CORE.DBGSEL.INDEX [17:10] RW (R240). -/
def F.CORE_DBGSEL_INDEX : Field := ⟨.CORE_DBGSEL, 17, 10⟩
/-- CORE.DBGDATA.DATA [31:0] RW (R240). -/
def F.CORE_DBGDATA_DATA : Field := ⟨.CORE_DBGDATA, 31, 0⟩
/-- CORE.BKPTLO.VALO [31:3] RW (R240). -/
def F.CORE_BKPTLO_VALO : Field := ⟨.CORE_BKPTLO, 31, 3⟩
/-- CORE.BKPTLO.EN [0:0] RW (R240). -/
def F.CORE_BKPTLO_EN : Field := ⟨.CORE_BKPTLO, 0, 0⟩
/-- CORE.BKPTHI.VAHI [15:0] RW (R240). -/
def F.CORE_BKPTHI_VAHI : Field := ⟨.CORE_BKPTHI, 15, 0⟩
/-- CORE.MXCTL.IDLE [15:8] RW (R101). -/
def F.CORE_MXCTL_IDLE : Field := ⟨.CORE_MXCTL, 15, 8⟩
/-- CORE.MXCTL.ZSKIP [0:0] RW (R101). -/
def F.CORE_MXCTL_ZSKIP : Field := ⟨.CORE_MXCTL, 0, 0⟩
/-- CORE.MXSTAT.BUP [3:3] RO (R101). -/
def F.CORE_MXSTAT_BUP : Field := ⟨.CORE_MXSTAT, 3, 3⟩
/-- CORE.MXSTAT.FUP [2:2] RO (R101). -/
def F.CORE_MXSTAT_FUP : Field := ⟨.CORE_MXSTAT, 2, 2⟩
/-- CORE.MXSTAT.BBUSY [1:1] RO (R101). -/
def F.CORE_MXSTAT_BBUSY : Field := ⟨.CORE_MXSTAT, 1, 1⟩
/-- CORE.MXSTAT.FBUSY [0:0] RO (R101). -/
def F.CORE_MXSTAT_FBUSY : Field := ⟨.CORE_MXSTAT, 0, 0⟩
/-- CORE.MXCHK.FRET [31:28] RO (R101). -/
def F.CORE_MXCHK_FRET : Field := ⟨.CORE_MXCHK, 31, 28⟩
/-- CORE.MXCHK.BRET [27:24] RO (R101). -/
def F.CORE_MXCHK_BRET : Field := ⟨.CORE_MXCHK, 27, 24⟩
/-- CORE.MXCHK.ESC [23:16] RO (R101). -/
def F.CORE_MXCHK_ESC : Field := ⟨.CORE_MXCHK, 23, 16⟩
/-- CORE.MXCHK.TRANS [15:0] RW (R101). -/
def F.CORE_MXCHK_TRANS : Field := ⟨.CORE_MXCHK, 15, 0⟩
/-- CORE.MXNMAP.BS3 [29:25] RO (R101). -/
def F.CORE_MXNMAP_BS3 : Field := ⟨.CORE_MXNMAP, 29, 25⟩
/-- CORE.MXNMAP.BS2 [24:20] RO (R101). -/
def F.CORE_MXNMAP_BS2 : Field := ⟨.CORE_MXNMAP, 24, 20⟩
/-- CORE.MXNMAP.BS1 [19:15] RO (R101). -/
def F.CORE_MXNMAP_BS1 : Field := ⟨.CORE_MXNMAP, 19, 15⟩
/-- CORE.MXNMAP.BS0 [14:10] RO (R101). -/
def F.CORE_MXNMAP_BS0 : Field := ⟨.CORE_MXNMAP, 14, 10⟩
/-- CORE.MXNMAP.FS1 [9:5] RO (R101). -/
def F.CORE_MXNMAP_FS1 : Field := ⟨.CORE_MXNMAP, 9, 5⟩
/-- CORE.MXNMAP.FS0 [4:0] RO (R101). -/
def F.CORE_MXNMAP_FS0 : Field := ⟨.CORE_MXNMAP, 4, 0⟩

end Sys2Proof.Machine
end

