-- ==== Sys2Proof/Machine/State.lean ====
section
/-! DEFINITION. The state of the GM96 as plain data: every register, memory, queue, counter, mode and pin the spec gives
the device, the outputs it has emitted, and the queue of waiting commands; the outcomes a command can stop with; and the
state after reset (VIN absent: "Every start therefore begins from VIN", spec/14). -/

namespace Sys2Proof.Machine

/-- Reasons a command stops the machine. -/
inductive Fault where
  /-- Raised by every meaning whose command names a unit the device does not have (core 64, link 96, port 2, …; R6).
  Safe: no such command can reach the part. -/
  | noSuchUnit
deriving DecidableEq, Repr

/-- Reasons a command has no meaning in the model. -/
inductive Refusal where
  /-- Raised by an arm of `exec` that is not modelled yet. Safe: nothing follows from it. -/
  | notModelled (mnemonic : String)
deriving DecidableEq, Repr

/-! ## What the device emits -/

/-- A queued PLDM event (R417): a CPER of record number n with its severity (0 recoverable, 1 fatal, 2 corrected) and the record
as its section body (R334), or a sensor event. -/
inductive Event where
  | cper (n : Nat) (severity : Nat) (body : List Byte)
  | sensor (id : Nat) (state : Nat)
deriving DecidableEq, Repr

/-- The instructions the TAP offers (R461). -/
inductive TapInstr where
  | bypass | idcode | samplePreload | extest | clamp | highz | extestPulse | extestTrain
deriving DecidableEq, Repr

/-- One thing the device sends to its outside: the log of outputs. -/
inductive Out where
  /-- An MSI-X message on a port for a cause bit of Table 12.13 (R400). -/
  | msix (port : Nat) (cause : Nat)
  /-- A flit leaving on a link (R245). -/
  | flit (link : Nat) (bits : BitVec 2048)
  /-- A capability block sent at the base rate (R254). -/
  | capability (link : Nat) (blk : BitVec 128)
  /-- A PCIe configuration completion (R438): Request Retry Status, or success with the data of a read. -/
  | config (port : Nat) (retry : Bool) (data : Option Word)
  /-- The completion of a host read through BAR4 (R176): data, or none with `abort` true for Completer Abort (R186) and
  false for Unsupported Request. -/
  | bar4 (port : Nat) (data : Option (List Byte)) (abort : Bool)
  /-- A position frame on POS_OUT (R410). -/
  | posOut (frame : BitVec 9)
  /-- A response of Ndomir on a medium: command name code, completion code, and its data by the packets that carry it (R415 to
  R429). -/
  | mgmt (medium : Medium) (code : Nat) (cc : Byte) (packets : List (List Byte))
  /-- The answer to an I3C common command code (R414). -/
  | i3c (data : List Byte)
  /-- An I3C in-band interrupt with its mandatory byte (R414). -/
  | ibi (mandatory : Byte)
  /-- A PlatformEventMessage sent to the event receiver on its medium, by the packets that carry it (R415, R417). -/
  | platformEvent (medium : Medium) (packets : List (List Byte))
  /-- The level driven on TDO (R461); none when three-stated. -/
  | tdo (v : Option Bool)
  /-- The lands that the device drives are driven from the boundary register, as an instruction of the TAP says; none: they are
  the device's again (R461). -/
  | lands (drive : Option (TapInstr × List Bool))
  /-- An I3C Hot-Join request (R413). -/
  | hotJoin
  /-- NVMe commands that SEQ gives the queue pair of a checkpoint (R320): bases of the submission and the
  completion queue, namespace, and for a Write the first LBA and the data. -/
  | nvmeWrite (sq cq ns lba : Nat) (data : List Byte)
  | nvmeFlush (sq cq ns : Nat)
  /-- A write of a queue doorbell of that pair: its VA and the new index. -/
  | nvmeBell (va index : Nat)
deriving DecidableEq, Repr

/-! ## HBM (spec/06) -/

/-- The twelve stacks. A byte's key is stack × 2^36 + stack offset; a 32-byte unit's key is its first byte's key / 32; a
4 KiB block's key is its first byte's key / 4096. -/
structure Hbm where
  /-- Contents; an unlisted byte reads 0, which the zero write of R439 leaves. -/
  bytes : Sparse Byte
  /-- Units that are poisoned (R186), in rising order. -/
  poison : List Nat
  /-- Cell errors that no access has met yet, by unit key: corrected or uncorrectable when met (R186). -/
  latent : Sparse ScrubResult
  /-- Corrected errors per block in this patrol pass (R187). -/
  blockCe : Sparse Nat
  /-- The redirection table: retired block key ↦ reserve block index (R187). -/
  redirect : Sparse Nat
  /-- Blocks whose copy into the reserve is in progress, with the reserve block taken (R187). -/
  retiring : List (Nat × Nat)
  /-- Retired blocks whose rows have had hard post-package repair, each by a spare row of its bank (R188). -/
  repaired : List Nat
  /-- A power-up whose training has not ended: the rows due for repair are repaired in it (R188). -/
  repairDue : Bool
  /-- Stacks in self-refresh (R368). -/
  asleep : List Nat
  /-- No agent has accessed HBM since every stack was placed in self-refresh (R368). -/
  idle : Bool
  /-- Translations held by agents: VA page number ↦ leaf entry and its level (R180). -/
  tlb : Sparse (DWord × Nat)
  /-- Invalidations in progress: first page and page count, 0 for everything (R180). -/
  tlbInv : List (Nat × Nat)
deriving DecidableEq, Repr

/-! ## Cores (spec/03, spec/07) -/

/-- A state of a group slot (CORE.GSTAT.STATE). -/
inductive GState where
  | free | running | blocked | parked | halted | yielded
deriving DecidableEq, Repr

/-- Why a group is blocked. -/
inductive Wait where
  | none
  /-- Waits at a bwait for the named barrier (R229). -/
  | barrier (b : Nat)
  /-- Waits in a twait for at most `n` outstanding descriptors (R224). -/
  | twait (n : Nat)
  /-- Waits in a done for every descriptor; the lanes that then exit (R224). -/
  | done (mask : BitVec 64)
  /-- Waits at a tissue for room in the engine queue (R223). -/
  | tissue
  /-- Waits for the data of a load (R221). -/
  | load
  /-- Waits for remote reads of a system-scope release (R195); `adv`: the instruction ends with them, otherwise it is
  issued again. -/
  | fence (adv : Bool)
deriving DecidableEq, Repr

/-- Kind of a reconvergence stack entry (R226). -/
inductive EntryKind where
  | merge | pending
deriving DecidableEq, Repr

/-- One reconvergence stack entry (R226); `bar` is the barrier at which a pending path is blocked (R227). -/
structure StackEntry where
  kind : EntryKind
  pc : BitVec 48
  mask : BitVec 64
  bar : Option Nat
deriving DecidableEq, Repr

/-- A load in flight (R221): destination register, log2 of the size, and each executing lane's global address. -/
structure LoadOp where
  d : Nat
  size : Nat
  lanes : List (Nat × DWord)
  /-- The opcode that waits (R235). -/
  opc : Nat
  /-- Read ids still awaited, for a peer address, each with its lane; answered lanes with their data (R262). -/
  ids : List (Nat × Nat)
  got : List (Nat × DWord)
deriving DecidableEq, Repr

/-- A resident thread group (R209, R226, R237, R240). -/
structure Group where
  state : GState
  stream : Stream
  /-- The block of this core it belongs to, and its index in the block. -/
  block : Nat
  index : Nat
  nregs : Nat
  /-- Registers, key lane × 256 + number; unlisted reads 0 (R209). -/
  regs : Sparse Word
  /-- Predicates p1 to p7 of each lane in bits [7:1]; unlisted reads 0 (R209). -/
  preds : Sparse Byte
  pc : BitVec 48
  active : BitVec 64
  /-- Lanes that have not exited. -/
  live : BitVec 64
  /-- Reconvergence stack, topmost first. -/
  stack : List StackEntry
  /-- Entries at or above the present depth, by place from the oldest, that CORE.DBGDATA has written or cut off (R237). -/
  above : Sparse StackEntry
  ctxStream : BitVec 16
  ctxTensor : Word
  ctxDraw : Word
  ctxCoarse : Word
  wait : Wait
  cause : Byte
  partly : Bool
  /-- Descriptors issued without a written record (R224). -/
  outstanding : Nat
  /-- A descriptor of the group was discarded for its CPLADDR (R96, R224). -/
  badDesc : Bool
  load : Option LoadOp
  /-- Killed; the slot is kept until its descriptors complete (R237). -/
  killed : Bool
  /-- A step was asked for and its instruction has not ended (R238). -/
  stepping : Bool
  /-- Last address written at each peer node since the last system release, key lane × 2^16 + node (R195). -/
  peerLast : Sparse DWord
  /-- The route that the first of them took (R195). -/
  peerRoute : Sparse (BitVec 10 × Bool × BitVec 11)
  /-- Last bus address written through each port since the last system release, key lane × 2 + port (R196). -/
  portLast : Sparse DWord
deriving DecidableEq, Repr

/-- Arrivals at one named barrier in the present generation: (group slot, lanes) (R229). -/
structure Barrier where
  arrived : List (Nat × BitVec 64)
deriving DecidableEq, Repr

/-- A resident block (R208). -/
structure Block where
  id : Nat
  item : Nat
  index : Nat
  lmemBase : Nat
  lmemBytes : Nat
  /-- Group slots of the block, in group order. -/
  slots : List Nat
  barriers : List Barrier
deriving DecidableEq, Repr

/-- A work item taken from a pass stream and not completed (R206 to R210). -/
structure Item where
  id : Nat
  stream : Stream
  mark : Bool
  entry : BitVec 48
  blocks : Nat
  started : Nat
  doneBlocks : Nat
  groups : Nat
  regs8 : Nat
  lmem : Nat
  arg : DWord
  itemId : Word
  cnt : Nat
  faulted : Bool
  frozen : Bool
deriving DecidableEq, Repr

/-- What an accumulator bank remembers of the descriptor that left it undrained (R97). -/
structure BankRec where
  part : Nat
  m : Nat
  n : Nat
  batchM1 : Nat
deriving DecidableEq, Repr

/-- One accumulator bank of an engine (R67): accumulators by key (entry × 2^16 + row) × 2^16 + column, unlisted +0. -/
structure Bank where
  invalid : Bool
  record : Option BankRec
  acc : Sparse Word
deriving DecidableEq, Repr

/-- One output block of a descriptor (R72): the flags its elements raise and the local bytes of D it writes. -/
structure DBlock where
  flags : BitVec 4
  bytes : List (Nat × Byte)
deriving DecidableEq, Repr

/-- A tile descriptor in an engine's queue (R223): its eight words, the issuing group slot, and once it has been taken the
status, flags, recomputed blocks and skipped pairs of its record, and its output blocks, in order, whose D is still to
become visible. -/
structure QDesc where
  words : List DWord
  group : Nat
  taken : Bool
  status : Nat
  flags : BitVec 4
  recomp : Nat
  skipped : Nat
  blocks : List DBlock
deriving DecidableEq, Repr

/-- A recomputation in progress (R90 to R93). -/
structure Recomp where
  mis : NibMismatch
  phys : Nat
  crc : Word
deriving DecidableEq, Repr

/-- One matrix engine of a logical core. -/
structure Engine where
  queue : List QDesc
  bank0 : Bank
  bank1 : Bank
  /-- Entry copies (R67). -/
  copy0 : Bank
  copy1 : Bank
  /-- Columns are enabled (true) or disabled, or on their way (R86). -/
  up : Bool
  /-- Recomputations in progress, oldest first, each in a nib of its own (R90, R329). -/
  recomp : List Recomp
  /-- An engine-level error is being handled (R329). -/
  failing : Bool
deriving DecidableEq, Repr

/-- A sample waiting in a cluster check unit (R127): the disagreement class, its bin, and whether it was non-finite. -/
structure BlotSample where
  cls : Nat
  bin : Nat
  nonfin : Bool
deriving DecidableEq, Repr

/-- One logical core. -/
structure Core where
  groups : Sparse Group
  blocks : List Block
  items : List Item
  nextBlock : Nat
  nextItem : Nat
  /-- Streams stopped on an unreadable entry (R205), F, B, U. -/
  stopped : List Bool
  /-- Which stream last received freed resources (R208). -/
  lastFreed : Stream
  icache : Sparse DWord
  /-- SEQ has requested preemption (R239). -/
  preempt : Bool
  /-- A context move is in progress (R346), to a slot. -/
  moving : Option Nat
  /-- The core is out of service (R340). -/
  out : Bool
  /-- It is out of service by core or cluster handling that has not ended (Table 10.2, R329). -/
  ill : Bool
  engF : Engine
  engB : Engine
  /-- credit[] of the issue arbiter, B, F, U (R211). -/
  credit : List Int
  /-- The group that took the last issue slot with an instruction that another of it may follow by dual issue (R212). -/
  lastIssue : Option Nat
deriving DecidableEq, Repr

/-- What the cellar knows of one physical slot (R92, R337, R338, R344). -/
structure Slot where
  /-- Retired nib column of each B row, and of the F pairs as (row of pair, column). -/
  bRet : List (Option Nat)
  fRet : List (Option (Nat × Nat))
  /-- Retired physical lanes of pipes 0 and 1. -/
  lanes0 : List Nat
  lanes1 : List Nat
  /-- It has passed its structural test since its last use (R340). -/
  tested : Bool
  /-- The step running when it last passed (R325). -/
  passStep : Word
  /-- A test of it is running (R344). -/
  testing : Bool
  /-- A core has left it since it last passed (R325). -/
  worked : Bool
deriving DecidableEq, Repr

/-- A faulty physical lane of a vector pipe that no operation has met yet (R335): slot, pipe, physical lane, the residue
syndrome it gives, and whether the same operation gives it again. -/
structure BadLane where
  slot : Nat
  pipe : Nat
  lane : Nat
  syndrome : Nat
  lasting : Bool
deriving DecidableEq, Repr

/-- A word of core SRAM in error (Table 10.6); `met`: a read has met it, and it failed again after its rewrite. -/
structure BadWord where
  corrected : Bool
  again : Bool
  met : Bool := false
deriving DecidableEq, Repr

/-! ## Memory-side engines and DMA (spec/05) -/

/-- What a command or descriptor of SEQ's own is for: bucket and stage, or bucket alone (R283 to R298). -/
inductive SeqTag where
  | openR (b st : Nat)
  | clearR (b st : Nat)
  | finishR (b st : Nat)
  | closeR (b st : Nat)
  | zero (b : Nat)
  | copyState (b : Nat)
  | copyWw (b : Nat)
  | gather (b : Nat) (node : BitVec 16)
  /-- The shift map of a bucket, written to a member beside its weights (R115, R295). -/
  | shifts (b : Nat) (node : BitVec 16)
deriving DecidableEq, Repr

/-- Who submitted a ring command or descriptor, for its completion. -/
inductive Issuer where
  | ring
  /-- SEQ's own traffic on ring 0, with a tag that SEQ understands. -/
  | seq (tag : SeqTag)
  /-- Descriptor `i` of a queue pair. -/
  | queue (port : Nat) (q : Nat) (i : Nat)
deriving DecidableEq, Repr

/-- An MSE command that has run and whose record is not yet written (R153). -/
structure MseDone where
  op : Nat
  cpl : Nat
  value : Word
  count : Word
  status : Nat
  flags : BitVec 4
  nonfin : Bool
  node : BitVec 16
  offset : Word
  issuer : Issuer
  /-- The entry was discarded without a record (R476). -/
  noRecord : Bool
deriving DecidableEq, Repr

/-- An open accumulation range on one die (R154). -/
structure ARange where
  dst : Nat
  tiles : Nat
  dfmt : Nat
  /-- Tiles homed on the die, in rising order (R144). -/
  home : List Nat
  epoch : Nat
  count : Nat
  /-- Accumulators by element index in the range; unlisted +0. -/
  acc : Sparse Word
  /-- First non-finite event: contributor and byte offset (R117). -/
  nf : Option (BitVec 16 × Nat)
  /-- Flagged gradient tiles (R113, R117). -/
  flagged : List Nat
  /-- An uncorrectable SRAM word poisons the range (Table 10.6). -/
  poisoned : Bool
  /-- Words of its accumulators in error that no read has met yet, by element index / 2 (R323). -/
  bad : Sparse BadWord
deriving DecidableEq, Repr

/-- One MSE die. -/
structure Mse where
  /-- Rings stopped on an unreadable entry (R147), 0 to 3. -/
  stopped : List Bool
  /-- The ring served next (R147). -/
  turn : Nat
  /-- Commands of SEQ that wait for ring 0 (log entry 101): words and issuer. -/
  seqQ : List (List DWord × Issuer)
  /-- Appends of queue pairs that wait for a full ring (R392): ring, words, issuer. -/
  waitAppend : List (Nat × List DWord × Issuer)
  /-- For entries that SEQ wrote into ring 0, or a queue pair into a ring: (ring, index) and who awaits the result (R147,
  R392). -/
  owners : List (Nat × Nat × Issuer)
  /-- Commands that have run and await their records, per ring. -/
  done : List (Nat × MseDone)
  ranges : List ARange
  /-- Rings whose head OPEN waits for space (R154). -/
  openWait : List Nat
  /-- Contributions held for a range that is not open (R156), with their arrival link. -/
  held : List (Nat × Packet)
deriving DecidableEq, Repr

/-- The fields of a DMA descriptor (Table 5.7); an address of 2^64 or above stands for an untranslated bus address of a
port (Table 12.12). -/
structure DmaCmd where
  op : Nat
  fmt : Nat
  transpose : Bool
  homed : Bool
  upd : Bool
  trows : Nat
  tcols : Nat
  src : Nat
  dst : Nat
  length : Nat
  ssp : Nat
  dsp : Nat
  cpl : Nat
  tag : DWord
  /-- An RSVD field is not zero. -/
  rsvd : Bool
deriving DecidableEq, Repr

/-- A transfer in progress (R167). -/
structure DmaBusy where
  cmd : DmaCmd
  issuer : Issuer
  status : Nat
  bursts : Nat
  /-- The data has been written, and its read-back is due. -/
  moved : Bool
  /-- Pieces at peers still to be read, address and bytes: of the source, then of the read-back. -/
  need : List (Nat × Nat)
  /-- Remote reads awaited (R262): id, address, bytes. -/
  asked : List (Nat × Nat × Nat)
  /-- Source bytes that peers have sent, by global address. -/
  got : Sparse Byte
  /-- Pieces written, latest first. -/
  last : List (Nat × Nat)
  /-- Route of the writes to each peer. -/
  routes : List (Nat × BitVec 10 × Bool × BitVec 11)
deriving DecidableEq, Repr

/-- One DMA channel. -/
structure Dma where
  stopped : Bool
  busy : Option DmaBusy
  /-- SEQ's own descriptors on the channel. -/
  seqQ : List (List DWord × Issuer)
  /-- Whose turn it is (R391): 0 its own ring, 1 + 256 p + q pair q of port p. -/
  turn : Nat
deriving DecidableEq, Repr

/-! ## Morov Link (spec/08) -/

/-- A DATA flit that waits for its acknowledgement (R248): SEQ, SOP bits, the bytes of its 15 slots, and the packets whose last
slot lies in it. -/
structure DataFlit where
  seq : BitVec 12
  sop : BitVec 15
  body : List Byte
  ends : List Packet
deriving DecidableEq, Repr

/-- One Morov Link. -/
structure Link where
  /-- Failed attempts in a row; the 10 ms wait is running; retrain rather than first training (R249, R253). -/
  attempts : Nat
  waiting : Bool
  /-- Accepted capability block of this attempt (R254). -/
  cap : Option (BitVec 128)
  /-- The block that the device has sent in this attempt. -/
  offered : BitVec 128
  /-- Next SEQ to send; unacknowledged DATA flits, oldest first (R248). -/
  txSeq : BitVec 12
  retry : List DataFlit
  /-- Last SEQ accepted in order; no flit sent since acknowledges it; a NAK is outstanding (R248). -/
  rxLast : Option (BitVec 12)
  ackDue : Bool
  nakSent : Bool
  /-- The flit replayed last and how often in a row (R249). -/
  replayFrom : Option (BitVec 12)
  replays : Nat
  /-- Credits held toward the partner per VC, in slots (R251). -/
  credits : List Nat
  /-- Slots that have left the receive buffers and whose credit no flit has returned yet, per VC (R251). -/
  owed : List Nat
  /-- Packets in the receive buffers (R250), and the bytes of a packet that continues in the next flit (R247). -/
  rxBuf : List Packet
  partialBytes : List Byte
  /-- Packets waiting for credit on their way out. -/
  outQ : List Packet
  /-- Logical lanes that are degraded (R252). -/
  degraded : List Nat
deriving DecidableEq, Repr

/-- Remote reads, exclusion and chassis map: what the links keep device-wide. -/
structure LinkNet where
  links : List Link
  /-- Exclusion table, oldest first (R273): node and link. -/
  excl : List (BitVec 16 × Nat)
  /-- Chassis map (R265): key position × 128 + link ↦ (STATE, version 2.0, GIDX). -/
  map : Sparse (Nat × Bool × Nat)
  /-- Refusal bits per source node: frozen and other (R261). -/
  refusal : Sparse (Bool × Bool)
  /-- Outstanding remote reads (R262): id ↦ node and who waits. -/
  reads : List (Nat × BitVec 16 × Nat)
  /-- The next read id to try (R262). -/
  nextId : Nat
  /-- Own packets lost at this device, with the failed link: their notices are due (R263). -/
  selfLost : List (Packet × Nat)
  /-- Positions of chassis peers that have yet to learn that the device has left the safe state (R265). -/
  leftSafe : List Nat
deriving DecidableEq, Repr

/-! ## SEQ (spec/09) -/

/-- A member table entry (Table 9.1). -/
structure Member where
  node : BitVec 16
  replica : BitVec 16
  shard : BitVec 16
  hm : Bool
deriving DecidableEq, Repr

/-- A bucket table entry (Table 9.2). -/
structure BucketEnt where
  size : Nat
  wire : Nat
  frozen : Bool
  grad : Nat
  shard : BitVec 16
  state : Nat
  nuitem : Nat
  uitems : Nat
  state64 : Nat
  rslice : Nat
  s1 : Nat
  ww : Nat
  wwsp : Nat
  maps : Nat
deriving DecidableEq, Repr

/-- A pass list entry (R311). -/
structure PassEnt where
  stream : Nat
  core : Nat
  item : Nat
  gate : Option Nat
deriving DecidableEq, Repr

/-- A tensor table entry (R312). -/
structure TensorEnt where
  id : Word
  pickle : Nat
  spill : Nat
  area : DWord
  srcA : DWord
  srcB : DWord
deriving DecidableEq, Repr

/-- A loaded step program (R309 to R312). -/
structure Prog where
  nmb : Nat
  depth : Nat
  recomp : Bool
  nsteps : Nat
  members : List Member
  buckets : List BucketEnt
  tensors : List TensorEnt
  nsched : Nat
  sched : Nat
  pass : List PassEnt
  status : Nat
  drlog : Nat
  dring : Nat
  slotb : Nat
  argStride : Nat
  inbuf : Nat
  nstage : Nat
  stage : Nat
  stageb : Nat
  ckEvery : Nat
  ckTgt : Nat
  ckAddr : Nat
  grow : Nat
  lsmax : Nat
  lsmin : Nat
  lsinit : Nat
  seed : DWord
  loss : Nat
  bstat : Nat
  hmring : Nat
  hcrc : Word
deriving DecidableEq, Repr

/-- STATE of a bucket status record (Table 9.3). -/
inductive BState where
  | idle | filling | refilling | complete | sealed | committed | frozen | skipped | halted
deriving DecidableEq, Repr

/-- Where an owner's range of a bucket is in its life (R285, R286, R298, R305). -/
inductive RPhase where
  | closed | opening | open_ | clearing | finishing | finished
  /-- Waits for DRAINED from HM contributors; then its CLOSE; then the 20 ms of R305. -/
  | draining | closing | waiting
deriving DecidableEq, Repr

/-- One record of a command that SEQ gave all six dies: die, status, NONFIN, NODE, OFFSET, COUNT (Table 5.4). -/
structure DieRec where
  die : Nat
  status : Nat
  nonfin : Bool
  node : BitVec 16
  offset : Nat
  count : Nat
deriving DecidableEq, Repr

/-- One of the owner's two ranges of a bucket (R279, R285, R286). -/
structure RangeSt where
  phase : RPhase
  epoch : Nat
  /-- The seed has been added and counts as one contribution (R286). -/
  seeded : Bool
  /-- Dies that hold part of the range, and the increments each has reported. -/
  dies : List Nat
  counts : Sparse Nat
  /-- Records of the command in hand so far. -/
  recs : List DieRec
  /-- Contributors whose CLEAN has arrived (R287). -/
  clean : List (BitVec 16)
  /-- A retraction waits for the command in hand, with the node that retracted. -/
  again : Option (BitVec 16)
  /-- The owner's own part is still to be added as a self-contribution (R279). -/
  selfDue : Bool
  /-- A RESEND is due once the range is open (R298). -/
  resendDue : Bool
  /-- The node that RESEND names. -/
  retractor : BitVec 16
  /-- HM contributors that have yet to answer STOP with DRAINED (R305). -/
  draining : List (BitVec 16)
  /-- A NOTOPEN discard inside the range was reported before it opened (R285). -/
  notOpen : Bool
  /-- The first non-finite event that its FINISH has reported (R117, R286). -/
  nf : Option DieRec
deriving DecidableEq, Repr

/-- A part this device sends: stage, owner, whether it has been sent and its CLEAN too, the epoch last asked for, and a
RESEND that waits for a replay (R299). -/
structure Part where
  st : Nat
  dst : BitVec 16
  clean : Bool
  epoch : Nat
  due : Bool
deriving DecidableEq, Repr

/-- How far a sealed bucket's update has come (R293, R295). -/
inductive UpdPhase where
  | none | queued | updating | copyState | copyWw | done
deriving DecidableEq, Repr

/-- A bucket of the device's shard in the running step. -/
structure Bucket where
  st : BState
  late : Bool
  frozenUpd : Bool
  nonfin : Bool
  nfNode : BitVec 16
  nfOff : Nat
  retracts : Nat
  flagged : Nat
  r1 : RangeSt
  r2 : RangeSt
  parts : List Part
  phase : UpdPhase
  staging : Option Nat
  fails : Nat
  recs : List DieRec
  /-- Owners for which a LOST notice has been answered (R302). -/
  lost : List (BitVec 16)
deriving DecidableEq, Repr

/-- The verdict payload (Table 9.4). -/
structure Verdict where
  nonfin : Bool
  fault : Bool
  lsexp : Nat
  round : Nat
  bucket : Nat
  owner : BitVec 16
  members : Nat
deriving DecidableEq, Repr

/-- The writes of the all-gather to one member under way (R295): bucket, step, member, failures so far, writes that have yet to
complete, and whether the weights go in B16 (R121). -/
structure GatherWrite where
  bucket : Nat
  step : Word
  node : BitVec 16
  fails : Nat
  left : Nat
  wide : Bool
deriving DecidableEq, Repr

/-- What a completion counter counts (R308). -/
inductive CntUse where
  | pass (mb : Nat) (stream : Stream)
  /-- The forward items of a microbatch, run again in recompute mode (R124). -/
  | recompute (mb : Nat)
  | update (bucket : Nat)
deriving DecidableEq, Repr

/-- One completion counter (R308): items still running on each die and the OR of their statuses; a die leaves the list
when its increment has reached SEQ. -/
structure Counter where
  id : Nat
  use : CntUse
  left : List (Nat × Nat × Nat)
  /-- OR of the statuses that increments have carried. -/
  status : Nat
  /-- Items still running on each logical core (R25; log entry 92). -/
  cores : List (Nat × Nat)
deriving DecidableEq, Repr

/-- Why a member barrier runs (R306, R313). -/
inductive BarUse where
  | start | resume | retry
deriving DecidableEq, Repr

/-- A work item to launch: index in its list, stream, core, VA, gates, counter, argument (R293, R311). -/
structure ToLaunch where
  stream : Nat
  core : Nat
  item : Nat
  gates : List Nat
  cnt : Nat
  /-- Replaces ARG (an update list) or is added to it. -/
  arg : Nat
  replace : Bool
deriving DecidableEq, Repr

/-- SEQ's own state beside its registers. -/
structure Seq where
  prog : Option Prog
  /-- A BAR0 command that waits for READY: code and argument (R314, R443). -/
  waitCmd : Option (Nat × DWord)
  barrier : Option BarUse
  barArrived : List (BitVec 16)
  barSent : Bool
  /-- Buckets of the device's own shard, by id. -/
  buckets : Sparse Bucket
  /-- The step in hand runs in recompute mode (R24). -/
  recompute : Bool
  /-- No step has run since START or RESUME (R24, R29). -/
  firstStep : Bool
  stepsRun : Nat
  /-- Microbatches of the passes in hand (R23). -/
  fStarted : Nat
  fDone : Nat
  /-- Microbatches whose forward items run, or have run, once more for their backward pass (R24, R124). -/
  rStarted : Nat
  rDone : Nat
  bStarted : Nat
  bDone : List Nat
  /-- The passes in hand belong to the step after the one that is being committed (R29). -/
  ahead : Bool
  /-- Microbatches whose input lies in its slot. -/
  slotsIn : Nat
  /-- Which half of the input area the passes in hand use (Table 9.8, INBUF), and the inputs that already lie in the
  other half for the next step. -/
  half : Bool
  slotsAhead : Nat
  /-- Every B item of the step has completed: every bucket is full (R25, R282). -/
  full : Bool
  /-- An item of the passes has completed with a status other than OK or EMPTY: no part is clean (R284). -/
  notOk : Bool
  /-- Records still awaited of the FILLs that zero GRAD (R283). -/
  zeroLeft : Nat
  drHead : Nat
  seqNum : Nat
  dataWait : Bool
  pauseReq : Bool
  ckptReq : Bool
  ckptBusy : Bool
  /-- The checkpoint under way could not be begun; the Write of its header awaits its completion (R318, R320). -/
  ckptBad : Bool
  ckptHead : Bool
  counters : List Counter
  nextCnt : Nat
  toLaunch : List ToLaunch
  /-- A fault implicates data this device sent in the step (R288, R292). -/
  faultFlag : Bool
  /-- A fault that implicates the passes in hand and is still to be acted on, with its reason (R284, R297, R325). -/
  owedFault : Option Nat
  entered : Bool
  own : Option Verdict
  /-- The step's verdict has been applied (R291). -/
  applied : Bool
  round : Nat
  /-- UPs by step, round and sender (R289). -/
  ups : List (Word × Nat × BitVec 16 × Verdict)
  upSent : Option Verdict
  released : Bool
  replays : Nat
  replaying : Bool
  /-- Replicas whose replay the step leader announces every 500 ms, with the verdict round in which it began (R300). -/
  announce : List (BitVec 16 × Nat)
  /-- A HALTSTEP has been sent down the tree for the step (R303). -/
  haltSent : Option Word
  /-- The outcome of the step, for its boundary: skipped; tiles flagged. -/
  skipped : Bool
  mismatch : Bool
  maxExp : Nat
  flaggedNow : Nat
  /-- The step's result told of a non-finite bucket: a gradient tile was flagged in it under the fall-back (R108, R112). -/
  nonfinSeal : Bool
  events : Nat
  retracts : Nat
  cnode : BitVec 16
  lateStep : Word
  ckStep : Word
  flags : BitVec 16
  crush : List Word
  losses : Sparse (Word × Word)
  /-- Numeric control (spec/04). -/
  floorSkips : Nat
  skipWindow : List Bool
  fbAuto : Bool
  fbHold : Nat
  fbSteps : Nat
  pendLscale : Option Word
  pendLsgrow : Option Word
  pendFbctl : Option Word
  /-- Control packets that have been sent once more (R302). -/
  lostCtl : List (BitVec 64 × BitVec 64)
  /-- Verdicts sent in a SEAL, by destination, argument and step, for a LOST notice (R302). -/
  sentSeals : List (BitVec 16 × Nat × Word × Verdict)
  /-- STOPs of owners that are still to be answered with DRAINED (R305): owner, bucket, step. -/
  stops : List (BitVec 16 × Nat × Word)
  /-- Entries that SEQ has put into and taken from the queues of the NVMe queue pair of its checkpoints (R320). -/
  nvmeTail : Nat
  nvmeHead : Nat
  /-- CLEANs that came for a later step: step, bucket, sender. -/
  early : List (Word × Nat × BitVec 16)
  /-- RESENDs that came for a step still to begin: step, bucket, owner, epoch (R299). -/
  asked : List (Word × Nat × BitVec 16 × Nat)
  /-- GATHERED received: bucket, step [27:0], sender; the last step a bucket was committed in; the last step it counted as
  gathered for; the all-gather's writes under way (R295). -/
  gatherIn : List (Nat × Nat × BitVec 16)
  commitAt : Sparse Word
  gateAt : Sparse Word
  gathers : List GatherWrite
  /-- The first step after RESUME waits for the all-gather of the working weights (R318). -/
  resumeHold : Bool
deriving DecidableEq, Repr

/-! ## Safety (spec/10) -/

/-- What SEQ and Ndomir keep for containment and in-field tests. -/
structure Saf where
  slots : List Slot
  /-- Source units ↦ the time, in ns, of the CORRECTED or SPARED record they wrote last (R332). -/
  limited : List (Nat × Nat)
  /-- Signature ↦ occurrences since reset (R333). -/
  repeats : List (List Nat × Nat)
  /-- An OVERFLOW record has been written (R332). -/
  overflow : Bool
  /-- Logical cores that wait for a test to end (R340). -/
  waitingCores : List Nat
  /-- Clusters under cluster-level handling (Table 10.2), with the results so far: slot ↦ passed. -/
  clusterTests : List (Nat × List (Nat × Bool))
  /-- Clusters ↦ the slot that left service for good last, and the source of its record (R341). -/
  lastRetired : Sparse (Nat × Nat)
  /-- An active slot that is to be tested in place, and whether the step boundary it waits for has come (R347). -/
  testHold : Option (Nat × Bool)
  /-- Hardware faults that no check has met yet (log entry 108): lanes of vector pipes, words of local memory and tile buffers by
  slot × 2^21 + local address / 8, and dies, by their DIE code, whose logic is faulty. -/
  badLanes : List BadLane
  sram : Sparse BadWord
  logicBad : List Nat
  /-- Slots due an unplanned test (Table 10.6). -/
  unplanned : List Nat
deriving DecidableEq, Repr

/-! ## Power, pins and start-up (spec/11, spec/14, spec/15) -/

/-- Supply of the part. -/
inductive Supply where
  | absent
  /-- VIN above 52 V, converters in soft start. -/
  | ramping
  | on
  /-- All converters turned off by R327; only removal of VIN leaves this. -/
  | turnedOff
deriving DecidableEq, Repr

/-- Source of a reset of DEVRST_N scope (DBG.RSTCAUSE). -/
inductive RstSrc where
  | powerUp | pin | register | wipe | refurbish
deriving DecidableEq, Repr

/-- The governor's target T (R360): `num` / 200 ^ `exp` M hs/s, exactly. -/
structure Rate where
  num : Nat
  exp : Nat
deriving DecidableEq, Repr

/-- Pins, supply, governor and start-up progress. -/
structure Pwr where
  supply : Supply
  /-- Steps of Table 14.1 that are complete: 1 to 10 (step 4 and 5 are per port). -/
  step : Nat
  throttleN : Bool
  devrstN : Bool
  perstN : List Bool
  posInLow : Bool
  refclk : List Bool
  lrefclk : Bool
  /-- The I3C bus of the device has carried traffic while Ndomir did not run (R413). -/
  busTraffic : Bool
  /-- The present low level of THROTTLE_N has qualified; the 1 ms hold runs (R371, R373). -/
  thrQualified : Bool
  thrHold : Bool
  /-- The host die's timer at the last fall of THROTTLE_N, and its timestamp (R374). -/
  thrTimer : Nat
  thrStart : Nat
  /-- A DEVRST_N-scope reset holds, and its source; the pin's low level has qualified (R445). -/
  hold : Option RstSrc
  /-- What the hold waits for: the qualified pin; the 1 ms of a reset that software, a wipe or a refurbishment asked for
  (R445). -/
  pinHold : Bool
  softHold : Bool
  /-- Governor settings in force (R364) and target T. -/
  govctl : Word
  cap : Word
  ratetgt : Word
  t : Rate
  /-- Present thermal ceiling and core voltage of each governed die, in mV (R361, R362). -/
  ceil : List Nat
  volt : List Nat
  /-- The thermal ceiling of each governed die is on its way down (Table 11.2). -/
  falling : List Bool
  /-- Every governed die was at 0.55 V when the governor's last period began (R363). -/
  wasLow : Bool
  /-- Timestamp offset in force (R355). -/
  tsoff : DWord
  /-- Phases shed per power-stage die (R366). -/
  shed : List Nat
  /-- Host-die timer in ns; the timers of d0 to d3, m0 to m5 and l0 to l3, and what the host die's read when they were loaded
  (R353). A reading takes them modulo 2^64. -/
  timer : Nat
  dieTimers : List Nat
  loadedAt : Nat
  /-- A SEQ, HBM or PHY image was activated since the last start (R423). -/
  imagePending : Bool
deriving DecidableEq, Repr

/-- Fuses (R1, R358, R422, R424, R472). -/
structure Fuses where
  rpRate : BitVec 12
  binS2 : Bool
  serial : DWord
  svn : Nat
  keyHash : List (BitVec 256)
  revoked : BitVec 4
  /-- No fuse, but as lasting: the spare lanes that the board leaves unwired, by pair of links (R463, log entry 4). -/
  unwired : List Nat
deriving DecidableEq, Repr

/-! ## Host interface (spec/12) -/

/-- A descriptor a pair has fetched and not completed (R387, R388). -/
structure Fetched where
  /-- How many descriptors the pair had fetched before it. -/
  id : Nat
  idx : Nat
  words : List DWord
  started : Bool
  finished : Bool
  status : Nat
  flags : BitVec 4
  val : Word
  cnt : Word
  /-- Dies an MSE descriptor still awaits, and results so far (R392). -/
  dies : List Nat
  results : List (Nat × Nat)
  /-- The port has been in D3hot since it was fetched: its entry is dropped (R378). -/
  dropped : Bool
deriving DecidableEq, Repr

/-- One queue pair. -/
structure Pair where
  abi : Nat
  sqHead : Nat
  sqTail : Nat
  cqHead : Nat
  cqTail : Nat
  fetched : List Fetched
  /-- Descriptors fetched so far. -/
  nextId : Nat
  gen : Word
  doneCount : Word
  /-- Last values accepted by the doorbells (R386). -/
  sqDb : Word
  cqDb : Word
  /-- A status block is due (R398). -/
  due : Bool
  /-- Index and bus address of the last completion entry written (R397). -/
  lastEntry : Nat
deriving DecidableEq, Repr

/-- One PCIe port. -/
structure Port where
  inDetect : Bool
  configured : Bool
  d3hot : Bool
  memSpace : Bool
  bar4Log : Nat
  msixEnable : Bool
  msixMask : Bool
  /-- The rest of the port's configuration space that can be written (R377, R378): Command, cache line size, the base addresses,
  Device Control 1 and 2, and the double words of Advanced Error Reporting. -/
  command : Word
  cacheLine : Byte
  bars : List Word
  devCtl : Word
  devCtl2 : Word
  aer : List Word
  pairs : List Pair
  /-- The pair served next (R387). -/
  turn : Nat
deriving DecidableEq, Repr

/-! ## Ndomir (spec/13) -/

/-- One bank of a two-bank store (R420). -/
structure NorBank (α : Type) where
  valid : Bool
  seqno : Word
  val : α
deriving DecidableEq, Repr

/-- A two-bank store (R420). -/
structure Store (α : Type) where
  a : NorBank α
  b : NorBank α
deriving DecidableEq, Repr

/-- The configuration store (Table 13.5). -/
structure ConfigStore where
  cmap : List Word
  slots : List Slot
  shed : List Nat
  redirect : Sparse Nat
  hbmret : List Nat
  spareLanes : List Nat
  owner : Option Key
  tenants : List Key
  pendingWipe : Option Nat
  tenantRegion : Sparse Byte
  /-- Logical cores that the grade of record provides (R474). -/
  lcores : Nat
deriving DecidableEq, Repr

/-- One entry of the firmware history (Table 13.7). -/
structure FwHist where
  powered : Word
  component : Nat
  svn : Nat
  result : Nat
  version : DWord
deriving DecidableEq, Repr

/-- The wear ledger record (Table 13.7); SEQNO and CRC belong to the bank. -/
structure Ledger where
  lost : Bool
  powered : Nat
  hot : Nat
  cycles : Nat
  surges : Nat
  energy : Nat
  powerups : Nat
  safe : Nat
  nibs : Nat
  lanes : Nat
  slots : Nat
  linkLanes : Nat
  phases : Nat
  grade : Nat
  late : Nat
  hbmue : Nat
  hbmret : List Nat
  hbmce : List Nat
  ownerHash : BitVec 256
  transfers : Nat
  wipes : Nat
  refurbs : Nat
  margin : List (Byte × Byte)
  fwhist : List FwHist
deriving DecidableEq, Repr

/-- An entry of Ndomir's log (R327, R374). -/
inductive LogEntry where
  | throttleStart (time : Nat)
  | throttleEnd (duration : Nat)
  | throttleCounts (v : Word)
  | overTemperature (die : Nat) (celsius : Nat)
  | errorRecord (n : Nat)
deriving DecidableEq, Repr

/-- State of the PLDM firmware update flow (R423). -/
inductive FwuState where
  | idle | learn | ready | download | verify | apply | activate
deriving DecidableEq, Repr

/-- The wipe record (R433). -/
structure WipeRec where
  wipes : Nat
  powered : Nat
  cause : Nat
  result : Nat
  failed : Nat
  ownerHash : BitVec 256
deriving DecidableEq, Repr

/-- Ndomir and what it keeps. -/
structure Ndomir where
  /-- Recovery (R422). -/
  recovery : Bool
  /-- Ndomir has taken its first sensor sample (R376). -/
  sampled : Bool
  /-- Position filter: last good word and its run; latched position; conflict run (R411, R412). -/
  lastWord : BitVec 6
  run : Nat
  position : Option (BitVec 6)
  confRun : Nat
  confWord : BitVec 6
  /-- I3C (R413, R414). -/
  da : Option (BitVec 7)
  events : Byte
  mwl : BitVec 16
  mrl : BitVec 16
  pendingIbi : Bool
  /-- MCTP endpoint id per medium: I3C, PCIe 0, PCIe 1 (R415); PLDM terminus (R416). -/
  eid : List Byte
  tid : Byte
  receiver : Option Byte
  /-- The medium of the event receiver: the one that SetEventReceiver came over. -/
  recvMedium : Medium
  queue : List Event
  /-- A sent message is unacknowledged: how often it has been sent again (R417). -/
  unacked : Option Nat
  /-- Firmware banks per component 1 to 3 (R420 to R423). -/
  fw : List (Store (Option FwImage))
  /-- The image of each component that runs: the one that its last start verified (R419, R423). -/
  running : List (Option FwImage)
  fwu : FwuState
  fwuAgent : Medium
  fwuComps : List Nat
  fwuComp : Nat
  fwuVerified : List Nat
  burnPending : Bool
  /-- The identity region holds what was written at test (Table 13.5). -/
  identity : Bool
  config : Store ConfigStore
  log : Store (List LogEntry)
  logBuf : List LogEntry
  ledger : Store Ledger
  /-- The ledger as counted, not yet written. -/
  live : Ledger
  owner : Option Key
  tenants : List Key
  tenantRegion : Sparse Byte
  nonce : Option (BitVec 128)
  wiping : Option Nat
  /-- The wipe was interrupted by a reset and completes between steps 7 and 8 (R432), or after a power loss (R431). -/
  wipeResume : Bool
  refurbishing : Bool
  wipeRec : WipeRec
  /-- Logical cores that the grade of record provides (R474). -/
  lcores : Nat
  /-- Thermal cycle counting: the lowest and highest value of the hottest junction since the last turn, and whether it has
  risen; 1000 before the first sample (R426). -/
  tLow : Nat
  tHigh : Nat
  tRising : Bool
  /-- Of the present minute: periods of 0.1 ms, and whether a junction has been above 95 °C; energy below 1 Wh, in units of 0.1 mJ
  (R425, R426). -/
  periods : Nat
  minuteHot : Bool
  joules : Nat
  /-- Last samples: junctions, stacks, input, stage currents (Table 13.1). -/
  stackTemp : List Nat
  stageCur : List Nat
  throttleState : Nat
  devState : Nat
  spareLanes : List Nat
deriving DecidableEq, Repr

/-! ## Test access port (spec/15 R461) -/

/-- The sixteen controller states of IEEE 1149.1. -/
inductive TapState where
  | testLogicReset | runTestIdle
  | selectDr | captureDr | shiftDr | exit1Dr | pauseDr | exit2Dr | updateDr
  | selectIr | captureIr | shiftIr | exit1Ir | pauseIr | exit2Ir | updateIr
deriving DecidableEq, Repr

/-- The test access port. -/
structure Tap where
  st : TapState
  ir : TapInstr
  /-- Bits shifted into the instruction register, last first. -/
  irShift : List Bool
  /-- The selected data register's shift stage: BYPASS one bit, IDCODE 32 bits, the boundary its cells. -/
  drShift : List Bool
  /-- What the boundary register drives: the last content that Update-DR took. -/
  boundary : List Bool
deriving DecidableEq, Repr

/-! ## The whole device -/

/-- The state of the block. -/
structure State where
  /-- BAR0 registers by byte offset; an unlisted register holds the reset value of its field map (spec/16 R468). -/
  regs : Sparse Word
  fuses : Fuses
  pwr : Pwr
  tap : Tap
  hbm : Hbm
  /-- Local memory and tile buffers, key physical slot × 2^24 + local address; unlisted reads 0 (R440). -/
  lmem : Sparse Byte
  /-- Host memory behind the ports, key port × 2^64 + bus address; an unlisted byte is a free value (the hosts' own). -/
  host : Sparse Byte
  cores : List Core
  /-- Pending blotter samples of the sixteen check units (R127). -/
  blot : List (List BlotSample)
  mses : List Mse
  dmas : List Dma
  net : LinkNet
  seq : Seq
  saf : Saf
  ports : List Port
  nd : Ndomir
  out : List Out
  /-- The model's own counter of free values drawn; no value of the spec rests on it. -/
  free : Nat
  /-- Commands waiting, first in first out. -/
  pending : List Instr
deriving DecidableEq, Repr

/-! ## Reset values -/

def Bank.reset : Bank := { invalid := false, record := none, acc := [] }

def Engine.reset : Engine :=
  { queue := [], bank0 := Bank.reset, bank1 := Bank.reset, copy0 := Bank.reset, copy1 := Bank.reset, up := false,
    recomp := [], failing := false }

def Core.reset : Core :=
  { groups := [], blocks := [], items := [], nextBlock := 0, nextItem := 0, stopped := [false, false, false],
    lastFreed := .u, icache := [], preempt := false, moving := none, out := false, ill := false,
    engF := Engine.reset, engB := Engine.reset, credit := [0, 0, 0], lastIssue := none }

def Slot.reset : Slot :=
  { bRet := [none, none, none, none], fRet := [none, none], lanes0 := [], lanes1 := [], tested := false,
    passStep := 0, testing := false, worked := false }

def Mse.reset : Mse :=
  { stopped := [false, false, false, false], turn := 0, seqQ := [], waitAppend := [], owners := [], done := [], ranges := [],
    openWait := [], held := [] }

def Dma.reset : Dma := { stopped := false, busy := none, seqQ := [], turn := 0 }

def Link.reset : Link :=
  { attempts := 0, waiting := false, cap := none, offered := 0, txSeq := 0, retry := [], rxLast := none, ackDue := false,
    nakSent := false, replayFrom := none, replays := 0, credits := [], owed := List.replicate 13 0, rxBuf := [], partialBytes := [], outQ := [], degraded := [] }

def LinkNet.reset : LinkNet :=
  { links := List.replicate 96 Link.reset, excl := [], map := [], refusal := [], reads := [], nextId := 0,
    selfLost := [], leftSafe := [] }

def Seq.reset : Seq :=
  { prog := none, waitCmd := none, barrier := none, barArrived := [], barSent := false, buckets := [],
    recompute := false, firstStep := false, stepsRun := 0, fStarted := 0, fDone := 0, rStarted := 0, rDone := 0, bStarted := 0, bDone := [],
    ahead := false, slotsIn := 0, half := false, slotsAhead := 0, full := false, notOk := false, zeroLeft := 0, drHead := 0, seqNum := 0, dataWait := false, pauseReq := false,
    ckptReq := false, ckptBusy := false, ckptBad := false, ckptHead := false, counters := [], nextCnt := 0, toLaunch := [], faultFlag := false, owedFault := none,
    entered := false, own := none, applied := false, round := 0, ups := [], upSent := none, released := false,
    replays := 0, replaying := false, announce := [], haltSent := none, skipped := false,
    mismatch := false, maxExp := 0, flaggedNow := 0, nonfinSeal := false,
    events := 0, retracts := 0, cnode := 0, lateStep := 0, ckStep := 0, flags := 0, crush := List.replicate 8 0,
    losses := [], floorSkips := 0, skipWindow := [], fbAuto := false, fbHold := 0, fbSteps := 0, pendLscale := none,
    pendLsgrow := none, pendFbctl := none, lostCtl := [], sentSeals := [], stops := [], nvmeTail := 0, nvmeHead := 0, early := [], asked := [],
    gatherIn := [], commitAt := [], gateAt := [], gathers := [], resumeHold := false }

def Saf.reset : Saf :=
  { slots := List.replicate 80 Slot.reset, limited := [], repeats := [], overflow := false, waitingCores := [],
    clusterTests := [], lastRetired := [], testHold := none, badLanes := [], sram := [], logicBad := [], unplanned := [] }

def Pwr.reset : Pwr :=
  { supply := .absent, step := 0, throttleN := true, devrstN := true, perstN := [false, false], posInLow := false,
    refclk := [true, true], lrefclk := true, busTraffic := false, thrQualified := false, thrHold := false, hold := none,
    pinHold := false, softHold := false, govctl := 0x64640000, cap := 0x0ED8, ratetgt := 0x5DC, t := ⟨1500, 0⟩, ceil := List.replicate 14 850,
    volt := List.replicate 14 0, falling := List.replicate 14 false, thrTimer := 0, thrStart := 0, tsoff := 0,
    shed := List.replicate 16 0, wasLow := false, timer := 0, dieTimers := List.replicate 14 0, loadedAt := 0, imagePending := false }

/-- The fuses of the modelled part (DESIGN CHOICE, log entry 4): speed bin S2 at 1.50 G hs/s. -/
def Fuses.reset : Fuses :=
  { rpRate := 0x5DC, binS2 := true, serial := 1, svn := 0, keyHash := [0, 0, 0, 0], revoked := 0, unwired := [] }

def Pair.reset : Pair :=
  { abi := 3, sqHead := 0, sqTail := 0, cqHead := 0, cqTail := 0, fetched := [], nextId := 0, gen := 0, doneCount := 0, sqDb := 0,
    cqDb := 0, due := false, lastEntry := 0 }

def Port.reset : Port :=
  { inDetect := false, configured := false, d3hot := false, memSpace := false, bar4Log := 36, msixEnable := false,
    msixMask := false, command := 0, cacheLine := 0, bars := List.replicate 6 0, devCtl := 0x2810, devCtl2 := 0,
    aer := [0, 0, 0, 0x00462030, 0, 0x2000, 0, 0, 0, 0, 0], pairs := List.replicate 256 Pair.reset, turn := 0 }

/-- SAF.CMAP of an unused part: core i of a cluster on slot i, slot 4 the spare (Table 10.12). -/
def cmapReset : Word := 0xF0688800

def ConfigStore.reset : ConfigStore :=
  { cmap := List.replicate 16 cmapReset, slots := List.replicate 80 Slot.reset, shed := List.replicate 16 0,
    redirect := [], hbmret := List.replicate 12 0, spareLanes := [], owner := none, tenants := [], pendingWipe := none,
    tenantRegion := [], lcores := 0 }

def Ledger.reset : Ledger :=
  { lost := false, powered := 0, hot := 0, cycles := 0, surges := 0, energy := 0, powerups := 0, safe := 0, nibs := 0,
    lanes := 0, slots := 0, linkLanes := 0, phases := 0, grade := 0xFF, late := 0, hbmue := 0,
    hbmret := List.replicate 12 0, hbmce := List.replicate 12 0, ownerHash := 0, transfers := 0, wipes := 0, refurbs := 0,
    margin := List.replicate 96 (0, 0), fwhist := [] }

/-- The firmware image a shipped part carries (DESIGN CHOICE, log entry 4): acceptable, version 0, SVN 0. -/
def FwImage.shipped (c : Nat) : FwImage :=
  { wellFormed := true, component := c, revoke := 0, version := 0, svn := 0, keySlot := 0, pubkeyHash := 0, digest := 0,
    digestOk := true, sigOk := true }

def Store.fresh {α : Type} (v w : α) : Store α :=
  { a := { valid := true, seqno := 1, val := v }, b := { valid := false, seqno := 0, val := w } }

def Ndomir.reset : Ndomir :=
  { recovery := false, sampled := false, lastWord := 0, run := 0, position := none, confRun := 0, confWord := 0, da := none, events := 1,
    mwl := 256, mrl := 256, pendingIbi := false, eid := [0, 0, 0], tid := 0, receiver := none, recvMedium := .i3c,
    queue := [], unacked := none,
    fw := [Store.fresh (some (FwImage.shipped 1)) none, Store.fresh (some (FwImage.shipped 2)) none,
      Store.fresh (some (FwImage.shipped 3)) none],
    running := [none, none, none], fwu := .idle, fwuAgent := .i3c, fwuComps := [], fwuComp := 0, fwuVerified := [],
    burnPending := false, identity := true, config := Store.fresh ConfigStore.reset ConfigStore.reset, log := Store.fresh [] [],
    logBuf := [], ledger := Store.fresh Ledger.reset Ledger.reset, live := Ledger.reset, owner := none, tenants := [],
    tenantRegion := [], nonce := none, wiping := none, wipeResume := false, refurbishing := false,
    wipeRec := { wipes := 0, powered := 0, cause := 0, result := 0, failed := 0, ownerHash := 0 },
    lcores := 0, tLow := 1000, tHigh := 0, tRising := false, periods := 0, minuteHot := false, joules := 0, stackTemp := List.replicate 12 0, stageCur := List.replicate 16 0,
    throttleState := 0, devState := 0, spareLanes := [] }

def Tap.reset : Tap := { st := .testLogicReset, ir := .idcode, irShift := [], drShift := [], boundary := [] }

def Hbm.reset : Hbm :=
  { bytes := [], poison := [], latent := [], blockCe := [], redirect := [], retiring := [], repaired := [], repairDue := false, asleep := [], idle := false,
    tlb := [], tlbInv := [] }

/-- The device with VIN absent: nothing runs, and every register holds the reset value of its field map (R448). -/
def State.reset : State :=
  { regs := [], fuses := Fuses.reset, pwr := Pwr.reset, tap := Tap.reset, hbm := Hbm.reset, lmem := [], host := [],
    cores := List.replicate 64 Core.reset, blot := List.replicate 16 [], mses := List.replicate 6 Mse.reset,
    dmas := List.replicate 32 Dma.reset, net := LinkNet.reset, seq := Seq.reset, saf := Saf.reset,
    ports := List.replicate 2 Port.reset, nd := Ndomir.reset, out := [], free := 0, pending := [] }

end Sys2Proof.Machine
end

