-- ==== Sys2Proof/WellFormed.lean ====
section
/-! DEFINITION. Which units the operands of a command may name (R6, R13, R15): a command that names a unit the device does
not have reaches no part of it. -/

namespace Sys2Proof

/-- The unit numbers of R6, R13, R68, R147, R162, R185, R209, R377 and R383. -/
def isCore (c : Nat) : Bool := decide (c < 64)
def isSlot (p : Nat) : Bool := decide (p < 80)
def isGroup (g : Nat) : Bool := decide (g < 64)
def isMse (k : Nat) : Bool := decide (k < 6)
def isRing (r : Nat) : Bool := decide (r < 4)
def isDma (n : Nat) : Bool := decide (n < 32)
def isLink (l : Nat) : Bool := decide (l < 96)
def isPort (p : Nat) : Bool := decide (p < 2)
def isPair (q : Nat) : Bool := decide (q < 256)
def isStack (s : Nat) : Bool := decide (s < 12)
def isCluster (q : Nat) : Bool := decide (q < 16)

/-- The source of a SEQ command names a port and a pair (R393). -/
def CmdSrc.ok : CmdSrc → Bool
  | .bar0 p => isPort p
  | .queue p q _ => isPort p && isPair q

/-- The unit a stall report names exists (R336). -/
def StallUnit.ok : StallUnit → Bool
  | .engine c _ => isCore c
  | .collector c g => isCore c && isGroup g
  | .mseRing k r => isMse k && isRing r
  | .dma n => isDma n
  | .router l => isLink l
  | .seq => true

/-- The places a nib mismatch names exist: a physical unit number of Table 10.3 for the engine, the spare that serves
a row counting as its last place (R68, R92). -/
def NibMismatch.ok (m : NibMismatch) (e : Eng) : Bool :=
  match e with
  | .f => decide (m.row < 4 ∧ m.col < 9)
  | .b => decide (m.row < 4 ∧ m.col < 17)

/-- A command names only units that the device has. -/
def Instr.wf (i : Instr) : Bool :=
  match i with
  | .registerWrite port _ _ => isPort port
  | .vinRise => true
  | .vinFall => true
  | .vinSurge => true
  | .converterSoftStartComplete => true
  | .firmwareVerified => true
  | .hbmTrainingComplete _ _ _ => true
  | .coreSelfTestComplete _ _ => true
  | .linkWaitEnd => true
  | .configRequest port _ => isPort port
  | .devrstNFall => true
  | .devrstNQualify => true
  | .devrstNRise => true
  | .devrst port => isPort port
  | .resetHoldEnd => true
  | .perstAssert port => isPort port
  | .perstDeassert port => isPort port
  | .functionLevelReset port => isPort port
  | .d3hotEntry port => isPort port
  | .d0Return port => isPort port
  | .nop c g _ => isCore c && isGroup g
  | .addI c g _ => isCore c && isGroup g
  | .addkI c g _ => isCore c && isGroup g
  | .subI c g _ => isCore c && isGroup g
  | .mulI c g _ => isCore c && isGroup g
  | .mulhI c g _ => isCore c && isGroup g
  | .macI c g _ => isCore c && isGroup g
  | .andW c g _ => isCore c && isGroup g
  | .orW c g _ => isCore c && isGroup g
  | .xorW c g _ => isCore c && isGroup g
  | .shl c g _ => isCore c && isGroup g
  | .shr c g _ => isCore c && isGroup g
  | .rotl c g _ => isCore c && isGroup g
  | .minI c g _ => isCore c && isGroup g
  | .maxI c g _ => isCore c && isGroup g
  | .ones c g _ => isCore c && isGroup g
  | .clz c g _ => isCore c && isGroup g
  | .ldk c g _ => isCore c && isGroup g
  | .mov c g _ => isCore c && isGroup g
  | .pick c g _ => isCore c && isGroup g
  | .cmpI c g _ => isCore c && isGroup g
  | .getsys c g _ => isCore c && isGroup g
  | .plog c g _ => isCore c && isGroup g
  | .addW c g _ => isCore c && isGroup g
  | .mulW c g _ => isCore c && isGroup g
  | .fmaW c g _ => isCore c && isGroup g
  | .minW c g _ => isCore c && isGroup g
  | .maxW c g _ => isCore c && isGroup g
  | .cmpW c g _ => isCore c && isGroup g
  | .divW c g _ => isCore c && isGroup g
  | .sqrtW c g _ => isCore c && isGroup g
  | .fltI c g _ => isCore c && isGroup g
  | .intW c g _ => isCore c && isGroup g
  | .addB2 c g _ => isCore c && isGroup g
  | .mulB2 c g _ => isCore c && isGroup g
  | .fmaB2 c g _ => isCore c && isGroup g
  | .minB2 c g _ => isCore c && isGroup g
  | .maxB2 c g _ => isCore c && isGroup g
  | .narB16 c g _ => isCore c && isGroup g
  | .widB16 c g _ => isCore c && isGroup g
  | .encF8 c g _ => isCore c && isGroup g
  | .decN c g _ => isCore c && isGroup g
  | .inv c g _ => isCore c && isGroup g
  | .invsqrt c g _ => isCore c && isGroup g
  | .pow2 c g _ => isCore c && isGroup g
  | .lgb c g _ => isCore c && isGroup g
  | .sinT c g _ => isCore c && isGroup g
  | .cosT c g _ => isCore c && isGroup g
  | .lrd c g _ => isCore c && isGroup g
  | .lwr c g _ => isCore c && isGroup g
  | .ld c g _ => isCore c && isGroup g
  | .st c g _ => isCore c && isGroup g
  | .ldAcq c g _ => isCore c && isGroup g
  | .stRel c g _ => isCore c && isGroup g
  | .loadComplete c g _ => isCore c && isGroup g
  | .atAdd c g _ => isCore c && isGroup g
  | .atAnd c g _ => isCore c && isGroup g
  | .atOr c g _ => isCore c && isGroup g
  | .atXor c g _ => isCore c && isGroup g
  | .atMin c g _ => isCore c && isGroup g
  | .atMax c g _ => isCore c && isGroup g
  | .atAddw c g _ => isCore c && isGroup g
  | .atSwap c g _ => isCore c && isGroup g
  | .atCmpx c g _ => isCore c && isGroup g
  | .xlane c g _ => isCore c && isGroup g
  | .poll c g _ => isCore c && isGroup g
  | .bwait c g _ => isCore c && isGroup g
  | .bmark c g _ => isCore c && isGroup g
  | .barrierWatchdogExpiry c _ => isCore c
  | .fence c g _ => isCore c && isGroup g
  | .tissue c g _ => isCore c && isGroup g
  | .twait c g _ => isCore c && isGroup g
  | .msereq c g _ => isCore c && isGroup g
  | .dmareq c g _ => isCore c && isGroup g
  | .stip c g _ => isCore c && isGroup g
  | .setctx c g _ => isCore c && isGroup g
  | .jump c g _ => isCore c && isGroup g
  | .jumpr c g _ => isCore c && isGroup g
  | .call c g _ => isCore c && isGroup g
  | .cede c g _ => isCore c && isGroup g
  | .probe c g _ => isCore c && isGroup g
  | .doneW c g _ => isCore c && isGroup g
  | .trapSoft c g _ => isCore c && isGroup g
  | .pstailWrite port slot sm _ => isPort port && isSlot slot && decide (sm < 3)
  | .workItemNop c _ => isCore c
  | .launch c _ => isCore c
  | .workItemMark c _ => isCore c
  | .blockStart c _ => isCore c
  | .groupReplay port slot g => isPort port && isSlot slot && isGroup g
  | .groupKill port slot g => isPort port && isSlot slot && isGroup g
  | .groupStep port slot g => isPort port && isSlot slot && isGroup g
  | .groupHalt port slot g => isPort port && isSlot slot && isGroup g
  | .parkTimeout c g => isCore c && isGroup g
  | .icinv port slot _ => isPort port && isSlot slot
  | .dbgdataWrite port slot _ => isPort port && isSlot slot
  | .tileNop c _ => isCore c
  | .mma c _ => isCore c
  | .descriptorComplete c _ => isCore c
  | .chunkMismatch c e m => isCore c && m.ok e
  | .recomputationComplete c _ _ => isCore c
  | .engineIdle c _ => isCore c
  | .blotterSampleComplete cl => isCluster cl
  | .mseRtailWrite port k r _ => isPort port && isMse k && isRing r
  | .mseNop k r => isMse k && isRing r
  | .mseAmax k r => isMse k && isRing r
  | .mseEncode k r => isMse k && isRing r
  | .mseWiden k r => isMse k && isRing r
  | .mseFill k r => isMse k && isRing r
  | .mseCopy k r => isMse k && isRing r
  | .mseHist k r => isMse k && isRing r
  | .openRange k r => isMse k && isRing r
  | .openWaitEnd k r => isMse k && isRing r
  | .clearRange k r => isMse k && isRing r
  | .finishRange k r => isMse k && isRing r
  | .closeRange k r => isMse k && isRing r
  | .mseCommandComplete k r => isMse k && isRing r
  | .notopenTimeout k => isMse k
  | .dmaChtailWrite port n _ => isPort port && isDma n
  | .dmaNop n => isDma n
  | .dmaLinear n => isDma n
  | .dmaTile n => isDma n
  | .dmaTileSkew n => isDma n
  | .dmaTileUnskew n => isDma n
  | .dmaComplete n _ => isDma n
  | .tlbInvalidate port _ => isPort port
  | .tlbInvalidateDone => true
  | .bar4Read port _ _ => isPort port
  | .bar4Write port _ _ => isPort port
  | .retirementComplete stack _ => isStack stack
  | .patrolScrub stack unit _ => isStack stack && decide (unit < 3 * 2 ^ 29)
  | .patrolPassComplete => true
  | .hbmIdleTimeout => true
  | .sramScrub _ => true
  | .linkEnable port l _ => isPort port && isLink l
  | .linkDisable port l _ => isPort port && isLink l
  | .retrain port l _ => isPort port && isLink l
  | .capabilityBlock l _ => isLink l
  | .linkUp l _ => isLink l
  | .linkTrainingFail l => isLink l
  | .trainingRetryWaitEnd l => isLink l
  | .laneDegraded l _ _ => isLink l
  | .dataFlit l _ => isLink l
  | .idleFlit l _ => isLink l
  | .nak l _ => isLink l
  | .replayTimeout l => isLink l
  | .transitForward l _ => isLink l
  | .pktWrite l _ => isLink l
  | .pktRead l _ => isLink l
  | .pktReadResp l _ => isLink l
  | .readTimeout id => decide (id < 2048)
  | .lostNotice l _ => isLink l
  | .pktContrib l _ => isLink l
  | .sealClean l _ => isLink l
  | .sealUp l _ => isLink l
  | .sealDown l _ => isLink l
  | .pktRetract l _ => isLink l
  | .pktResend l _ => isLink l
  | .barrierArrive l _ => isLink l
  | .barrierRelease l _ => isLink l
  | .gathered l _ => isLink l
  | .replaying l _ => isLink l
  | .haltstep l _ => isLink l
  | .linkStateNotice l _ => isLink l
  | .ndomirMessage l _ => isLink l
  | .exclusionExpiry node l => isLink l && decide (node < 65536)
  | .counterIncrement die _ => decide (die < 4)
  | .checkpointWriteComplete _ => true
  | .sealTimeout => true
  | .hmTimeout => true
  | .hmReopenWaitEnd _ => true
  | .replayingTimer => true
  | .stepStatusTimer => true
  | .drtailWrite port _ _ => isPort port
  | .seqLoad src => src.ok
  | .seqStart src => src.ok
  | .seqResume src => src.ok
  | .seqPause src => src.ok
  | .seqContinue src => src.ok
  | .seqHalt src => src.ok
  | .seqRetry src => src.ok
  | .seqCheckpoint src => src.ok
  | .seqUnload src => src.ok
  | .seqHmput src => src.ok
  | .iftTestStart slot => isSlot slot
  | .iftTestComplete slot _ => isSlot slot
  | .preemptTimeout c => isCore c
  | .contextMove c => isCore c
  | .contextMoveComplete c => isCore c
  | .watchdogStall u => u.ok
  | .inputOvercurrent => true
  | .erheadWrite port _ => isPort port
  | .governorPeriod _ => true
  | .rateMonitorReport die _ => decide (die < 14)
  | .ndomirSensorPoll _ => true
  | .throttleNFall => true
  | .throttleQualify => true
  | .throttleNRise => true
  | .throttleHoldEnd => true
  | .throttleSustained => true
  | .tsoffWrite port _ => isPort port
  | .queueEnable port tgt q _ => isPort port && isPort tgt && isPair q
  | .queueDisable port tgt q => isPort port && isPort tgt && isPair q
  | .sqDoorbell port q _ _ => isPort port && isPair q
  | .cqDoorbell port q _ => isPort port && isPair q
  | .descriptorFetch port q _ => isPort port && isPair q
  | .queueNop port q _ => isPort port && isPair q
  | .queueMove port q _ _ => isPort port && isPair q
  | .queueMse port q _ => isPort port && isPair q
  | .queueMark port q _ _ => isPort port && isPair q
  | .queueDescriptorComplete port q _ => isPort port && isPair q
  | .statusBlockWrite port q => isPort port && isPair q
  | .heartbeat port tgt => isPort port && isPort tgt
  | .heartbeatExpiry => true
  | .claim port tgt => isPort port && isPort tgt
  | .failover port _ => isPort port
  | .positionFrame _ => true
  | .posInLowTimeout => true
  | .positionFrameSend => true
  | .ledgerHourly => true
  | .eventRetryTimeout => true
  | .nonceExpiry => true
  | .entdaa _ => true
  | .rstdaa => true
  | .setnewda _ => true
  | .enec _ => true
  | .disec _ => true
  | .getpid => true
  | .getbcr => true
  | .getdcr => true
  | .getstatus => true
  | .getmwl => true
  | .setmwl _ => true
  | .getmrl => true
  | .setmrl _ => true
  | .setEndpointId _ _ => true
  | .getEndpointId _ => true
  | .getEndpointUuid _ => true
  | .getMctpVersionSupport _ _ => true
  | .getMessageTypeSupport _ => true
  | .getTid _ => true
  | .setTid _ _ => true
  | .getPldmVersion _ _ => true
  | .getPldmTypes _ => true
  | .getPldmCommands _ _ => true
  | .setEventReceiver _ _ => true
  | .pollForPlatformEventMessage _ => true
  | .getSensorReading _ _ => true
  | .getStateSensorReadings _ _ => true
  | .setNumericEffecterValue _ _ _ => true
  | .getNumericEffecterValue _ _ => true
  | .getPdrRepositoryInfo _ => true
  | .getPdr _ _ => true
  | .queryDeviceIdentifiers _ => true
  | .getFirmwareParameters _ => true
  | .requestUpdate _ => true
  | .passComponentTable _ _ => true
  | .updateComponent _ _ => true
  | .firmwareData _ _ => true
  | .activateFirmware _ => true
  | .getStatus _ => true
  | .cancelUpdateComponent _ => true
  | .cancelUpdate _ => true
  | .spdmGetVersion _ => true
  | .getCapabilities _ => true
  | .negotiateAlgorithms _ => true
  | .getDigests _ => true
  | .getCertificate _ _ _ _ => true
  | .challenge _ _ _ _ => true
  | .getMeasurements _ _ _ _ => true
  | .getNonce _ => true
  | .getLedger _ _ => true
  | .takeOwnership _ _ => true
  | .transferOwnership _ _ => true
  | .releaseOwnership _ => true
  | .setTenantKeys _ _ => true
  | .tenantWipe _ => true
  | .enterRefurbishment _ => true
  | .wipeComplete _ _ => true
  | .refurbishmentComplete _ => true
  | .refclkLoss port => isPort port
  | .refclkReturn port => isPort port
  | .portLinkUp port _ _ => isPort port
  | .portLinkDown port => isPort port
  | .linkPartnerDisabled l => isLink l
  | .platformEventAcknowledged => true
  | .tckEdge _ _ _ => true
  | .trstNFall => true

end Sys2Proof
end

