-- ==== Sys2Proof/Machine/Ops.lean ====
section
/-! DEFINITION. The shared operations over the parts of State: the answer of a command, updates of one unit, register
access with the access codes of R10, free values, outputs, alerts (R400), timers (R353 to R355). -/

namespace Sys2Proof.Machine

/-! ## The answer of a command -/

/-- What no command but those of the test access port and of VIN can change: the queue of waiting commands, the TAP
(R461), the fuses that are set when the part is made (R1, R358, R422, R472), and the board. -/
def keepFixed (s t : State) : State :=
  { t with
    pending := s.pending
    tap := s.tap
    fuses := { t.fuses with
      rpRate := s.fuses.rpRate, binS2 := s.fuses.binS2, serial := s.fuses.serial, keyHash := s.fuses.keyHash
      unwired := s.fuses.unwired } }

/-- The answer of a command: `f s` where the units it names exist (`ok`), a fault otherwise. -/
def answer (ok : Bool) (s : State) (f : State → State) : Host.Outcome State Fault Refusal :=
  if ok then .next (keepFixed s (f s)) else .fault .noSuchUnit

/-- The answer of an event of the test access port or of VIN: the TAP too may change. -/
def answerTap (s : State) (f : State → State) : Host.Outcome State Fault Refusal :=
  .next { keepFixed s (f s) with tap := (f s).tap }

/-! ## One unit of many -/

/-- Entry `i` of a list, or a default. -/
def nth {α : Type} (d : α) (l : List α) (i : Nat) : α := l.getD i d

def State.core (s : State) (c : Nat) : Core := nth Core.reset s.cores c
def State.mse (s : State) (k : Nat) : Mse := nth Mse.reset s.mses k
def State.dma (s : State) (n : Nat) : Dma := nth Dma.reset s.dmas n
def State.link (s : State) (l : Nat) : Link := nth Link.reset s.net.links l
def State.port (s : State) (p : Nat) : Port := nth Port.reset s.ports p
def State.pair (s : State) (p q : Nat) : Pair := nth Pair.reset (s.port p).pairs q
def State.slot (s : State) (p : Nat) : Slot := nth Slot.reset s.saf.slots p

def State.modCore (s : State) (c : Nat) (f : Core → Core) : State := { s with cores := s.cores.modify c f }
def State.modMse (s : State) (k : Nat) (f : Mse → Mse) : State := { s with mses := s.mses.modify k f }
def State.modDma (s : State) (n : Nat) (f : Dma → Dma) : State := { s with dmas := s.dmas.modify n f }
def State.modNet (s : State) (f : LinkNet → LinkNet) : State := { s with net := f s.net }
def State.modLink (s : State) (l : Nat) (f : Link → Link) : State :=
  { s with net := { s.net with links := s.net.links.modify l f } }
def State.modPort (s : State) (p : Nat) (f : Port → Port) : State := { s with ports := s.ports.modify p f }
def State.modPair (s : State) (p q : Nat) (f : Pair → Pair) : State :=
  s.modPort p fun x => { x with pairs := x.pairs.modify q f }
def State.modSeq (s : State) (f : Seq → Seq) : State := { s with seq := f s.seq }
def State.modSaf (s : State) (f : Saf → Saf) : State := { s with saf := f s.saf }
def State.modSlot (s : State) (p : Nat) (f : Slot → Slot) : State :=
  { s with saf := { s.saf with slots := s.saf.slots.modify p f } }
def State.modPwr (s : State) (f : Pwr → Pwr) : State := { s with pwr := f s.pwr }
def State.modNd (s : State) (f : Ndomir → Ndomir) : State := { s with nd := f s.nd }
def State.modHbm (s : State) (f : Hbm → Hbm) : State := { s with hbm := f s.hbm }

/-- The group in a slot of a core, if the slot holds one (R209). -/
def State.group (s : State) (c g : Nat) : Option Group := Sparse.find (s.core c).groups g

def State.setGroup (s : State) (c g : Nat) (x : Group) : State :=
  s.modCore c fun k => { k with groups := Sparse.put k.groups g x }

def State.modGroup (s : State) (c g : Nat) (f : Group → Group) : State :=
  match s.group c g with
  | none => s
  | some x => s.setGroup c g (f x)

/-- The engine of a core that an engine name selects (R68). -/
def Core.eng (k : Core) : Eng → Engine
  | .f => k.engF
  | .b => k.engB

def Core.setEng (k : Core) (e : Eng) (x : Engine) : Core :=
  match e with
  | .f => { k with engF := x }
  | .b => { k with engB := x }

def State.eng (s : State) (c : Nat) (e : Eng) : Engine := (s.core c).eng e

def State.modEng (s : State) (c : Nat) (e : Eng) (f : Engine → Engine) : State :=
  s.modCore c fun k => k.setEng e (f (k.eng e))

/-! ## Bit fields -/

/-- Bits [hi:lo] of a number. -/
def bitsOf (w hi lo : Nat) : Nat := w / 2 ^ lo % 2 ^ (hi - lo + 1)

/-- Bits [hi:lo] of a 64-bit word. -/
def dbits (w : DWord) (hi lo : Nat) : Nat := bitsOf w.toNat hi lo

/-- Bit `i` of a 64-bit word. -/
def dbit (w : DWord) (i : Nat) : Bool := w.toNat.testBit i

/-- Sign extension of the low `n` bits to an integer. -/
def signed (n : Nat) (v : Nat) : Int :=
  let m := v % 2 ^ n
  if m < 2 ^ (n - 1) then m else (m : Int) - 2 ^ n

/-- A number that saturates at the largest value of `n` bits. -/
def satAdd (n : Nat) (v k : Nat) : Nat := min (v + k) (2 ^ n - 1)

/-! ## Registers (R10, R468) -/

/-- The value of a field map's reset column. -/
def Reg.resetVal (r : Reg) : Nat := r.desc.fields.foldl (fun a f => a + f.reset * 2 ^ f.lo) 0

/-- The value of a register after a reset of its scope, by its index: PWR.RAIL.RATED goes by power stage (Table 11.13),
the fused fields are loaded by `showFuses`. -/
def Reg.resetAt (r : Reg) (i _j : Nat) : Word :=
  match r with
  | .PWR_RAIL => BitVec.ofNat 32 (Reg.resetVal .PWR_RAIL + (if i < 8 then 0x12C else if i < 14 then 0xA0 else 0x1A4) * 2 ^ F.PWR_RAIL_RATED.lo)
  | r => BitVec.ofNat 32 r.resetVal

/-- The BAR0 byte offset of a register by its indices. -/
def Reg.addr (r : Reg) (i j : Nat) : Nat := r.desc.base + i * r.desc.s1 + j * r.desc.s2

def State.reg (s : State) (r : Reg) (i j : Nat) : Word := Sparse.get (r.resetAt i j) s.regs (r.addr i j)

def State.setReg (s : State) (r : Reg) (i j : Nat) (v : Word) : State :=
  { s with regs := Sparse.set (r.resetAt i j) s.regs (r.addr i j) v }

/-- A field of a register's value. -/
def Field.of (f : Field) (w : Word) : Nat := bitsOf w.toNat f.hi f.lo

/-- A register's value with one field replaced. -/
def Field.into (f : Field) (w : Word) (v : Nat) : Word :=
  BitVec.ofNat 32 (w.toNat - f.of w * 2 ^ f.lo + v % 2 ^ (f.hi - f.lo + 1) * 2 ^ f.lo)

/-- A field of the register with indices `i`, `j`. -/
def State.fld (s : State) (f : Field) (i : Nat := 0) (j : Nat := 0) : Nat := f.of (s.reg f.reg i j)

def State.setFld (s : State) (f : Field) (v : Nat) (i : Nat := 0) (j : Nat := 0) : State :=
  s.setReg f.reg i j (f.into (s.reg f.reg i j) v)

/-- A one-bit field as a truth value. -/
def State.flag (s : State) (f : Field) (i : Nat := 0) (j : Nat := 0) : Bool := s.fld f i j != 0

/-- Count in a saturating field. -/
def State.count (s : State) (f : Field) (k : Nat) (i : Nat := 0) (j : Nat := 0) : State :=
  s.setFld f (satAdd (f.hi - f.lo + 1) (s.fld f i j) k) i j

/-- One field under a write of `w` over the old value `o`, by its access code (R10): RW takes the written value, a W1C
field keeps what the ones of the write leave, a W1C count clears whole, the others keep theirs; a WO field reads zero. -/
def FieldDesc.write (f : FieldDesc) (o w : Word) : Nat :=
  let ov := bitsOf o.toNat f.hi f.lo
  let wv := bitsOf w.toNat f.hi f.lo
  match f.acc with
  | .ro => ov
  | .rw => wv
  | .w1c => ov - (ov &&& wv)
  | .w1cAll => if wv = 0 then ov else 0
  | .wo => 0
  | .rsvd => 0

/-- A whole 32-bit write by the access codes of the field map (R10, R470). -/
def Reg.written (r : Reg) (o w : Word) : Word :=
  BitVec.ofNat 32 (r.desc.fields.foldl (fun a f => a + f.write o w * 2 ^ f.lo) 0)

/-- The indices of a register at a BAR0 offset, if the offset is one of its places. -/
def RegDesc.find (d : RegDesc) (off : Nat) : Option (Nat × Nat) :=
  if off < d.base then none
  else
    let x := off - d.base
    let i := if d.s1 = 0 then 0 else x / d.s1
    let y := if d.s1 = 0 then x else x % d.s1
    let j := if d.s2 = 0 then 0 else y / d.s2
    if (if d.s2 = 0 then y else y % d.s2) = 0 ∧ i < d.n1 ∧ j < d.n2 then some (i, j) else none

/-- The register at a BAR0 offset, and its indices; none at a RSVD offset (R468). LNK.GPORT is RSVD except on ML63 to ML94
(R276). -/
def Reg.at_ (off : Nat) : Option (Reg × Nat × Nat) :=
  match BlockId.ofOffset off with
  | none => none
  | some b => b.regs.findSome? fun r => match r.desc.find off with
    | none => none
    | some (i, j) => if r = .LNK_GPORT ∧ (i < 63 ∨ 94 < i) then none else some (r, i, j)

/-! ## Free values -/

/-- A free value has been drawn. -/
def State.drawn (s : State) : State := { s with free := s.free + 1 }

/-- A free choice between two continuations. -/
def State.choose (s : State) (f g : State → State) : State :=
  if Config.choice s.free then f s.drawn else g s.drawn

/-! ## Timers (R353 to R355) -/

/-- How far two timers of the device may be apart, in ns: 2 µs and 2 ppm of the time since the later of their loads (R354). -/
def skewBound (sinceLoad : Nat) : Nat := 2000 + sinceLoad / 500000

/-- The timers as they now read, in ns. The host die's has advanced by a free number since the last reading (DESIGN CHOICE, log
entry 5); those of the other dies stand anywhere in one window of the bound's length around it, and none steps back. -/
def State.tickTimer (s : State) : State :=
  let now := s.pwr.timer + Config.elapsed s.free
  let b := skewBound (now - s.pwr.loadedAt) + 1
  let at_ (i : Nat) : Nat := now + Config.skew s.free i % b - Config.skew s.free 14 % b
  { s with pwr := { s.pwr with timer := now, dieTimers := s.pwr.dieTimers.mapIdx fun i t => max t (at_ i) }, free := s.free + 1 }

/-- The other dies leave reset and load their timers from the host die's, to 1 µs (R353). -/
def State.loadTimers (s : State) : State :=
  { s with
    pwr := { s.pwr with
      loadedAt := s.pwr.timer, dieTimers := s.pwr.dieTimers.mapIdx fun i _ => s.pwr.timer + Config.skew s.free i % 2001 - 1000 }
    free := s.free + 1 }

/-- A host-die timestamp after `tickTimer`: timer plus the offset in force, modulo 2^64 (R355). -/
def State.hostTime (s : State) : Nat := (s.pwr.timer + s.pwr.tsoff.toNat) % 2 ^ 64

/-- The timer of a die, by the die's code of Table 10.3; what is none of the fourteen reads the host die's. -/
def State.dieTimer (s : State) (die : Nat) : Nat :=
  let i := if die < 4 then die else if 0x10 ≤ die ∧ die < 0x16 then die - 0x0C else if 0x20 ≤ die ∧ die < 0x24 then die - 0x16 else 14
  s.pwr.dieTimers.getD i s.pwr.timer % 2 ^ 64

/-- A timestamp of a die: its timer plus the offset in force (R355). -/
def State.dieTime (s : State) (die : Nat) : Nat := (s.dieTimer die + s.pwr.tsoff.toNat) % 2 ^ 64

/-! ## Outputs and alerts -/

def State.emit (s : State) (o : Out) : State := { s with out := s.out ++ [o] }

/-- Send or hold the MSI-X message of a port for a cause, by the MSI-X enable, function mask and vector mask (R400). A port in
D3hot issues no requests (R378), and holds it. -/
def State.sendMsix (s : State) (p cause : Nat) : State :=
  let x := s.port p
  if !x.msixEnable then s
  else if x.msixMask || x.d3hot || s.flag F.HIF_MSIXVCTL_MASK p then s.setReg .HIF_MSIXPBA p 0 1
  else s.emit (.msix p cause)

/-- Raise a cause of Table 12.13 on a port: a message goes out when its bit changes from 0 to 1 while enabled (R400). -/
def State.raiseAlert (s : State) (p cause : Nat) : State :=
  let old := s.fld F.HIF_ALERT_CAUSE p
  if old.testBit cause then s
  else
    let s := s.setFld F.HIF_ALERT_CAUSE (old ||| 2 ^ cause) p
    if (s.fld F.HIF_ALERTEN_EN p).testBit cause then s.sendMsix p cause else s

def State.raiseBoth (s : State) (cause : Nat) : State := (s.raiseAlert 0 cause).raiseAlert 1 cause

/-- A port logs an error by the rules of Advanced Error Reporting (R378; log entry 110): its bit of the uncorrectable status, the
Device Status bits, and, for the first error that is not masked, the pointer to it with the header of the packet, of which the spec
tells nothing. `answered`: the completion told the requester, so that the error is advisory. -/
def State.aerError (s : State) (p bit : Nat) (answered : Bool) : State :=
  (s.modPort p fun x =>
    let at_ (i : Nat) : Nat := (x.aer.getD i 0).toNat
    let fatal := (at_ 3).testBit bit
    let adv := answered && !fatal
    let first := at_ 1 == 0 && !(at_ 2).testBit bit && !(adv && (at_ 5).testBit 13)
    let l := (x.aer.modify 1 (· ||| BitVec.ofNat 32 (2 ^ bit))).modify 4 fun w => if adv then w ||| 0x2000 else w
    { x with
      aer := if first then
          (List.range 4).foldl (fun l i => l.set (7 + i) (Config.cfgBits (4 * s.free + i)))
            (l.modify 6 fun w => w &&& 0xFFFFFFE0 ||| BitVec.ofNat 32 bit)
        else l
      devCtl := x.devCtl ||| (if adv then 0x10000 else if fatal then 0x40000 else 0x20000) ||| (if bit = 20 then 0x80000 else 0)
      }).drawn

/-- A device read of host memory fails (R379): a completion timeout is logged; what the completion says otherwise is the host's
error. Which of the three ends it is not told. -/
def State.readFailed (s : State) (p : Nat) : State :=
  if Config.choice s.free then s.drawn.aerError p 14 false else s.drawn

/-! ## Where a logical core is (R349) -/

/-- The slot number inside its cluster that carries a logical core: SAF.CMAP.L0 to L3. -/
def State.coreSlot (s : State) (c : Nat) : Nat :=
  bitsOf (s.reg .SAF_CMAP (c / 4) 0).toNat (14 + 3 * (c % 4)) (12 + 3 * (c % 4))

/-- The physical index 20d + 5c + s of a slot of a logical cluster (R175, R469). -/
def physOf (q sl : Nat) : Nat := 5 * q + sl

/-- The physical index of the slot that carries a logical core. -/
def State.phys (s : State) (c : Nat) : Nat := physOf (c / 4) (s.coreSlot c)

/-- Bit i of SAF.CMAP.AVAIL: logical core 4q + i is available (R341). -/
def State.avail (s : State) (c : Nat) : Bool := (s.fld F.SAF_CMAP_AVAIL (c / 4)).testBit (c % 4)

/-- The logical core that a physical slot carries, if one does. -/
def State.logicalOf (s : State) (p : Nat) : Option Nat :=
  (List.range 4).findSome? fun i =>
    if s.coreSlot (4 * (p / 5) + i) = p % 5 ∧ s.avail (4 * (p / 5) + i) then some (4 * (p / 5) + i) else none

/-- The slot is retired (SAF.CMAP.RETIRED). -/
def State.isRetired (s : State) (p : Nat) : Bool := (s.fld F.SAF_CMAP_RETIRED (p / 5)).testBit (p % 5)

/-- Every register of the listed blocks returns to its reset value: their entries are dropped (Table 14.2, Table 16.1). The
block of a retired slot keeps the values it had at retirement (R469). -/
def State.resetBlocks (s : State) (bs : List BlockId) : State :=
  { s with regs := s.regs.filter fun e => match BlockId.ofOffset e.1 with
      | some b => !bs.contains b || (b == .core && s.isRetired ((e.1 - 0x1000000) / 0x10000))
      | none => true }

/-! ## Conditions of the device -/

/-- The device is in the safe state (R330). -/
def State.safe (s : State) : Bool := s.flag F.SAF_STATE_SAFE

/-- PHASE of DBG.DEVSTATE (Table 14.4). -/
def State.phase (s : State) : Nat := s.fld F.DBG_DEVSTATE_PHASE

/-- READY (R442). -/
def State.ready (s : State) : Bool := s.phase == 5

/-- Ndomir, the host die and its registers run: VIN is there and the converters are on. -/
def State.powered (s : State) : Bool := s.pwr.supply == .on

/-- The compute, MSE and link dies are out of reset (step 6 of Table 14.1 has begun and no hold is on). -/
def State.diesUp (s : State) : Bool := s.powered && decide (6 ≤ s.pwr.step) && s.pwr.hold.isNone

/-- Failover mode (R401) and its standby port (R402). -/
def State.failover (s : State) : Bool := s.flag F.HIF_MODE_FAILOVER
def State.isStandby (s : State) (p : Nat) : Bool := s.failover && s.fld F.HIF_MODE_ACTIVE != p

/-! ## Requests of the ports -/

/-- A port can issue requests: configured, not in D3hot, its link up (R378, R447). -/
def State.portLive (s : State) (p : Nat) : Bool :=
  (s.port p).configured && !(s.port p).d3hot && s.flag F.HIF_PSTAT_UP p

/-- Memory requests to a port's BARs reach the device: the port is up, in D0, configured, with Memory Space Enable. -/
def State.barLive (s : State) (p : Nat) : Bool := s.powered && s.portLive p && (s.port p).memSpace

/-! ## BAR0 writes (R402, R403, R443, R469, R471) -/

/-- The offsets of its own HIF port part that a standby port may write: CLAIM, ALERT, ALERTEN, the MSI-X table (R402). -/
def standbyMayWrite (p off : Nat) : Bool :=
  let b := 0x10000 * (p + 1)
  off == b + 0x8 || off == b + 0x10 || off == b + 0x14 || (decide (b + 0x4000 ≤ off) && decide (off < b + 0x4010))

/-- The offset lies in the HIF port part of the other port (R403). -/
def otherPortPart (p off : Nat) : Bool :=
  decide (0x10000 * (2 - p) ≤ off) && decide (off < 0x10000 * (3 - p))

/-- A write from a port reaches the register at an offset: the port answers; the standby and other-port rules (R402, R403);
the availability of the block during start-up (R443); a retired slot's block (R469); the safe state (R471). -/
def State.writable (s : State) (p off : Nat) : Bool :=
  s.barLive p
    && !(s.isStandby p && !standbyMayWrite p off) && !otherPortPart p off
    && match BlockId.ofOffset off with
      | none => false
      | some b =>
        (match b with
          | .mem | .mse | .dma => decide (7 ≤ s.pwr.step)
          | .core | .num => decide (8 ≤ s.pwr.step)
          | _ => true)
        && (match b with
          | .core => !s.isRetired ((off - 0x1000000) / 0x10000)
          | _ => true)
        && !(s.safe && (b == .seq || b == .mse || b == .dma || b == .num || b == .core))

/-! ## The lands under board test (R461) -/

/-- Instructions that take hold of the pins. -/
def TapInstr.seizes : TapInstr → Bool
  | .extest | .clamp | .highz | .extestPulse | .extestTrain => true
  | .bypass | .idcode | .samplePreload => false

/-- What drives the lands: an instruction that seizes them, while a DEVRST_N-scope reset holds. -/
def State.landsDriven (s : State) : Option (TapInstr × List Bool) :=
  if s.tap.ir.seizes && s.pwr.hold.isSome then some (s.tap.ir, s.tap.boundary) else none

end Sys2Proof.Machine
end

