-- ==== Sys2Proof/Machine/Memory.lean ====
section
/-! DEFINITION. Windows, translation and placement (spec/06 R173 to R182), and the bytes of HBM, local memory and host
memory behind one read and one write each. Errors of cells are met in Machine/Access.lean. -/

namespace Sys2Proof.Machine

/-- Bytes of a number, least significant first (R11). -/
def toBytes : Nat → Nat → List Byte
  | 0, _ => []
  | n + 1, v => BitVec.ofNat 8 v :: toBytes n (v / 256)

/-- The number that little-endian bytes spell. -/
def ofBytes : List Byte → Nat
  | [] => 0
  | b :: r => b.toNat + 256 * ofBytes r

def toDWord (l : List Byte) : DWord := BitVec.ofNat 64 (ofBytes l)

/-- Bytes as 64-bit words, in order. -/
def toWords : Nat → List Byte → List DWord
  | 0, _ => []
  | n + 1, l => toDWord (l.take 8) :: toWords n (l.drop 8)

def ofWords (l : List DWord) : List Byte := l.flatMap fun w => toBytes 8 w.toNat

/-! ## Placement (R181, R182) -/

/-- Usable HBM: 564 GiB (R179). -/
def usable : Nat := 0x8D00000000

/-- The granule that MEM.IMODE.GRAN selects (Table 6.7). -/
def granOf (g : Nat) : Nat :=
  match g with
  | 0 => 4096 | 1 => 2048 | 2 => 1024 | 3 => 512 | _ => 16

/-- Stack and stack offset of a PA (R182). -/
def State.place (s : State) (pa : Nat) : Nat × Nat :=
  let g := pa / (12 * 2 ^ 30)
  let o := pa % (12 * 2 ^ 30)
  let gran := granOf (s.fld F.MEM_IMODE_GRAN g)
  if s.flag F.MEM_IMODE_MODE g then
    let d := o / (3 * 2 ^ 30)
    let o' := o % (3 * 2 ^ 30)
    let n := o' / gran
    (3 * d + n % 3, g * 2 ^ 30 + n / 3 * gran + o' % gran)
  else
    let n := o / gran
    (n % 12, g * 2 ^ 30 + n / 12 * gran + o % gran)

/-- The key of an HBM byte: stack × 2^36 + stack offset. -/
def hbmKey (stack soff : Nat) : Nat := stack * 2 ^ 36 + soff

/-- The key of a block of a stack's reserve (R181). -/
def reserveKey (stack i : Nat) : Nat := stack * 2 ^ 24 + 47 * 2 ^ 18 + i

/-- A key in a retired block lies in the reserve block instead (R187). -/
def State.redirected (s : State) (k : Nat) : Nat :=
  match Sparse.find s.hbm.redirect (k / 4096) with
  | none => k
  | some i => reserveKey (k / 2 ^ 36) i * 4096 + k % 4096

/-- The key of the byte at a PA. -/
def State.paKey (s : State) (pa : Nat) : Nat := let x := s.place pa; s.redirected (hbmKey x.1 x.2)

/-- One byte of HBM by its key. -/
def State.hbmByte (s : State) (k : Nat) : Byte := Sparse.get 0 s.hbm.bytes k

def State.setHbmByte (s : State) (k : Nat) (v : Byte) : State :=
  { s with hbm := { s.hbm with bytes := Sparse.set 0 s.hbm.bytes k v } }

/-- Bytes of HBM at a PA, as the cells hold them. -/
def State.paBytes (s : State) (pa n : Nat) : List Byte := (List.range n).map fun i => s.hbmByte (s.paKey (pa + i))

/-! ## Windows (R174, R175) -/

/-- What an address names once translated. -/
inductive Place where
  /-- HBM at a PA. -/
  | hbm (pa : Nat)
  /-- local memory or tile buffers of a logical core. -/
  | local_ (core : Nat) (off : Nat)
  /-- host memory behind a port at a bus address. -/
  | host (port : Nat) (bus : Nat)
deriving DecidableEq, Repr

/-- Kinds of access for the permission checks (R179). -/
inductive Acc where
  | read | write | atomic
deriving DecidableEq, Repr

/-- Whether a leaf permits an access, with the CAUSE of Table 6.7 otherwise; W is checked before FRZ (R178, R179; log
entry 10). -/
def leafCause (e : DWord) (a : Acc) (upd : Bool) : Option Nat :=
  if a != .write && !dbit e 3 then some 3
  else if a != .read && !dbit e 4 then some 4
  else if a != .read && upd && dbit e 5 then some 5
  else none

/-- RSVD bits of an entry: [63:60], [11:6] and [1] (Table 6.2). -/
def pteRsvd (e : DWord) : Bool := dbits e 63 60 != 0 || dbits e 11 6 != 0 || dbit e 1

/-- The walk from a table at a PA: the leaf with its level, or a CAUSE; with the PAs of the entries read (R177, R179). -/
def State.walk (s : State) (va : Nat) : Nat → Nat → Except Nat (DWord × Nat) × List Nat
  | 0, _ => (.error 2, [])
  | lv + 1, table =>
    if usable < table + 4096 then (.error 6, [])
    else
      let pa := table + 8 * (va / 2 ^ (12 + 9 * lv) % 512)
      let e := toDWord (s.paBytes pa 8)
      if !dbit e 0 then (.error 1, [pa])
      else if pteRsvd e then (.error 2, [pa])
      else if dbit e 2 then
        if lv = 3 then (.error 2, [pa])
        else if dbits e 59 12 % 2 ^ (9 * lv) ≠ 0 then (.error 2, [pa])
        else (.ok (e, lv), [pa])
      else if lv = 0 then (.error 2, [pa])
      else
        let r := s.walk va lv (dbits e 59 12 * 4096)
        (r.1, pa :: r.2)

/-- MEM.PTBASE. -/
def State.ptBase (s : State) : Nat := s.fld F.MEM_PTBASEHI_BASEHI * 2 ^ 32 + s.fld F.MEM_PTBASELO_BASELO * 4096

/-- The address behind a leaf: page base and offset (R177). -/
def leafAddr (e : DWord) (lv va : Nat) : Nat := dbits e 59 12 * 4096 + va % 2 ^ (12 + 9 * lv)

/-- The leaf used for a page: the present walk's, or while an invalidation is due a translation an agent still holds
(R180); with the PAs of the entries read. -/
def State.leafFor (s : State) (va : Nat) : Except Nat (DWord × Nat) × List Nat :=
  let w := s.walk va 4 s.ptBase
  match Sparse.find s.hbm.tlb (va / 4096) with
  | none => w
  | some h =>
    match w.1 with
    | .ok x => if x = h then w else if Config.choice s.free then (.ok h, []) else w
    | .error _ => if Config.choice s.free then (.ok h, []) else w

/-- A translation that succeeded: the place, the PAs of the entries read, and the leaf an agent now holds. -/
structure Xlat where
  place : Place
  reads : List Nat
  held : Option (DWord × Nat)
deriving DecidableEq, Repr

/-- A VA through Table 6.1, R177 and R179; the error is the CAUSE of MEM.FAULTINFO, with the entries read. -/
def State.xlate (s : State) (a : Acc) (upd : Bool) (va : Nat) : Except (Nat × List Nat) Xlat :=
  if 0x100000000000 ≤ va ∧ va < 0x100040000000 then
    .ok ⟨.local_ ((va - 0x100000000000) / 2 ^ 24) (va % 2 ^ 24), [], none⟩
  else if 0x100040000000 ≤ va ∧ va < 0x800000000000 then .error (7, [])
  else if !s.flag F.MEM_MMUCTL_EN then .error (1, [])
  else
    let w := s.leafFor va
    match w.1 with
    | .error c => .error (c, w.2)
    | .ok (e, lv) =>
      match leafCause e a upd with
      | some c => .error (c, w.2)
      | none =>
        let p := leafAddr e lv va
        if va < 0x100000000000 then
          if usable ≤ p then .error (6, w.2) else .ok ⟨.hbm p, w.2, some (e, lv)⟩
        else if va < 0xC00000000000 then .ok ⟨.host 0 p, w.2, some (e, lv)⟩
        else .ok ⟨.host 1 p, w.2, some (e, lv)⟩

/-- An agent now holds a leaf for the page of a VA (R180). -/
def State.hold (s : State) (va : Nat) : Option (DWord × Nat) → State
  | none => s
  | some h => s.modHbm fun x => { x with tlb := Sparse.put x.tlb (va / 4096) h }

/-- Stacks with accessed bytes wake from self-refresh (R368). -/
def State.rouse (s : State) (ks : List Nat) : State :=
  s.modHbm fun h => { h with asleep := h.asleep.filter fun st => !ks.any fun k => k / 2 ^ 36 == st }

/-- An agent accesses bytes: their stacks wake, and HBM is no longer idle (R368). -/
def State.stir (s : State) (ks : List Nat) : State :=
  (s.rouse ks).modHbm fun h => { h with idle := h.idle && ks.isEmpty }

/-- MEM.FAULTINFO records the first failure since it was last cleared (R179). -/
def State.logFault (s : State) (agent cause va : Nat) : State :=
  if s.flag F.MEM_FAULTINFO_VALID then s
  else
    let s := s.setReg .MEM_FAULTLO 0 0 (BitVec.ofNat 32 va)
    let s := s.setReg .MEM_FAULTHI 0 0 (BitVec.ofNat 32 (va / 2 ^ 32 % 2 ^ 16))
    let s := s.setFld F.MEM_FAULTINFO_AGENT agent
    let s := s.setFld F.MEM_FAULTINFO_CAUSE cause
    s.setFld F.MEM_FAULTINFO_VALID 1

/-! ## Local memory and tile buffers (R175, R203) -/

/-- The key of a local byte of a physical slot. -/
def lmemKey (phys off : Nat) : Nat := phys * 2 ^ 24 + off

/-- A local offset is local memory or a tile buffer; the rest of the 16 MiB is reserved (R175). -/
def localOk (off : Nat) : Bool := decide (off < 0xA00000)

def State.localByte (s : State) (c off : Nat) : Byte := Sparse.get 0 s.lmem (lmemKey (s.phys c) off)

def State.setLocalByte (s : State) (c off : Nat) (v : Byte) : State :=
  { s with lmem := Sparse.set 0 s.lmem (lmemKey (s.phys c) off) v }

def State.localBytes (s : State) (c off n : Nat) : List Byte := (List.range n).map fun i => s.localByte c (off + i)

def State.setLocalBytes (s : State) (c : Nat) : Nat → List Byte → State
  | _, [] => s
  | off, b :: r => (s.setLocalByte c off b).setLocalBytes c (off + 1) r

/-! ## Host memory behind a port -/

def hostKey (port bus : Nat) : Nat := port * 2 ^ 64 + bus

/-- A byte of host memory as the device reads it: what it or a carried host write put there, or the host's own. -/
def State.hostByte (s : State) (port bus : Nat) : Byte :=
  match Sparse.find s.host (hostKey port bus) with
  | some b => b
  | none => Config.hostByte (hostKey port bus)

def State.setHostByte (s : State) (port bus : Nat) (v : Byte) : State :=
  { s with host := Sparse.put s.host (hostKey port bus) v }

def State.hostBytes (s : State) (port bus n : Nat) : List Byte := (List.range n).map fun i => s.hostByte port (bus + i)

def State.setHostBytes (s : State) (port : Nat) : Nat → List Byte → State
  | _, [] => s
  | bus, b :: r => (s.setHostByte port bus b).setHostBytes port (bus + 1) r

/-- The writes a host made in its own memory before a command reached the device (R196, R387). -/
def State.hostWrote (s : State) (hw : List HostWrite) : State :=
  hw.foldl (fun s w => s.setHostByte w.port w.bus w.val) s

/-! ## HBM units and canonical memory -/

/-- The unit of a byte key and of a list of byte keys, each once. -/
def unitsOf (ks : List Nat) : List Nat := (ks.map (· / 32)).eraseDups

def State.isPoisoned (s : State) (u : Nat) : Bool := s.hbm.poison.contains u

def State.setHbmBytes (s : State) : List Nat → List Byte → State
  | k :: ks, b :: bs => (s.setHbmByte k b).setHbmBytes ks bs
  | _, _ => s

/-- The memories are in canonical form: addresses rise strictly and nothing lists what an unlisted address reads as. -/
def Memory.wf (s : State) : Bool :=
  Sparse.wf (0 : Byte) s.hbm.bytes && Sparse.wf (0 : Byte) s.lmem && Sparse.rising s.host

end Sys2Proof.Machine
end

