-- ==== Sys2Proof/Machine/Net.lean ====
section
/-! DEFINITION. Morov Link packets (spec/08): classes and virtual channels, the header, routes chosen at injection (R271 to
R274), queues and credits (R250, R251), loss and its notices (R263). -/

namespace Sys2Proof

/-! ## Packet types (Table 8.9) -/

def PT.write : BitVec 4 := 1
def PT.read : BitVec 4 := 2
def PT.readResp : BitVec 4 := 3
def PT.contrib : BitVec 4 := 4
def PT.seal : BitVec 4 := 5
def PT.retract : BitVec 4 := 6
def PT.resend : BitVec 4 := 7
def PT.barrier : BitVec 4 := 8
def PT.message : BitVec 4 := 9

/-- Traffic classes (R250). -/
inductive Cls where
  | request | response | control
deriving DecidableEq, Repr

def Packet.cls (p : Packet) : Cls :=
  if p.ptype = PT.write ∨ p.ptype = PT.read ∨ p.ptype = PT.contrib then .request
  else if p.ptype = PT.readResp then .response
  else if p.ptype = PT.message then (if p.tag.toNat < 0x8000 then .request else .control)
  else .control

/-- A packet with every optional field zero. -/
def Packet.blank (ty : BitVec 4) (dst src : Nat) : Packet :=
  { ptype := ty, hops := 0, rsvd := 0, len := 0, upd := false, pf := false, dst := BitVec.ofNat 16 dst,
    src := BitVec.ofNat 16 src, tag := 0, x := 0, via := 0, nm := false, gsel := 0, addr := 0, payload := [] }

def b2n (b : Bool) : Nat := if b then 1 else 0

/-- The two header words (Table 8.8). -/
def Packet.header (p : Packet) : List DWord :=
  [BitVec.ofNat 64 (p.ptype.toNat * 2 ^ 60 + p.hops.toNat * 2 ^ 57 + p.rsvd.toNat * 2 ^ 56 + p.len.toNat * 2 ^ 50
      + b2n p.upd * 2 ^ 49 + b2n p.pf * 2 ^ 48 + p.dst.toNat * 2 ^ 32 + p.src.toNat * 2 ^ 16 + p.tag.toNat),
   BitVec.ofNat 64 (p.x.toNat * 2 ^ 62 + p.via.toNat * 2 ^ 52 + b2n p.nm * 2 ^ 51 + p.gsel.toNat * 2 ^ 40 + p.addr.toNat)]

/-- A packet from its header words, without payload. -/
def Packet.ofHeader (w0 w1 : DWord) : Packet :=
  { ptype := BitVec.ofNat 4 (Machine.dbits w0 63 60), hops := BitVec.ofNat 3 (Machine.dbits w0 59 57), rsvd := BitVec.ofNat 1 (Machine.dbits w0 56 56),
    len := BitVec.ofNat 6 (Machine.dbits w0 55 50), upd := Machine.dbit w0 49, pf := Machine.dbit w0 48, dst := BitVec.ofNat 16 (Machine.dbits w0 47 32),
    src := BitVec.ofNat 16 (Machine.dbits w0 31 16), tag := BitVec.ofNat 16 (Machine.dbits w0 15 0), x := BitVec.ofNat 2 (Machine.dbits w1 63 62),
    via := BitVec.ofNat 10 (Machine.dbits w1 61 52), nm := Machine.dbit w1 51, gsel := BitVec.ofNat 11 (Machine.dbits w1 50 40),
    addr := BitVec.ofNat 40 (Machine.dbits w1 39 0), payload := [] }

/-- ADDR of SEAL, RETRACT, RESEND and BARRIER: step in [39:8], argument in [7:0] (Table 8.9). -/
def ctlAddr (step arg : Nat) : BitVec 40 := BitVec.ofNat 40 (step % 2 ^ 32 * 256 + arg % 256)

def Packet.step (p : Packet) : Word := BitVec.ofNat 32 (p.addr.toNat / 256)
def Packet.arg (p : Packet) : Nat := p.addr.toNat % 256

/-- LEN, X and the fields its type does not use, by R259 and Table 8.9; the payload has LEN slots. -/
def Packet.wellFormed (p : Packet) : Bool :=
  let n := p.len.toNat
  let len := p.payload.length == 16 * n
  let noUpd := !p.upd
  let noPf := !p.pf
  let noX := p.x == 0
  p.rsvd == 0 && len && decide (p.hops.toNat ≤ 4) && (p.nm || p.via == 0)
    && (if p.ptype = PT.write then decide (1 ≤ n ∧ n ≤ 32) && noPf && noX && (n == 1 || p.tag == 0xFFFF)
        else if p.ptype = PT.read then n == 0 && noUpd && noPf && noX
        else if p.ptype = PT.readResp then decide (n ≤ 32) && noUpd && p.addr.toNat / 256 == 0 && p.x.toNat % 4 / 2 == 0
        else if p.ptype = PT.contrib then
          noUpd && decide (p.x.toNat ≤ 2) && (if p.x = 2 then n == 33 else decide (1 ≤ n ∧ n ≤ 32))
        else if p.ptype = PT.seal ∨ p.ptype = PT.retract ∨ p.ptype = PT.resend ∨ p.ptype = PT.barrier then
          decide (n ≤ 1) && noUpd && noPf && noX
        else if p.ptype = PT.message then decide (n ≤ 32) && noUpd && noPf && noX
        else false)

/-- The route fields of a header. -/
structure Route where
  via : BitVec 10
  nm : Bool
  gsel : BitVec 11
deriving DecidableEq, Repr

def Packet.withRoute (p : Packet) (r : Route) : Packet := { p with via := r.via, nm := r.nm, gsel := r.gsel }

/-- A control packet that no 2.0 route can carry is not sent (R258, R274). -/
def Packet.only2 (p : Packet) : Bool := p.cls == .control && p.ptype != PT.barrier

end Sys2Proof

namespace Sys2Proof.Machine

/-! ## CRC -/

/-- One bit step of a reflected CRC. -/
def crcBit (poly c : Nat) : Nat := if c % 2 = 1 then (c / 2) ^^^ poly else c / 2

def crcByte (poly c : Nat) (b : Byte) : Nat :=
  let x := c ^^^ b.toNat
  crcBit poly (crcBit poly (crcBit poly (crcBit poly (crcBit poly (crcBit poly (crcBit poly (crcBit poly x)))))))

/-- A reflected CRC with initial value all ones and the final value complemented. -/
def crcOf (poly : Nat) (l : List Byte) : Nat := (l.foldl (crcByte poly) 0xFFFFFFFF) ^^^ 0xFFFFFFFF

/-- CRC-32 of IEEE 802.3 (R246). -/
def crc32 (l : List Byte) : Nat := crcOf 0xEDB88320 l

/-- CRC-32C (R309). -/
def crc32c (l : List Byte) : Nat := crcOf 0x82F63B78 l

/-- AGENT code of SEQ (Table 6.7). It stands for the flow of what neither a channel nor a core sends (log entry 7). -/
def agentSeq : Nat := 0x70

/-! ## Own place and links -/

def State.chassis (s : State) : Nat := s.fld F.LNK_NODE_CHASSIS
def State.position (s : State) : Nat := s.fld F.LNK_NODE_POS

/-- The device's node id as it stands (R266). -/
def State.node (s : State) : Nat := s.chassis * 64 + s.position

/-- Chassis in the system (R266). -/
def State.nChassis (s : State) : Nat := s.fld F.LNK_SYSCFG_NCHM1 + 1

def State.linkSt (s : State) (l : Nat) : Nat := s.fld F.LNK_STAT_STATE l
def State.linkUp (s : State) (l : Nat) : Bool := s.linkSt l == 2

/-- Up, or retraining with its queues kept (R249). -/
def State.linkAlive (s : State) (l : Nat) : Bool := s.linkSt l == 2 || s.linkSt l == 5
def State.linkV2 (s : State) (l : Nat) : Bool := s.flag F.LNK_STAT_VER l

/-- Local link from a position to another (R267). -/
def localLink (q t : Nat) : Nat := (t + 63 - q) % 64

/-! ## Wiring between chassis (R268, R269) -/

/-- The global indices of chassis `k` that lead to chassis `k'`. -/
def globalCands (n k k' : Nat) : List Nat :=
  if n ≤ 1 ∨ k = k' then []
  else
    let r := 1023 / (n - 1)
    let a := (k' + n - k - 1) % n
    (List.range r).flatMap fun t => [2 * (t * (n - 1) + a), 2 * (t * (n - 1) + a) + 1]

/-- The far end of a global index: chassis and arrival index (R268); none for a spare port. -/
def globalPeer (n k j : Nat) : Option (Nat × Nat) :=
  if n ≤ 1 then none
  else
    let r := 1023 / (n - 1)
    let m := j / 2
    if r * (n - 1) ≤ m then none
    else
      let t := m / (n - 1)
      let a := m % (n - 1)
      some ((k + 1 + a) % n, 2 * (t * (n - 1) + n - 2 - a) + j % 2)

/-- Link 63 + g is a spare global port that stands in for another (R268, R269). -/
def State.substitutes (s : State) (l : Nat) : Bool :=
  s.flag F.LNK_GPORT_SUBEN l && (globalPeer s.nChassis s.chassis (32 * s.position + (l - 63))).isNone

/-- The global index that link 63 + g of this device serves: its own, or the one it substitutes (R269). -/
def State.gidxOf (s : State) (l : Nat) : Nat :=
  if l < 63 ∨ 94 < l then 0x7FF
  else if s.substitutes l then s.fld F.LNK_GPORT_SUBST l
  else 32 * s.position + (l - 63)

/-- Position and link of this chassis that serve a global index, substitutions included (R269). -/
def State.portOf (s : State) (j : Nat) : Nat × Nat :=
  let own := (List.range 32).find? fun g => s.substitutes (63 + g) && s.fld F.LNK_GPORT_SUBST (63 + g) == j
  match own with
  | some g => (s.position, 63 + g)
  | none =>
    match s.net.map.find? fun e =>
        decide (63 ≤ e.1 % 128 ∧ e.1 % 128 ≤ 94) && e.2.2.2 == j && e.1 != (j / 32) * 128 + 63 + j % 32 with
    | some e => (e.1 / 128, e.1 % 128)
    | none => (j / 32, 63 + j % 32)

/-- What is known of a link of a position of this chassis: STATE and version 2.0 (R265). -/
def State.known (s : State) (q l : Nat) : Option (Nat × Bool) :=
  if q = s.position then some (s.linkSt l, s.linkV2 l)
  else (Sparse.find s.net.map (q * 128 + l)).map fun e => (e.1, e.2.1)

def State.excluded (s : State) (q l : Nat) : Bool :=
  s.net.excl.any fun e => e.1.toNat == s.chassis * 64 + q && e.2 == l

/-- The link is shown up and 2.0 (detours, R271). -/
def State.hopUp2 (s : State) (q l : Nat) : Bool :=
  !s.excluded q l && match s.known q l with
    | none => false
    | some (st, ver) => st == 2 && ver

/-! ## The links of a route -/

/-- A hop within chassis `k`; one that starts and ends at the same position is omitted. -/
def hopIn (k q t : Nat) : List (Nat × Nat) := if q = t then [] else [(k * 64 + q, localLink q t)]

/-- Position and link of a chassis that serve a global index; the substitutions of other chassis are not known here. -/
def State.portAt (s : State) (k j : Nat) : Nat × Nat := if k = s.chassis then s.portOf j else (j / 32, 63 + j % 32)

/-- From a position of a chassis by a global index: the hops taken, and the chassis and position arrived at. -/
def State.leg (s : State) (k q j : Nat) : List (Nat × Nat) × Nat × Nat :=
  let x := s.portAt k j
  (hopIn k q x.1 ++ [(k * 64 + x.1, x.2)], match globalPeer s.nChassis k j with
    | none => (k, x.1)
    | some (k', j') => (k', (s.portAt k' j').1))

/-- The second global index of a non-minimal route: the same t and b toward the last chassis (R271). -/
def viaIndex (n k dk gsel : Nat) : Nat := 2 * (gsel / 2 / (n - 1) * (n - 1) + (dk + n - k - 1) % n) + gsel % 2

/-- The links of a route from node to node, each as its device's node id and its number there. -/
def State.linksOf (s : State) (src dst : Nat) (r : Route) : List (Nat × Nat) :=
  let k := src / 64
  let g := r.gsel.toNat
  if k = dst / 64 then
    if r.nm then hopIn k (src % 64) (g % 64) ++ hopIn k (g % 64) (dst % 64) else hopIn k (src % 64) (dst % 64)
  else
    let a := s.leg k (src % 64) g
    let b := if r.nm then s.leg a.2.1 a.2.2 (viaIndex s.nChassis a.2.1 (dst / 64) g) else ([], a.2)
    a.1 ++ b.1 ++ hopIn b.2.1 b.2.2 (dst % 64)

/-- This device's own number of a link that is named at one of its ends; none where the device has no end of it. -/
def State.ownEnd (s : State) (e : Nat × Nat) : Option Nat :=
  if e.1 = s.node then some e.2
  else if e.2 < 63 then
    if e.1 / 64 = s.chassis ∧ (e.1 % 64 + 1 + e.2) % 64 = s.position then some (62 - e.2) else none
  else match globalPeer s.nChassis (e.1 / 64) (32 * (e.1 % 64) + (e.2 - 63)) with
    | some (k, j) => if k = s.chassis ∧ (s.portOf j).1 = s.position then some (s.portOf j).2 else none
    | none => none

/-- What the chassis map knows of a link from either of its ends: a 1.2 device tells nothing of its own. -/
def State.knownEnds (s : State) (e : Nat × Nat) : Option (Nat × Bool) :=
  if e.1 / 64 ≠ s.chassis then none
  else (s.known (e.1 % 64) e.2).orElse fun _ => if e.2 < 63 then s.known ((e.1 % 64 + 1 + e.2) % 64) (62 - e.2) else none

/-- A link runs version 1.2: by this device's own end of it, else by the chassis map; of one that neither tells of it is not known
(log entry 105). -/
def State.isOld (s : State) (e : Nat × Nat) : Bool :=
  match s.ownEnd e with
  | some l => s.linkAlive l && !s.linkV2 l
  | none => match s.knownEnds e with
    | some (st, ver) => (st == 2 || st == 5) && !ver
    | none => Config.farOld e.1 e.2

/-- R273 does not exclude the link, and the chassis map does not show it down; `v2`: it is not 1.2. -/
def State.hopOk (s : State) (v2 : Bool) (e : Nat × Nat) : Bool :=
  !(s.net.excl.any fun x => x.1.toNat == e.1 && x.2 == e.2)
    && (e.1 / 64 != s.chassis || match s.known (e.1 % 64) e.2 with
      | none => true
      | some (st, _) => st == 2 || st == 5)
    && (!v2 || !s.isOld e)

/-! ## Routes (R271 to R274) -/

/-- One of a list by a number. -/
def pickOne {α : Type} (l : List α) (n : Nat) : Option α := l[n % l.length]?

/-- A detour through an intermediate position whose two links are both up and 2.0. -/
def State.detour (s : State) (p' : Nat) : Option Route :=
  let qs := (List.range 64).filter fun q =>
    q != s.position && q != p' && s.hopUp2 s.position (localLink s.position q) && s.hopUp2 q (localLink q p')
  (pickOne qs (Config.pick s.free)).map fun q => ⟨BitVec.ofNat 10 s.chassis, true, BitVec.ofNat 11 q⟩

/-- A route to a node whose first global hop leads to chassis `first`: over links that are all usable, at the source's own position
where it holds a candidate, else by the hash of source, destination and flow. -/
def State.through (s : State) (dst first : Nat) (mk : Nat → Route) (v2 : Bool) (flow : Nat) : Option Route :=
  let cs := (globalCands s.nChassis s.chassis first).filter fun j => (s.linksOf s.node dst (mk j)).all (s.hopOk v2)
  let own := cs.filter fun j => (s.portOf j).1 == s.position
  (if own.isEmpty then pickOne cs (Config.flowHash s.node dst flow) else pickOne own (Config.pick s.free)).map mk

/-- The minimal route to another chassis. -/
def State.minimalTo (s : State) (dst : Nat) (v2 : Bool) (flow : Nat) : Option Route :=
  s.through dst (dst / 64) (fun j => ⟨0, false, BitVec.ofNat 11 j⟩) v2 flow

/-- The non-minimal route whose VIA the hash draws from the chassis other than source and destination; it has no 1.2 link. -/
def State.nonMinimal (s : State) (dst flow : Nat) : Option Route :=
  let vs := (List.range s.nChassis).filter fun v => v != s.chassis && v != dst / 64
  (pickOne vs (Config.viaHash s.node dst flow)).bind fun v =>
    s.through dst v (fun j => ⟨BitVec.ofNat 10 v, true, BitVec.ofNat 11 j⟩) true flow

/-- First link of this device toward a global index. -/
def State.firstLink (s : State) (j : Nat) : Nat :=
  let x := s.portOf j
  if x.1 = s.position then x.2 else localLink s.position x.1

def slotsOf (p : Packet) : Nat := 1 + p.len.toNat

/-- Slots waiting in a link's output queue (R272). -/
def State.queued (s : State) (l : Nat) : Nat := ((s.link l).outQ.map slotsOf).sum

/-- The route of a packet to a node (R271, R272, R274); `pinned`: R195 pins it, and it takes no non-minimal route. -/
def State.route (s : State) (p : Packet) (pinned : Bool) (flow : Nat) : Option Route :=
  let dst := p.dst.toNat
  if dst / 64 = s.chassis then
    let l := localLink s.position (dst % 64)
    if s.linkAlive l && !s.excluded s.position l && (!p.only2 || s.linkV2 l) then some ⟨0, false, 0⟩
    else s.detour (dst % 64)
  else
    match s.minimalTo dst p.only2 flow with
    | none => none
    | some m =>
      if p.cls == .request && !pinned && s.flag F.LNK_SYSCFG_ADAPT && decide (2 < s.nChassis) then
        match s.nonMinimal dst flow with
        | none => some m
        | some r =>
          if 2 * s.queued (s.firstLink r.gsel.toNat) + 64 * s.fld F.LNK_SYSCFG_ADTHR < s.queued (s.firstLink m.gsel.toNat) then
            some r
          else some m
      else some m

/-- The link by which a packet leaves this device, from its header alone; none where it has arrived (R271). -/
def State.nextLink (s : State) (p : Packet) : Option Nat :=
  let k := s.chassis
  let q := s.position
  let dk := p.dst.toNat / 64
  let dp := p.dst.toNat % 64
  let hop (t : Nat) : Option Nat := if t = q then none else some (localLink q t)
  let toGlobal (j : Nat) : Option Nat := some (s.firstLink j)
  if p.dst.toNat = s.node then none
  else if dk = k then
    if p.nm && decide (p.src.toNat / 64 = k) && decide (q ≠ p.gsel.toNat % 64) then hop (p.gsel.toNat % 64)
    else hop dp
  else if p.nm && decide (p.via.toNat = k) && decide (p.src.toNat / 64 ≠ k) then
    toGlobal (viaIndex s.nChassis k dk p.gsel.toNat)
  else toGlobal p.gsel.toNat

/-! ## Virtual channels and credits (R250, R251) -/

/-- Credit of a whole receive buffer per virtual channel, in 16-byte slots (Table 8.3). -/
def creditsFull : List Nat := [8192, 8192, 8192, 1024, 1024, 4096, 4096, 4096, 512, 512, 512, 512, 512]

/-- The virtual channel of a packet on a link: a BARRIER on a 1.2 link, or on a route that includes one, goes as a request all the
way (R258, R274). -/
def State.vcOn (s : State) (l : Nat) (p : Packet) : Nat :=
  let h := p.hops.toNat
  let old := !s.linkV2 l || (s.linksOf p.src.toNat p.dst.toNat ⟨p.via, p.nm, p.gsel⟩).any s.isOld
  match if p.ptype = PT.barrier ∧ old then Cls.request else p.cls with
  | .request => min h 4
  | .response => 5 + min h 4
  | .control => 10 + min h 2

/-- What the wire of a 1.2 link carries of a packet: zero route fields, no epoch (Table 8.6). -/
def State.onWire (s : State) (l : Nat) (p : Packet) : Packet :=
  if s.linkV2 l then p
  else { p with via := 0, nm := false, gsel := 0, tag := if p.ptype = PT.contrib then 0 else p.tag }

/-- DATA flits that a packet takes when it starts a flit of its own (R247; log entry 11). -/
def flitsOf (p : Packet) : Nat := (slotsOf p + 14) / 15

/-- A packet enters the retry buffer as its flits (R248); `q` is what the wire carries of it. The slots behind it are padding. -/
def Link.buffer (x : Link) (p q : Packet) : Link :=
  let n := flitsOf p
  let bytes := ofWords q.header ++ q.payload
  { x with
    retry := x.retry ++ (List.range n).map fun i =>
      let b := (bytes.drop (240 * i)).take 240
      { seq := x.txSeq + BitVec.ofNat 12 i, sop := if i = 0 then 1 else 0, body := b ++ List.replicate (240 - b.length) 0
        ends := if i + 1 = n then [p] else [] }
    txSeq := x.txSeq + BitVec.ofNat 12 n }

/-- Send from a queue in order: a packet waits for credit of its channel behind earlier packets of that channel, or for
room in the retry buffer. Answers the link and the packets kept. -/
def State.drain (s : State) (l : Nat) : List Packet → List Nat → Link → Link × List Packet
  | [], _, x => (x, [])
  | p :: r, blocked, x =>
    let v := s.vcOn l p
    let have_ := x.credits.getD v 0
    if blocked.contains v || decide (have_ < slotsOf p) || decide (1024 < x.retry.length + flitsOf p) then
      let y := s.drain l r (v :: blocked) x
      (y.1, p :: y.2)
    else s.drain l r blocked (({ x with credits := x.credits.set v (have_ - slotsOf p) }).buffer p (s.onWire l p))

/-! ## Flits that leave (R245 to R248) -/

/-- A flit of a header word and 15 slots, with its CRC (Table 8.2, R246). -/
def flitBits (w0 : Nat) (body : List Byte) : BitVec 2048 :=
  let lead := toBytes 8 w0
  BitVec.ofNat 2048 (ofBytes (lead ++ toBytes 8 (crc32 (lead ++ List.replicate 4 0 ++ body)) ++ body))

/-- The number of a channel on the wire: over 1.2 the response channels are 3 to 5 (Table 8.6). -/
def wireVc (v2 : Bool) (v : Nat) : Nat := if v2 || decide (v < 3) then v else v - 2

/-- A flit leaves: it carries the last SEQ accepted, and returns the credit owed on one channel, the lowest with any (log entry
106). A NAK that nothing was accepted before names 0xFFF. -/
def State.sendFlit (s : State) (l kind : Nat) (seq : BitVec 12) (sop : BitVec 15) (body : List Byte) : State :=
  let x := s.link l
  let v := x.owed.findIdx fun n => decide (0 < n)
  let n := min 0x1FFF (x.owed.getD v 0)
  let ack := if kind = 2 then some (x.rxLast.getD 0xFFF) else x.rxLast
  let w0 := kind * 2 ^ 60 + seq.toNat * 2 ^ 48 + (ack.getD 0).toNat * 2 ^ 36 + b2n ack.isSome * 2 ^ 35 + sop.toNat * 2 ^ 20
    + (if n = 0 then 0 else wireVc (s.linkV2 l) v) * 2 ^ 16 + n * 2 ^ 3
  (s.modLink l fun x => { x with ackDue := false, owed := x.owed.modify v (· - n) }).emit (.flit l (flitBits w0 body))

def State.sendData (s : State) (l : Nat) (f : DataFlit) : State := s.sendFlit l 1 f.seq f.sop f.body

/-- IDLE flits return what no DATA flit has: the acknowledgement and all credit owed (R247, R251). -/
def State.returns (s : State) (l : Nat) : State :=
  if !s.linkUp l then s
  else (List.range 16).foldl (fun s _ =>
    let x := s.link l
    if x.ackDue || x.owed.any (fun n => decide (0 < n)) then s.sendFlit l 0 0 0 (List.replicate 240 0) else s) s

/-- Send what a link's queue can send while the link is up (R251). -/
def State.flush (s : State) (l : Nat) : State :=
  if !s.linkUp l then s
  else
    let x := s.link l
    let y := s.drain l x.outQ [] x
    let s1 := s.modLink l fun _ => { y.1 with outQ := y.2 }
    ((y.1.retry.drop x.retry.length).foldl (fun s f => s.sendData l f) s1).returns l

/-- The slots of a packet have left the receive buffer: the credit for them is owed (R251). -/
def State.owes (s : State) (l : Nat) (p : Packet) : State :=
  (s.modLink l fun x => { x with owed := x.owed.modify (s.vcOn l p) (· + slotsOf p) }).returns l

/-- A packet leaves the receive buffer of its link, and its credits return. -/
def State.unbuffer (s : State) (l : Nat) (p : Packet) : State := (s.modLink l fun x => { x with rxBuf := x.rxBuf.erase p }).owes l p

/-- A packet is refused at the link it came by (R259, R261, R270). -/
def State.refuse (s : State) (l : Nat) : State := s.count F.LNK_EVENT_REFUSED 1 l

/-! ## Injection and loss -/

/-- The notice of a lost packet (R263). -/
def State.notice (s : State) (p : Packet) (l : Nat) : Packet :=
  { Packet.blank PT.readResp p.src.toNat s.node with
    tag := 0xFFFF
    len := 2
    addr := 0x0C
    payload := ofWords p.header ++ toBytes 2 s.node ++ [BitVec.ofNat 8 l] ++ List.replicate 13 0 }

/-- A response or notice leaves on the link its header names, or is lost with no notice. -/
def State.leave (s : State) (p : Packet) : State :=
  match s.nextLink p with
  | none => s
  | some l =>
    if s.linkAlive l then (s.modLink l fun x => { x with outQ := x.outQ ++ [p] }).flush l
    else s.count F.LNK_EVENT_LOST 1 l

/-- A response or notice is injected with a route of its own. -/
def State.respond (s : State) (p : Packet) : State :=
  match s.route p true agentSeq with
  | none => s.count F.LNK_EVENT_LOST 1 (localLink s.position (p.dst.toNat % 64))
  | some r => (s.leave (p.withRoute r)).drawn

/-- A packet is lost at a link: it is counted, and a request or control packet gives its source a notice; the device's own
is due to itself (R263). -/
def State.lose (s : State) (p : Packet) (l : Nat) : State :=
  let s := s.count F.LNK_EVENT_LOST 1 l
  if p.cls == .response then s
  else if p.src.toNat = s.node then s.modNet fun n => { n with selfLost := n.selfLost ++ [(p, l)] }
  else s.respond (s.notice p l)

/-- A packet leaves by the link its header names. -/
def State.forward (s : State) (p : Packet) : State :=
  match s.nextLink p with
  | none => s
  | some l =>
    if s.linkAlive l then (s.modLink l fun x => { x with outQ := x.outQ ++ [p] }).flush l else s.lose p l

/-- The source injects a packet of a flow on a route, chosen here unless it is given; the route taken is answered (R271). -/
def State.inject (s : State) (p : Packet) (pin : Option Route) (pinned : Bool) (flow : Nat) : State × Option Route :=
  match pin with
  | some r => (s.forward (p.withRoute r), some r)
  | none =>
    match s.route p pinned flow with
    | some r => ((s.forward (p.withRoute r)).drawn, some r)
    | none =>
      let l := if p.dst.toNat / 64 = s.chassis then localLink s.position (p.dst.toNat % 64) else 63
      (if p.only2 && s.linkAlive l && !s.linkV2 l then s else s.lose p l, none)

/-- Inject with no route to keep. -/
def State.send (s : State) (p : Packet) : State := (s.inject p none false agentSeq).1

/-- A READRESP to a node: it reports and clears the refusal bits kept for that node (R261). -/
def State.readResp (s : State) (dst : Nat) (tag : BitVec 16) (status : Nat) (data : List Byte) : State :=
  let bits := Sparse.get (false, false) s.net.refusal dst
  let p : Packet := { Packet.blank PT.readResp dst s.node with
    tag := tag, len := BitVec.ofNat 6 (data.length / 16), pf := bits.1, x := if bits.2 then 1 else 0,
    addr := BitVec.ofNat 40 (status % 256), payload := data }
  (s.modNet fun n => { n with refusal := Sparse.drop n.refusal dst }).respond p

/-- The 4-byte link-state entry of a link or, for 127, of the device itself (R265). -/
def stateEntry (l st : Nat) (v2 : Bool) (gidx : Nat) : List Byte :=
  toBytes 4 (l % 128 * 2 ^ 25 + st % 8 * 2 ^ 22 + b2n v2 * 2 ^ 21 + gidx % 2048 * 2 ^ 10)

/-- A link-state notice with entries (R265). A place left over in its last slot repeats the last entry (log entry 58): a place of
zeros would name link 0. -/
def State.stateNotice (s : State) (dst : Nat) (es : List (List Byte)) : Packet :=
  let n := (es.length + 3) / 4
  let last := es.getLastD (stateEntry 127 0 false 0x7FF)
  let full := es ++ List.replicate (4 * n - es.length) last
  { Packet.blank PT.message dst s.node with tag := 0x8000, len := BitVec.ofNat 6 n, payload := full.flatten }

/-- The entry that describes a link of this device. -/
def State.ownEntry (s : State) (l : Nat) : List Byte := stateEntry l (s.linkSt l) (s.linkV2 l) (s.gidxOf l)

/-- The entry that describes the device: 6 fenced, else up (R265). -/
def State.devEntry (s : State) : List Byte := stateEntry 127 (if s.safe then 6 else 2) false 0x7FF

/-- A notice to each of the 63 chassis peers (R265). -/
def State.tellPeers (s : State) (es : List (List Byte)) : State :=
  (List.range 64).foldl (fun s q =>
    if q = s.position then s else s.send (s.stateNotice (s.chassis * 64 + q) es)) s

/-- One of the device's links changed (R265). -/
def State.tellLink (s : State) (l : Nat) : State := s.tellPeers [s.ownEntry l]

end Sys2Proof.Machine
end

