-- ==== Sys2Proof/Machine/Write.lean ====
section
/-! DEFINITION. Writes through translation (R174, R179, R186): one range of bytes at a device VA, page by page. A write of part
of a poisoned unit is not performed. The writes of an agent, which walk the page table and meet cell errors, are in
Machine/Access.lean and Machine/Agents.lean. -/

namespace Sys2Proof.Machine

/-- Why an access at a VA failed. -/
inductive MErr where
  /-- Translation failed with a CAUSE of Table 6.7. -/
  | mmu (cause : Nat)
  /-- The unit is poisoned, or a read of it was uncorrectable (R186). -/
  | ecc
  /-- The port cannot carry the request, or the host did not answer it (R379). -/
  | port
deriving DecidableEq, Repr

/-- The pieces of a range that lie in one 4 KiB page each: VA and length. -/
def pageChunks : Nat → Nat → Nat → List (Nat × Nat)
  | 0, _, _ => []
  | k + 1, va, n =>
    if n = 0 then [] else
      let m := min n (4096 - va % 4096)
      (va, m) :: pageChunks k (va + m) (n - m)

def chunksOf (va n : Nat) : List (Nat × Nat) := pageChunks (n / 4096 + 2) va n

/-- Keys of the HBM bytes from a PA on. -/
def State.keysFrom (s : State) (pa n : Nat) : List Nat := (List.range n).map fun i => s.paKey (pa + i)

/-- The units of which a run of bytes covers a part only. Placing keeps each aligned 16 bytes together (R182): a unit is covered
whole where both its halves are. -/
def State.partUnits (s : State) (pa n : Nat) : List Nat :=
  let halves := (List.range ((pa + n) / 16 - (pa + 15) / 16)).map fun i => s.paKey (16 * ((pa + 15) / 16 + i)) / 16
  let ends := if n = 0 then [] else [s.paKey pa / 32, s.paKey (pa + n - 1) / 32]
  (ends ++ halves.map (· / 2)).eraseDups.filter fun u => !(halves.contains (2 * u) && halves.contains (2 * u + 1))

/-- Write HBM bytes: their stacks wake (R368); a whole unit loses its poison and its cell error; a part of a poisoned unit is
refused (R186). -/
def State.writeHbm (s : State) (pa : Nat) (bytes : List Byte) : State × Option MErr :=
  let ks := s.keysFrom pa bytes.length
  let part := s.partUnits pa bytes.length
  let whole (u : Nat) : Bool := (unitsOf ks).contains u && !part.contains u
  if part.any s.isPoisoned then (s.stir ks, some .ecc)
  else
    let s1 := s.setHbmBytes ks bytes
    (s1.modHbm fun h => { h with
      asleep := (s.stir ks).hbm.asleep, idle := (s.stir ks).hbm.idle
      poison := h.poison.filter fun u => !whole u
      latent := h.latent.filter fun e => !whole e.1 }, none)

/-- Write bytes where their VA leads, all in one page. -/
def State.storeAt (s : State) (agent va : Nat) (x : Xlat) (bytes : List Byte) : State × Option MErr :=
  let s := s.hold va x.held
  match x.place with
  | .hbm pa => s.writeHbm pa bytes
  | .local_ c off =>
    if c < 64 ∧ localOk off then (s.setLocalBytes c off bytes, none) else (s.logFault agent 7 va, some (.mmu 7))
  | .host p bus => if s.portLive p then (s.setHostBytes p bus bytes, none) else (s, some .port)

/-- Whether every page of a range translates for an access; the first CAUSE otherwise, with its VA. -/
def State.checkRange (s : State) (a : Acc) (upd : Bool) (va n : Nat) : Option (Nat × Nat) :=
  (chunksOf va n).findSome? fun c =>
    match s.xlate a upd c.1 with
    | .error e => some (e.1, c.1)
    | .ok x => match x.place with
      | .local_ k off => if k < 64 ∧ localOk off then none else some (7, c.1)
      | _ => none

/-- The page table entries that a check of a range reads. -/
def State.rangeReads (s : State) (a : Acc) (va n : Nat) : List Nat :=
  (chunksOf va n).flatMap fun c => match s.xlate a false c.1 with
    | .error e => e.2
    | .ok x => x.reads

/-- AGENT codes of Table 6.7. -/
def agentDma (n : Nat) : Nat := 0x40 + n
def agentMse (k : Nat) : Nat := 0x60 + k
def agentLink (l : Nat) : Nat := 0x68 + l / 24
def agentBar4 (p : Nat) : Nat := 0x71 + p

end Sys2Proof.Machine
end

