-- ==== Sys2Proof/Machine/Notes.lean ====
section
/-! DEFINITION. Error records as they are written (R331 to R334), and what they reach in Ndomir: its event queue (R417), its
alerts (R436), its two-bank stores (R420), the ledger (R427) and the cellar's state (R343). The safe state, which an overflow of
the ring brings, is in Machine/Records.lean. -/

namespace Sys2Proof.Machine

/-! ## Two-bank stores (R420) -/

/-- a is higher than b when (a - b) mod 2^32 lies from 1 to 2^31 - 1. -/
def seqHigher (a b : Word) : Bool := decide (1 ≤ (a - b).toNat ∧ (a - b).toNat < 2 ^ 31)

/-- Bank b wins the comparison. -/
def storeWinsB {α : Type} (st : Store α) : Bool := st.b.valid && (!st.a.valid || seqHigher st.b.seqno st.a.seqno)

/-- The content of a store; none where both banks are invalid. -/
def storeValue {α : Type} (st : Store α) : Option α :=
  if storeWinsB st then some st.b.val else if st.a.valid then some st.a.val else none

/-- A write goes to the bank that did not win, with a sequence number one higher. -/
def storeWrite {α : Type} (st : Store α) (v : α) : Store α :=
  if storeWinsB st then { st with a := { valid := true, seqno := st.b.seqno + 1, val := v } }
  else { st with b := { valid := true, seqno := (if st.a.valid then st.a.seqno else 0) + 1, val := v } }

/-! ## Ndomir's alerts and events (R417, R436) -/

def MA.evq : Nat := 0
def MA.fwready : Nat := 1
def MA.wiped : Nat := 2
def MA.conflict : Nat := 3

/-- Set a bit of MGT.ALERT; a change from 0 to 1 of an enabled bit raises MGMT. -/
def State.mgtAlert (s : State) (bit : Nat) : State :=
  let w := (s.reg .MGT_ALERT 0 0).toNat
  if w.testBit bit then s
  else
    let s := s.setReg .MGT_ALERT 0 0 (BitVec.ofNat 32 (w ||| 2 ^ bit))
    if (s.fld F.MGT_ALERTEN_EN).testBit bit then s.raiseBoth 2 else s

/-- A management message waits for the I3C controller: an in-band interrupt with the mandatory byte of a pending message (log
entry 28), unless DISEC has disabled them or the device has no address; the interrupt then pends (R414). -/
def State.raiseIbi (s : State) : State :=
  if s.nd.events.toNat % 2 = 1 && s.nd.da.isSome then (s.emit (.ibi 0xAE)).modNd fun n => { n with pendingIbi := false }
  else s.modNd fun n => { n with pendingIbi := true }

/-- A message that waits on a medium: over I3C it takes an interrupt. -/
def State.announce (s : State) (md : Medium) : State := if md = .i3c then s.raiseIbi else s

/-- The transmission unit of a medium: 64 B on PCIe; on I3C up to 256 B, as the maximum read length allows (R415, log entry 28). -/
def State.unitOf (s : State) (md : Medium) : Nat := if md = .i3c then max 64 (min 256 s.nd.mrl.toNat) else 64

/-- The data of a message with so many bytes before it, by the packets of a transmission unit that carry it. -/
def mctpPackets (unit hdr : Nat) (data : List Byte) : List (List Byte) :=
  (List.range ((hdr + data.length + unit - 1) / unit)).map fun i =>
    (data.drop (unit * i - hdr)).take (unit * (i + 1) - hdr - (unit * i - hdr))

/-- Bytes put into a list at an offset. -/
def overlay (l : List Byte) (off : Nat) (b : List Byte) : List Byte := l.take off ++ b ++ l.drop (off + b.length)

/-- A Common Platform Error Record of one section (R334): the header with its severity, the section descriptor with the Holtob
section type and the FRU text GM96, and the record as body. The places are UEFI's, and what the manual does not fill is free (log
entry 109). -/
def cperBytes (sev : Nat) (body : List Byte) : List Byte :=
  let guid := toBytes 4 0x3C5E91A4 ++ toBytes 2 0x7D02 ++ toBytes 2 0x4B1F ++ [0x86, 0xE3, 0x2A, 0x59, 0x0C, 0x77, 0xD1, 0x48]
  let parts : List (Nat × List Byte) :=
    [(0, [0x43, 0x50, 0x45, 0x52]), (6, toBytes 4 0xFFFFFFFF), (10, toBytes 2 1), (12, toBytes 4 sev), (20, toBytes 4 264),
     (128, toBytes 4 200), (132, toBytes 4 64), (144, guid), (176, toBytes 4 sev),
     (180, [0x47, 0x4D, 0x39, 0x36] ++ List.replicate 16 0)]
  parts.foldl (fun l e => overlay l e.1 e.2) ((List.range 200).map Config.cperByte) ++ body

/-- An event in an answer: its class and its data. -/
def Event.bytes : Event → List Byte
  | .cper _ sev body => [0x07] ++ cperBytes sev body
  | .sensor i v => [0x00] ++ toBytes 2 i ++ [BitVec.ofNat 8 v]

/-- An event goes to the receiver as PlatformEventMessage: the format version, the terminus, and the event. -/
def State.tell (s : State) (e : Event) : State :=
  let md := s.nd.recvMedium
  (s.emit (.platformEvent md (mctpPackets (s.unitOf md) 4 ([0x01, s.nd.tid] ++ e.bytes)))).announce md

/-- The front event goes to the receiver, where one is set and no message is unacknowledged. -/
def State.sendEvent (s : State) : State :=
  match s.nd.queue, s.nd.receiver, s.nd.unacked with
  | e :: _, some _, none => (s.modNd fun n => { n with unacked := some 0 }).tell e
  | _, _, _ => s

def Event.isCorrected : Event → Bool
  | .cper _ sev _ => sev == 2
  | .sensor _ _ => false

/-- Drop the oldest event of CPER severity corrected; none where there is no such event. -/
def displaceOldest : List Event → Option (List Event)
  | [] => none
  | e :: r => if e.isCorrected then some r else (displaceOldest r).map (e :: ·)

/-- The event queue as it becomes, with MGT.STAT.EVPEND. -/
def State.setEvents (s : State) (q : List Event) : State :=
  (s.modNd fun n => { n with queue := q }).setFld F.MGT_STAT_EVPEND q.length

/-- Queue an event (R417). A message under way to the receiver is the front one, so a displaced front ends it. -/
def State.queueEvent (s : State) (e : Event) : State :=
  if s.nd.queue.length < 256 then (s.setEvents (s.nd.queue ++ [e])).sendEvent
  else
    let lost := (s.count F.MGT_STAT_EVLOST 1).mgtAlert MA.evq
    match displaceOldest s.nd.queue with
    | none => lost
    | some q =>
      let s1 := lost.setEvents (q ++ [e])
      if s.nd.queue.head? = q.head? then s1 else (s1.modNd fun n => { n with unacked := none }).sendEvent

/-- The device state (R408): 0 starting, 1 ready, 2 safe, 3 wiping, 4 refurbishing, 5 recovery; 0 while a reset holds (R445). -/
def State.devStateNow (s : State) : Nat :=
  if s.nd.recovery then 5
  else if s.pwr.hold.isSome then 0
  else if s.nd.wiping.isSome then 3
  else if s.nd.refurbishing then 4
  else if s.safe then 2
  else if s.ready then 1
  else 0

/-- Sensor 0x0100 gives the device state; a change is an event. -/
def State.setDevState (s : State) (v : Nat) : State :=
  if s.nd.devState = v then s else (s.modNd fun n => { n with devState := v }).queueEvent (.sensor 0x100 v)

/-- The throttle state of sensor 0x0102. -/
def State.setThrottleState (s : State) (v : Nat) : State :=
  if s.nd.throttleState = v then s else (s.modNd fun n => { n with throttleState := v }).queueEvent (.sensor 0x102 v)

/-! ## Log, ledger and configuration store -/

/-- Ndomir adds an entry to its log. -/
def State.logEntry (s : State) (e : LogEntry) : State := s.modNd fun n => { n with logBuf := n.logBuf ++ [e] }

/-- Ndomir writes the log to NOR. -/
def State.writeLog (s : State) : State := s.modNd fun n => { n with log := storeWrite n.log n.logBuf }

/-- The ledger counts. -/
def State.led (s : State) (f : Ledger → Ledger) : State := s.modNd fun n => { n with live := f n.live }

/-- MGT.LIFE and MGT.HOURS show the ledger and the owner. -/
def State.lifeRegs (s : State) : State :=
  let s := s.setFld F.MGT_LIFE_GRADE (s.nd.live.grade % 4 * (if s.nd.live.grade = 0xFF then 0 else 1))
  let s := s.setFld F.MGT_LIFE_OWNED (b2n s.nd.owner.isSome)
  let s := s.setFld F.MGT_LIFE_LOST (b2n s.nd.live.lost)
  s.setFld F.MGT_LIFE_TRANSFERS (min s.nd.live.transfers 0xFFFF)

/-- Ndomir writes the ledger to NOR (R427); MGT.HOURS shows POWERED as last written. -/
def State.writeLedger (s : State) : State :=
  ((s.modNd fun n => { n with ledger := storeWrite n.ledger n.live }).setReg .MGT_HOURS 0 0
    (BitVec.ofNat 32 s.nd.live.powered)).lifeRegs

/-- Count and write. -/
def State.ledNow (s : State) (f : Ledger → Ledger) : State := (s.led f).writeLedger

/-- What the configuration store holds; that of a new part where both banks are invalid. -/
def State.stored (s : State) : ConfigStore := (storeValue s.nd.config).getD ConfigStore.reset

/-- The configuration store as it now stands (Table 13.5): cellar map, redirection table, keys, tenant region. The map and the
reserve counts are in the registers from steps 8 and 7 on; before, they stay as stored (R439, R440, R448). -/
def State.configNow (s : State) (wipe : Option Nat) : ConfigStore :=
  { cmap := if 8 ≤ s.pwr.step then (List.range 16).map fun q => s.reg .SAF_CMAP q 0 else s.stored.cmap
    slots := s.saf.slots
    shed := s.pwr.shed
    redirect := s.hbm.redirect
    hbmret := if 7 ≤ s.pwr.step then (List.range 12).map fun k => s.fld F.MEM_HBMRET_USED k else s.stored.hbmret
    spareLanes := s.nd.spareLanes
    owner := s.nd.owner
    tenants := s.nd.tenants
    pendingWipe := wipe
    tenantRegion := s.nd.tenantRegion
    lcores := s.nd.lcores }

/-- The pending-wipe mark that the store holds (R431). -/
def State.wipeMark (s : State) : Option Nat :=
  match storeValue s.nd.config with
  | some c => c.pendingWipe
  | none => none

/-- Ndomir writes the configuration store, with a pending-wipe mark; MGT.LIFE.WIPEPEND shows the mark. -/
def State.writeConfigWith (s : State) (wipe : Option Nat) : State :=
  (s.modNd fun n => { n with config := storeWrite n.config (s.configNow wipe) }).setFld F.MGT_LIFE_WIPEPEND (b2n wipe.isSome)

/-- Ndomir writes the configuration store; the mark stays. -/
def State.writeConfig (s : State) : State := s.writeConfigWith s.wipeMark

/-! ## The cellar's state (R338, R343) -/

/-- Spare nibs of a slot in use. -/
def Slot.nibsUsed (x : Slot) : Nat :=
  (x.bRet.filter Option.isSome).length + (x.fRet.filter Option.isSome).length

/-- Spare lanes of a slot in use. -/
def Slot.lanesUsed (x : Slot) : Nat := x.lanes0.length + x.lanes1.length

/-- Consumed spares of the pools: those in use, and all of a retired slot's. -/
def State.nibsUsed (s : State) : Nat :=
  ((List.range 80).map fun p => if s.isRetired p then 6 else (s.slot p).nibsUsed).sum

def State.lanesUsed (s : State) : Nat :=
  ((List.range 80).map fun p => if s.isRetired p then 4 else (s.slot p).lanesUsed).sum

def State.slotsRetired (s : State) : Nat := ((List.range 80).filter s.isRetired).length

/-- Logical cores available. -/
def State.coresAvail (s : State) : Nat := ((List.range 64).filter s.avail).length

/-- A stack's reserve of blocks (R187). -/
def reserveBlocks : Nat := 262144

/-- The grade that the cellar state earns (Table 10.8): 0 A, 1 B, 2 C, 3 withdrawn. -/
def State.gradeNow (s : State) : Nat :=
  let n := s.coresAvail
  let anyStack (lim : Nat) : Bool := (List.range 12).any fun k => decide (lim < s.fld F.MEM_HBMRET_USED k)
  if n < 60 || anyStack (reserveBlocks - 1) || s.pwr.shed.any (fun x => decide (2 < x)) then 3
  else if n < 64 then 2
  else if (List.range 16).any (fun q => s.fld F.SAF_CMAP_SPARE q == 7) || decide (240 < s.nibsUsed)
      || decide (160 < s.lanesUsed) || decide (24 < s.nd.spareLanes.length) || anyStack (reserveBlocks / 2) then 1
  else 0

/-- A share in percent; where it is no whole number, one of its two neighbours (a free value, log entry 12). -/
def State.percent (s : State) (x tot : Nat) : Nat :=
  if 100 * x % tot = 0 then 100 * x / tot else 100 * x / tot + (if Config.choice s.free then 1 else 0)

/-- SAF.CELLAR shows the cellar (Table 10.12). -/
def State.showCellar (s : State) : State :=
  let s := s.setFld F.SAF_CELLAR_GRADE s.gradeNow
  let s := s.setFld F.SAF_CELLAR_LCORES s.coresAvail
  let s := (s.setFld F.SAF_CELLAR_NIBS (s.percent (480 - s.nibsUsed) 480)).drawn
  (s.setFld F.SAF_CELLAR_LANES (s.percent (320 - s.lanesUsed) 320)).drawn

/-- A resource of the cellar has been consumed or mapped: registers, configuration store and ledger follow (R420, R427). -/
def State.cellarChanged (s : State) : State :=
  let s := s.showCellar.writeConfig
  s.ledNow fun l => { l with
    nibs := max l.nibs s.nibsUsed, lanes := max l.lanes s.lanesUsed, slots := max l.slots s.slotsRetired,
    linkLanes := max l.linkLanes s.nd.spareLanes.length, phases := max l.phases s.pwr.shed.sum }

/-! ## Records -/

/-- The step running. -/
def State.stepNo (s : State) : Nat := (s.reg .SEQ_STEP 0 0).toNat

/-- Where a record's unit is (Table 10.3, bytes 0x10). -/
structure Loc where
  die : Nat
  cluster : Nat
  slot : Nat
  unit : Nat
  lcore : Nat
deriving DecidableEq, Repr

def hostLoc : Loc := ⟨0x30, 0xFF, 0xFF, 0xFF, 0xFF⟩

/-- A physical slot, with the logical core it carries. -/
def State.slotLoc (s : State) (p unit : Nat) : Loc :=
  ⟨p / 20, p % 20 / 5, p % 5, unit, (s.logicalOf p).getD 0xFF⟩

/-- The slot of a logical core. -/
def State.coreLoc (s : State) (c unit : Nat) : Loc :=
  let p := s.phys c
  ⟨p / 20, p % 20 / 5, p % 5, unit, c⟩

def mseLoc (k : Nat) : Loc := ⟨0x10 + k, 0xFF, 0xFF, 0xFF, 0xFF⟩
def stackLoc (k : Nat) : Loc := ⟨0x10 + k / 2, 0xFF, 0xFF, k, 0xFF⟩
def linkLoc (l : Nat) : Loc := ⟨0x20 + l / 24, 0xFF, 0xFF, l, 0xFF⟩

/-- Classes of Table 10.5. -/
def RC.corrected : Nat := 0
def RC.spared : Nat := 1
def RC.recovered : Nat := 2
def RC.degraded : Nat := 3
def RC.late : Nat := 4
def RC.fatal : Nat := 5
def RC.overflow : Nat := 6
def RC.program : Nat := 7

/-- What a record says beside its number, time, node, repeat count and CRC. -/
structure Rec where
  source : Nat
  cls : Nat
  level : Nat
  loc : Loc
  /-- For LATE the step of R325; otherwise the step running. -/
  step : Option Word := none
  bucket : Nat := 0x1FFF
  ophash : Nat := 0
  opcode : Nat := 0
  opdetail : Nat := 0
  rowmask : Nat := 0
  colmask : Nat := 0
  addr : Nat := 0
deriving DecidableEq, Repr

/-- The signature (R333). -/
def Rec.signature (r : Rec) : List Nat :=
  [r.loc.die, r.loc.cluster, r.loc.slot, r.loc.unit, r.source, r.opcode, r.ophash, r.rowmask, r.colmask]

/-- The unit that the rate limit of R332 goes by. -/
def Loc.key (l : Loc) : Nat := l.die * 2 ^ 24 + l.cluster * 2 ^ 16 + l.slot * 2 ^ 8 + l.unit

/-- Bytes 0x00 to 0x37 of a record (Table 10.3). -/
def Rec.body (r : Rec) (n time node step repeats : Nat) : List Byte :=
  toBytes 8 (n % 2 ^ 32 * 2 ^ 32 + r.level % 256 * 2 ^ 24 + r.source % 256 * 2 ^ 16 + r.cls % 256 * 2 ^ 8)
    ++ toBytes 8 time
    ++ toBytes 8 (r.loc.die % 256 * 2 ^ 56 + r.loc.cluster % 256 * 2 ^ 48 + r.loc.slot % 256 * 2 ^ 40
        + r.loc.unit % 256 * 2 ^ 32 + r.loc.lcore % 256 * 2 ^ 24 + node % 65536)
    ++ toBytes 8 (step % 2 ^ 32 * 2 ^ 32 + r.bucket % 8192 * 2 ^ 19)
    ++ toBytes 8 (r.ophash % 2 ^ 32 * 2 ^ 32 + r.opcode % 256 * 2 ^ 24 + r.opdetail % 2 ^ 24)
    ++ toBytes 8 (r.rowmask % 2 ^ 32 * 2 ^ 32 + r.colmask % 2 ^ 32)
    ++ toBytes 8 (r.addr % 2 ^ 48 * 2 ^ 16 + min repeats 65535)

/-- Occurrences of a signature since reset. -/
def repeatsOf (l : List (List Nat × Nat)) (g : List Nat) : Nat :=
  match l.find? fun e => e.1 == g with
  | some e => e.2
  | none => 0

/-- One more occurrence of a signature. -/
def bumpRepeat (l : List (List Nat × Nat)) (g : List Nat) : List (List Nat × Nat) :=
  (g, repeatsOf l g + 1) :: l.filter fun e => e.1 != g

/-- Records written. -/
def State.erTail (s : State) : Nat := (s.reg .SAF_ERTAIL 0 0).toNat
def State.erHead (s : State) : Nat := (s.reg .SAF_ERHEAD 0 0).toNat

/-- Free entries of the error ring (R331). -/
def State.erFree (s : State) : Nat := 64 - (s.erTail + 2 ^ 32 - s.erHead) % 2 ^ 32

/-- The sixteen 32-bit words of an entry of SAF.ERRING. -/
def State.putEntry (s : State) (e : Nat) (bytes : List Byte) : State :=
  (List.range 16).foldl (fun s j => s.setReg .SAF_ERRING e j (BitVec.ofNat 32 (ofBytes ((bytes.drop (4 * j)).take 4)))) s

/-- The severity of a class, in the codes of a CPER (Table 10.5). -/
def cperSeverity (cls : Nat) : Nat := if cls ≤ 1 then 2 else if cls ≤ 3 then 0 else if cls ≤ 6 then 1 else 3

/-- Write an entry in full, then advance SAF.ERTAIL; export it, and log and alert by its class (R331, R333, R334, R400). -/
def State.putRecord (s : State) (r : Rec) : State :=
  let s := s.tickTimer
  let time := s.dieTime r.loc.die
  let n := s.erTail
  let step := match r.step with
    | some w => w.toNat
    | none => s.stepNo
  let b := r.body n time s.node step (repeatsOf s.saf.repeats r.signature)
  let entry := b ++ toBytes 4 (crc32c b) ++ toBytes 4 0
  let s := s.putEntry (n % 64) entry
  let s := s.setReg .SAF_ERTAIL 0 0 (BitVec.ofNat 32 (n + 1))
  let s := if r.cls = RC.program then s else s.queueEvent (.cper n (cperSeverity r.cls) entry)
  if 4 ≤ r.cls ∧ r.cls ≤ 6 then ((s.logEntry (.errorRecord n)).writeLog).raiseBoth 1 else s

/-- The OVERFLOW record goes into the last free entry (R332). -/
def State.putOverflow (s : State) : State :=
  let o : Rec := { source := 0x11, cls := RC.overflow, level := 5, loc := hostLoc }
  (s.modSaf fun x => { x with repeats := bumpRepeat x.repeats o.signature, overflow := true }).putRecord o

/-- Note a record: written, held back or lost by the limits of R332. -/
def State.note (s : State) (r : Rec) : State :=
  let s := s.modSaf fun x => { x with repeats := bumpRepeat x.repeats r.signature }
  if s.saf.overflow || s.erFree = 0 then s.count F.SAF_ERDROP_UNCORR 1
  else if r.cls ≤ 1 then
    let s := s.tickTimer
    let now := s.dieTimer r.loc.die
    let last := s.saf.limited.find? fun e => e.1 == r.loc.key
    let near := match last with
      | some e => decide (now < e.2 + 1000000000)
      | none => false
    if s.erFree < 16 || near then s.count F.SAF_ERDROP_CORR 1
    else (s.modSaf fun x => { x with limited := (r.loc.key, now) :: x.limited.filter fun e => e.1 != r.loc.key }).putRecord r
  else if s.erFree = 1 then s.putOverflow.count F.SAF_ERDROP_UNCORR 1
  else s.putRecord r

end Sys2Proof.Machine
end

