-- ==== Sys2Proof/Machine/Access.lean ====
section
/-! DEFINITION. Reads of HBM that meet cell errors (R186), block retirement (R187), and reads and writes through translation,
all but the safe state that an overflow of the error ring brings and the retirement of slots: every agent's reads and writes,
which add these, are in Machine/Agents.lean, and SEQ writes its status with those of this file (log entry 13). -/

namespace Sys2Proof.Machine

/-- Insert into a rising list, once. -/
def insertNat (x : Nat) : List Nat → List Nat
  | [] => [x]
  | y :: r => if x < y then x :: y :: r else if x = y then y :: r else y :: insertNat x r

/-- The stack of a unit, and its first byte's stack offset. -/
def unitStack (u : Nat) : Nat := 32 * u / 2 ^ 36
def unitOffset (u : Nat) : Nat := 32 * u % 2 ^ 36

/-- The 4 KiB block of a unit. -/
def unitBlock (u : Nat) : Nat := u / 128

/-- The controller starts to retire a block: it takes the next free block of the stack's reserve (R187); the last one taken
is recorded (R342). -/
def State.noteRetire (s : State) (blk : Nat) : State :=
  let st := blk / 2 ^ 24
  let used := s.fld F.MEM_HBMRET_USED st
  if s.hbm.retiring.any (fun e => e.1 == blk) || (Sparse.find s.hbm.redirect blk).isSome || decide (reserveBlocks ≤ used) then s
  else
    let s := s.setFld F.MEM_HBMRET_USED (used + 1) st
    let s := (s.modHbm fun h => { h with retiring := h.retiring ++ [(blk, used)], blockCe := Sparse.drop h.blockCe blk }).showCellar
    if used + 1 = reserveBlocks then
      s.note { source := 0x14, cls := RC.degraded, level := 4, loc := stackLoc st }
    else s

/-- A corrected error of a unit: counted, recorded, and held against its block (R186, R187). The syndrome that the record
shows is a free value (log entry 14). -/
def State.noteCorrected (s : State) (u : Nat) : State :=
  let st := unitStack u
  let blk := unitBlock u
  let s := (s.count F.MEM_HBMCE_COUNT 1 st).led fun l => { l with hbmce := l.hbmce.modify st (satAdd 64 · 1) }
  let s := (s.note { source := 0x06, cls := RC.corrected, level := 4, loc := stackLoc st,
                     rowmask := Config.pick s.free, addr := unitOffset u }).drawn
  let n := Sparse.get 0 s.hbm.blockCe blk + 1
  let s := s.modHbm fun h => { h with blockCe := Sparse.put h.blockCe blk n }
  let thr := s.fld F.MEM_HBMCFG_RETTHR
  if thr ≠ 0 ∧ thr ≤ n then s.noteRetire blk else s

/-- An uncorrectable error of a unit: it is poisoned, counted and recorded once, and its block is retired (R186, R187). -/
def State.noteUncorrectable (s : State) (u : Nat) : State :=
  if s.isPoisoned u then s
  else
    let st := unitStack u
    let s := s.modHbm fun h => { h with poison := insertNat u h.poison }
    let s := (s.count F.MEM_HBMUE_COUNT 1 st).led fun l => { l with hbmue := satAdd 32 l.hbmue 1 }
    let s := (s.note { source := 0x07, cls := RC.recovered, level := 4, loc := stackLoc st,
                       rowmask := Config.pick s.free, addr := unitOffset u }).drawn
    s.noteRetire (unitBlock u)

/-- What a read finds in a unit takes effect, and the cells hold corrected data from then on. -/
def State.noteMeet (s : State) (u : Nat) (found : ScrubResult) : State :=
  match found with
  | .clean => s
  | .corrected => if s.isPoisoned u then s else s.noteCorrected u
  | .uncorrectable => s.noteUncorrectable u

/-- A read of a unit meets the cell error that lies in it, if one does. -/
def State.noteUnit (s : State) (u : Nat) : State :=
  match Sparse.find s.hbm.latent u with
  | none => s
  | some f => (s.modHbm fun h => { h with latent := Sparse.drop h.latent u }).noteMeet u f

/-- Read HBM bytes: their stacks wake (R368); uncorrectable where a unit is poisoned. -/
def State.noteHbm (s : State) (ks : List Nat) : State × Except MErr (List Byte) :=
  let us := unitsOf ks
  let s := us.foldl State.noteUnit (s.stir ks)
  if us.any s.isPoisoned then (s, .error .ecc) else (s, .ok (ks.map s.hbmByte))

/-- Read the page table entries of a walk; true where one is uncorrectable. -/
def State.noteWalk (s : State) (reads : List Nat) : State × Bool :=
  let ks := reads.map s.paKey
  let us := ks.map (· / 32)
  let s := us.foldl State.noteUnit (s.stir ks)
  (s, us.any s.isPoisoned)

/-- The words of a slot's storage: its local memory and tile buffers by offset / 8, then the register pairs of its group slots, then
the words of its instruction cache. -/
def regWord0 : Nat := 0x140000
def cacheWord0 : Nat := 0x1C0000

/-- The word of a group slot's register pair that holds a register of a lane. -/
def regWord (g lane n : Nat) : Nat := regWord0 + (64 * g + lane) * 128 + n / 2

/-- The word of the instruction cache in which a word of code lies. -/
def cacheWord (pc : Nat) : Nat := cacheWord0 + pc / 8 % 8192

/-- A read meets a word of core SRAM in error: it is recorded, and rewritten unless it fails again (Table 10.6). The syndrome is a
free value (log entry 14). -/
def State.noteWord (s : State) (p : Nat) (e : Nat × BadWord) : State :=
  let cls := if !e.2.corrected then RC.recovered else if e.2.again then RC.spared else RC.corrected
  let s := (s.note { source := 0x04, cls := cls, level := 2, loc := s.slotLoc p 0xFF, rowmask := Config.pick s.free
                     addr := if e.1 % 2 ^ 21 < regWord0 then e.1 % 2 ^ 21 * 8 else 0 }).drawn
  s.modSaf fun x => { x with
    sram := if e.2.again then Sparse.put x.sram e.1 { e.2 with met := true } else Sparse.drop x.sram e.1 }

/-- Read spans of local bytes of a logical core: whether ECC delivers them, and whether a word fails again (R323). -/
def State.noteWords (s : State) (c : Nat) (spans : List (Nat × Nat)) : State × Bool × Bool :=
  let p := s.phys c
  let met := s.saf.sram.filter fun e => e.1 / 2 ^ 21 == p &&
    spans.any fun (o, n) => decide (e.1 % 2 ^ 21 * 8 < o + n ∧ o < e.1 % 2 ^ 21 * 8 + 8)
  met.foldl (fun a e => (a.1.noteWord p e, a.2.1 && e.2.corrected, a.2.2 || e.2.again)) (s, true, false)

/-- Read bytes that lie in one page. -/
def State.readChunk (s : State) (agent va n : Nat) : State × Except MErr (List Byte) :=
  match s.xlate .read false va with
  | .error e =>
    let w := s.noteWalk e.2
    if w.2 then (w.1, .error .ecc) else (w.1.logFault agent e.1 va, .error (.mmu e.1))
  | .ok x =>
    let w := s.noteWalk x.reads
    if w.2 then (w.1, .error .ecc)
    else
      let s := w.1.hold va x.held
      match x.place with
      | .hbm pa => s.noteHbm (s.keysFrom pa n)
      | .local_ c off =>
        if c < 64 ∧ localOk off then
          let y := s.noteWords c [(off, n)]
          (y.1, if y.2.1 then .ok (s.localBytes c off n) else .error .ecc)
        else (s.logFault agent 7 va, .error (.mmu 7))
      | .host p bus =>
        if !s.portLive p then (s.drawn, .error .port)
        else if Config.hostFails s.free then (s.drawn.readFailed p, .error .port)
        else (s.drawn, .ok (s.hostBytes p bus n))

/-- A write of part of a unit reads the rest of it, and so meets the cell errors that lie there. -/
def State.meetParts (s : State) (p : Place) (n : Nat) : State :=
  match p with
  | .hbm pa => (s.partUnits pa n).foldl State.noteUnit s
  | _ => s

/-- Write bytes that lie in one page. -/
def State.writeChunk (s : State) (agent : Nat) (upd : Bool) (va : Nat) (bytes : List Byte) : State × Option MErr :=
  match s.xlate .write upd va with
  | .error e =>
    let w := s.noteWalk e.2
    if w.2 then (w.1, some .ecc) else (w.1.logFault agent e.1 va, some (.mmu e.1))
  | .ok x =>
    let w := s.noteWalk x.reads
    if w.2 then (w.1, some .ecc) else (w.1.meetParts x.place bytes.length).storeAt agent va x bytes

/-- What a write of bytes that lie in one page would meet, and the error that would stop it; nothing is written. -/
def State.probeChunk (s : State) (agent : Nat) (upd : Bool) (va n : Nat) : State × Option MErr :=
  match s.xlate .write upd va with
  | .error e =>
    let w := s.noteWalk e.2
    if w.2 then (w.1, some .ecc) else (w.1.logFault agent e.1 va, some (.mmu e.1))
  | .ok x =>
    let w := s.noteWalk x.reads
    if w.2 then (w.1, some .ecc)
    else
      let t := w.1.meetParts x.place n
      match x.place with
      | .hbm pa => (t.stir (t.keysFrom pa n), if (t.partUnits pa n).any t.isPoisoned then some .ecc else none)
      | .local_ c off => if c < 64 ∧ localOk off then (t, none) else (t.logFault agent 7 va, some (.mmu 7))
      | .host p _ => (t, if t.portLive p then none else some .port)

/-- The first error of a list of pieces. -/
def State.probeChunks (s : State) (agent : Nat) (upd : Bool) : List (Nat × Nat) → State × Option MErr
  | [] => (s, none)
  | (va, n) :: r =>
    match s.probeChunk agent upd va n with
    | (s1, some e) => (s1, some e)
    | (s1, none) => s1.probeChunks agent upd r

/-- Write pieces in ascending order up to the first that fails. -/
def State.writeChunks (s : State) (agent : Nat) (upd : Bool) : List (Nat × Nat) → List Byte → State × Option MErr
  | [], _ => (s, none)
  | (va, n) :: r, bytes =>
    match s.writeChunk agent upd va (bytes.take n) with
    | (s1, some e) => (s1, some e)
    | (s1, none) => s1.writeChunks agent upd r (bytes.drop n)

/-- Write bytes at a VA on behalf of an agent (its AGENT code of Table 6.7). -/
def State.noteWrite (s : State) (agent : Nat) (upd : Bool) (va : Nat) (bytes : List Byte) : State × Option MErr :=
  s.writeChunks agent upd (chunksOf va bytes.length) bytes

/-- A write whose failure changes nothing more. -/
def State.notePut (s : State) (agent va : Nat) (bytes : List Byte) : State := (s.noteWrite agent false va bytes).1

/-- Read pieces in ascending order up to the first that fails. -/
def State.readChunks (s : State) (agent : Nat) : List (Nat × Nat) → State × Except MErr (List Byte)
  | [] => (s, .ok [])
  | (va, n) :: r =>
    match s.readChunk agent va n with
    | (s1, .error e) => (s1, .error e)
    | (s1, .ok b) =>
      match s1.readChunks agent r with
      | (s2, .error e) => (s2, .error e)
      | (s2, .ok bs) => (s2, .ok (b ++ bs))

/-- Read `n` bytes at a VA on behalf of an agent. -/
def State.noteRead (s : State) (agent va n : Nat) : State × Except MErr (List Byte) := s.readChunks agent (chunksOf va n)

end Sys2Proof.Machine
end

