-- ==== Sys2Proof/Machine/Numbers.lean ====
section
/-! DEFINITION. The number formats of spec/02: W32, B16, F8 and H4 as codes and exact values, the four rounding modes, the
conversions of Table 2.13 and the sticky flag conditions of Table 2.15. -/

namespace Sys2Proof.Machine

/-! ## Flags of an operation (Table 2.15; bit order of Table 2.17) -/

/-- A 4-bit flag group: bit 3 invalid, bit 2 overflow, bit 1 underflow, bit 0 inexact (R66). -/
abbrev Flags := BitVec 4

def Flags.none : Flags := 0
def Flags.iv : Flags := 8
def Flags.of : Flags := 4
def Flags.uf : Flags := 2
def Flags.nx : Flags := 1

def flagIf (b : Bool) (f : Flags) : Flags := if b then f else 0

/-! ## Exact values -/

/-- A number: NaN, an infinity, or the exact dyadic value (−1)^neg × m × 2^e. -/
inductive Num where
  | nan
  | inf (neg : Bool)
  | fin (neg : Bool) (m : Nat) (e : Int)
deriving DecidableEq, Repr

/-- Number of bits of a significand. -/
def bitLen (m : Nat) : Nat := if m = 0 then 0 else Nat.log2 m + 1

def Num.isNan : Num → Bool
  | .nan => true
  | _ => false

def Num.isInf : Num → Bool
  | .inf _ => true
  | _ => false

def Num.isFin : Num → Bool
  | .fin _ _ _ => true
  | _ => false

def Num.isZero : Num → Bool
  | .fin _ 0 _ => true
  | _ => false

def Num.isNeg : Num → Bool
  | .nan => false
  | .inf n => n
  | .fin n _ _ => n

def Num.neg : Num → Num
  | .nan => .nan
  | .inf n => .inf (!n)
  | .fin n m e => .fin (!n) m e

/-- Signed integer coefficient at exponent `k` of a value whose exponent is at least `k`. -/
def coeff (neg : Bool) (m : Nat) (e k : Int) : Int :=
  let v : Nat := m * 2 ^ (e - k).toNat
  if neg then -(v : Int) else v

/-- The value of an integer coefficient at an exponent; an exact zero of a sum is +0 unless both parts were −0. -/
def Num.ofCoeff (c : Int) (k : Int) (zeroNeg : Bool) : Num :=
  if c = 0 then .fin zeroNeg 0 0 else .fin (decide (c < 0)) c.natAbs k

/-- Exact sum, with the invalid flag of ∞ − ∞ and of a NaN operand (Table 2.15). -/
def Num.add (a b : Num) : Num × Flags :=
  match a, b with
  | .nan, _ => (.nan, Flags.iv)
  | _, .nan => (.nan, Flags.iv)
  | .inf x, .inf y => if x = y then (.inf x, 0) else (.nan, Flags.iv)
  | .inf x, .fin _ _ _ => (.inf x, 0)
  | .fin _ _ _, .inf y => (.inf y, 0)
  | .fin n m e, .fin n' m' e' =>
    let k := min e e'
    (Num.ofCoeff (coeff n m e k + coeff n' m' e' k) k (n && n'), 0)

/-- Exact product, with the invalid flag of 0 × ∞ and of a NaN operand. -/
def Num.mul (a b : Num) : Num × Flags :=
  match a, b with
  | .nan, _ => (.nan, Flags.iv)
  | _, .nan => (.nan, Flags.iv)
  | .inf x, .inf y => (.inf (x != y), 0)
  | .inf x, .fin n m _ => if m = 0 then (.nan, Flags.iv) else (.inf (x != n), 0)
  | .fin n m _, .inf y => if m = 0 then (.nan, Flags.iv) else (.inf (n != y), 0)
  | .fin n m e, .fin n' m' e' => (.fin (n != n') (m * m') (e + e'), 0)

/-- Magnitudes of two finite values compared: a.m × 2^a.e < b.m × 2^b.e. -/
def magLt (m : Nat) (e : Int) (m' : Nat) (e' : Int) : Bool :=
  let k := min e e'
  decide (m * 2 ^ (e - k).toNat < m' * 2 ^ (e' - k).toNat)

/-- a < b for values that are not NaN; the zeros are equal. -/
def Num.lt (a b : Num) : Bool :=
  match a, b with
  | .nan, _ => false
  | _, .nan => false
  | .inf x, .inf y => x && !y
  | .inf x, .fin _ _ _ => x
  | .fin _ _ _, .inf y => !y
  | .fin n m e, .fin n' m' e' =>
    let k := min e e'
    decide (coeff n m e k < coeff n' m' e' k)

/-- a = b as numbers, neither NaN. -/
def Num.eqv (a b : Num) : Bool := !a.isNan && !b.isNan && !a.lt b && !b.lt a

/-- A quotient of significands with a sticky last bit: at least 80 bits, more than any destination and the 16 bits of a
stochastic rounding need, so that it rounds as the exact quotient does in every mode. -/
def quotient (m : Nat) (e : Int) (m' : Nat) (e' : Int) : Nat × Int :=
  let k := 80 + bitLen m'
  let q := m * 2 ^ k / m'
  let r := m * 2 ^ k % m'
  (2 * q + (if r = 0 then 0 else 1), e - e' - k - 1)

/-- Quotient: 0/0, ∞/∞ and a NaN operand are invalid; a non-zero finite value over zero is an infinity (IEEE 754, R218). -/
def Num.div (a b : Num) : Num × Flags :=
  match a, b with
  | .nan, _ => (.nan, Flags.iv)
  | _, .nan => (.nan, Flags.iv)
  | .inf _, .inf _ => (.nan, Flags.iv)
  | .inf x, .fin n _ _ => (.inf (x != n), 0)
  | .fin n _ _, .inf y => (.fin (n != y) 0 0, 0)
  | .fin n m e, .fin n' m' e' =>
    if m' = 0 then (if m = 0 then (.nan, Flags.iv) else (.inf (n != n'), 0))
    else let q := quotient m e m' e'; (.fin (n != n') q.1 q.2, 0)

/-- Integer square root by digits: `k` more bits to find below `r`. -/
def isqrtAux (x : Nat) : Nat → Nat → Nat
  | 0, r => r
  | k + 1, r => let t := r + 2 ^ k; if t * t ≤ x then isqrtAux x k t else isqrtAux x k r

def isqrt (x : Nat) : Nat := isqrtAux x (bitLen x / 2 + 1) 0

/-- Square root with a sticky last bit; the root of a negative non-zero value and of a NaN is invalid. -/
def Num.sqrt (a : Num) : Num × Flags :=
  match a with
  | .nan => (.nan, Flags.iv)
  | .inf true => (.nan, Flags.iv)
  | .inf false => (.inf false, 0)
  | .fin n 0 _ => (.fin n 0 0, 0)
  | .fin true _ _ => (.nan, Flags.iv)
  | .fin false m e =>
    let odd : Nat := if e % 2 = 0 then 0 else 1
    let x := m * 2 ^ (odd + 64)
    let r := isqrt x
    (.fin false (2 * r + (if r * r = x then 0 else 1)) ((e - odd - 64) / 2 - 1), 0)

/-! ## Rounding (R47 to R53) -/

/-- The rounding modes of Table 2.11; a stochastic rounding carries its 16 stipple bits. -/
inductive Rnd where
  | rne | ro | rtz
  | sr (u : Nat)
deriving DecidableEq, Repr

/-- Round `lo + rem / 2^d` to an integer by a mode. -/
def Rnd.int (r : Rnd) (lo rem d : Nat) : Nat :=
  match r with
  | .rne => if 2 ^ d < 2 * rem ∨ (2 ^ d = 2 * rem ∧ lo % 2 = 1) then lo + 1 else lo
  | .rtz => lo
  | .ro => if rem = 0 then lo else if lo % 2 = 0 then lo + 1 else lo
  | .sr u => if u < rem * 65536 / 2 ^ d then lo + 1 else lo

/-- Round m × 2^e to a multiple of 2^q: the multiple, and whether it is inexact. -/
def roundAt (r : Rnd) (m : Nat) (e q : Int) : Nat × Bool :=
  if q ≤ e then (m * 2 ^ (e - q).toNat, false)
  else
    let d := (q - e).toNat
    (r.int (m / 2 ^ d) (m % 2 ^ d) d, m % 2 ^ d != 0)

/-- A binary format: precision `p` with the hidden bit, the exponent of its least subnormal, and the magnitude code above
its largest finite one. -/
structure Fmt where
  p : Nat
  qmin : Int
  top : Nat
deriving DecidableEq, Repr

def Fmt.w32 : Fmt := ⟨24, -149, 0x7F800000⟩
def Fmt.b16 : Fmt := ⟨10, -39, 0x7E00⟩
def Fmt.f8 : Fmt := ⟨5, -6, 0x80⟩

/-- A finite non-zero magnitude rounded to a format: its magnitude code, unbounded above, whether it is inexact, and
whether it is tiny by R60 (rounded at full precision it lies below the least normal). -/
def Fmt.round (f : Fmt) (r : Rnd) (m : Nat) (e : Int) : Nat × Bool × Bool :=
  let q0 := e + bitLen m - f.p
  let q := max q0 f.qmin
  let x := roundAt r m e q
  let free := roundAt r m e q0
  (((q - f.qmin).toNat * 2 ^ (f.p - 1)) + x.1, x.2, magLt free.1 q0 (2 ^ (f.p - 1)) f.qmin)

/-- Whether a finite magnitude lies beyond the format's largest finite value. -/
def Fmt.beyond (f : Fmt) (m : Nat) (e : Int) : Bool :=
  magLt (2 ^ f.p - 1) (f.qmin + ((f.top - 1) / 2 ^ (f.p - 1) : Nat) - 1) m e

/-- Round a finite magnitude into W32 or B16: overflow gives infinity under RNE and SR and the largest finite value under
RTZ and RO; SR gives infinity for every magnitude beyond the largest finite one (R53, R55; log entry 90 on RNE just above
the largest finite value). -/
def Fmt.finite (f : Fmt) (r : Rnd) (m : Nat) (e : Int) : Nat × Flags :=
  if m = 0 then (0, 0)
  else
    let x := f.round r m e
    match r with
    | .sr _ =>
      if f.beyond m e then (f.top, Flags.of ||| Flags.nx)
      else (x.1, flagIf x.2.1 Flags.nx ||| flagIf (x.2.1 && (x.2.2 || x.1 == 0)) Flags.uf)
    | _ =>
      if f.top ≤ x.1 then
        ((match r with | .rne => f.top | _ => f.top - 1), Flags.of ||| Flags.nx)
      else (x.1, flagIf x.2.1 Flags.nx ||| flagIf (x.2.1 && (x.2.2 || x.1 == 0)) Flags.uf)

/-! ## W32 and B16 codes -/

/-- The value of a code of a binary format with sign in bit `sb`. -/
def Fmt.value (f : Fmt) (sb : Nat) (code : Nat) : Num :=
  let neg := code.testBit sb
  let mag := code % 2 ^ sb
  if f.top < mag then .nan
  else if mag = f.top then .inf neg
  else
    let ex := mag / 2 ^ (f.p - 1)
    let fr := mag % 2 ^ (f.p - 1)
    if ex = 0 then .fin neg fr f.qmin else .fin neg (2 ^ (f.p - 1) + fr) (f.qmin + (ex - 1 : Nat))

/-- The value of a W32 code (R33). -/
def w32Val (w : Word) : Num := Fmt.w32.value 31 w.toNat

/-- The value of a B16 code (R35). -/
def b16Val (h : BitVec 16) : Num := Fmt.b16.value 15 h.toNat

/-- The canonical NaNs (R34, R36). -/
def w32Nan : Word := 0x7FC00000
def b16Nan : BitVec 16 := 0x7F00

/-- Round a number into W32: NaN results are canonical (R34). -/
def toW32 (r : Rnd) (x : Num) : Word × Flags :=
  match x with
  | .nan => (w32Nan, 0)
  | .inf n => (if n then 0xFF800000 else 0x7F800000, 0)
  | .fin n m e =>
    let y := Fmt.w32.finite r m e
    (BitVec.ofNat 32 ((if n then 2 ^ 31 else 0) + y.1), y.2)

/-- Round a number into B16: NaN results are canonical (R36, R55). -/
def toB16 (r : Rnd) (x : Num) : BitVec 16 × Flags :=
  match x with
  | .nan => (b16Nan, 0)
  | .inf n => (if n then 0xFE00 else 0x7E00, 0)
  | .fin n m e =>
    let y := Fmt.b16.finite r m e
    (BitVec.ofNat 16 ((if n then 2 ^ 15 else 0) + y.1), y.2)

/-- A NaN operand of a conversion sets invalid (Table 2.15). -/
def nanFlag (x : Num) : Flags := flagIf x.isNan Flags.iv

/-- W32 to B16 (R55). -/
def narrow (r : Rnd) (w : Word) : BitVec 16 × Flags :=
  let x := w32Val w
  let y := toB16 r x
  (y.1, y.2 ||| nanFlag x)

/-- B16 to W32: exact; a NaN becomes canonical and sets invalid. -/
def widen (h : BitVec 16) : Word × Flags :=
  let x := b16Val h
  ((toW32 .rne x).1, nanFlag x)

/-! ## Wide arithmetic, rounded once to nearest even -/

def w32Add (a b : Word) : Word × Flags :=
  let x := (w32Val a).add (w32Val b)
  let y := toW32 .rne x.1
  (y.1, x.2 ||| y.2)

def w32Mul (a b : Word) : Word × Flags :=
  let x := (w32Val a).mul (w32Val b)
  let y := toW32 .rne x.1
  (y.1, x.2 ||| y.2)

/-- a × b + c rounded once; a NaN in `c` is consumed too. -/
def Num.fma (a b c : Num) : Num × Flags :=
  let p := a.mul b
  let x := p.1.add c
  (x.1, p.2 ||| x.2)

def w32Fma (a b c : Word) : Word × Flags :=
  let x := (w32Val a).fma (w32Val b) (w32Val c)
  let y := toW32 .rne x.1
  (y.1, x.2 ||| y.2)

def w32Div (a b : Word) : Word × Flags :=
  let x := (w32Val a).div (w32Val b)
  let y := toW32 .rne x.1
  (y.1, x.2 ||| y.2)

/-! ## Narrow formats -/

/-- The value of an F8 element before scaling (R37). -/
def f8Val (b : Byte) : Num :=
  if b = 0x80 then .nan
  else
    let mag := b.toNat % 128
    let ex := mag / 16
    let fr := mag % 16
    let neg := b.toNat.testBit 7
    if ex = 0 then .fin neg fr (-6) else .fin neg (16 + fr) (ex - 1 - 6)

/-- H4 magnitudes in quarters (Table 2.8). -/
def h4Mags : List Nat := [0, 1, 2, 4, 6, 8, 12, 16]

/-- The value of an H4 element before scaling; code 0b1000 reads as +0 (R39). -/
def h4Val (c : Nat) : Num :=
  let m := h4Mags.getD (c % 8) 0
  .fin (c.testBit 3 && m != 0) m (-2)

/-- The value of an element of a block with exponent byte `ex`, without the coarse scale (R41). -/
def scaled (ex : Byte) (x : Num) : Num :=
  if ex = 0 then .fin false 0 0
  else if ex = 0xFF then .nan
  else match x with
    | .fin n m e => .fin n m (e + ex.toNat - 127)
    | y => y

/-- An element times the coarse scale, exactly; NaN where the element is NaN (R43). -/
def timesCoarse (x : Num) (coarse : Word) : Num := (x.mul (w32Val coarse)).1

/-- R43 into W32: one rounding to nearest even; a NaN element sets invalid. -/
def widenW32 (x : Num) (coarse : Word) : Word × Flags :=
  let y := toW32 .rne (timesCoarse x coarse)
  (y.1, y.2 ||| nanFlag x)

/-- R43 into B16. -/
def widenB16 (x : Num) (coarse : Word) : BitVec 16 × Flags :=
  let y := toB16 .rne (timesCoarse x coarse)
  (y.1, y.2 ||| nanFlag x)

/-- A coarse scale that a unit accepts: positive normal from 2^-126 to 2^126 (R42). -/
def coarseOk (w : Word) : Bool := decide (0x00800000 ≤ w.toNat ∧ w.toNat ≤ 0x7E800000)

/-- RNE_W32(1/c) (R56). -/
def recip (c : Word) : Word := (w32Div 0x3F800000 c).1

/-- One element code with its flags, and whether a non-zero input flushed (R59). -/
structure Enc where
  code : Byte
  flags : Flags
  flush : Bool
deriving DecidableEq, Repr

/-- R56, R58: a finite scaled value m × 2^e into an F8 code. -/
def encF8Fin (r : Rnd) (neg : Bool) (m : Nat) (e : Int) : Enc :=
  if m = 0 then ⟨0, 0, false⟩
  else if !magLt m e 32 0 then ⟨if neg then 0xFF else 0x7F, Flags.of ||| Flags.nx, false⟩
  else
    let x := Fmt.f8.round r m e
    if 0x80 ≤ x.1 then ⟨if neg then 0xFF else 0x7F, Flags.nx, false⟩
    else if x.1 = 0 then ⟨0, Flags.uf ||| Flags.nx, true⟩
    else ⟨BitVec.ofNat 8 ((if neg then 128 else 0) + x.1), flagIf x.2.1 Flags.nx ||| flagIf (x.2.1 && x.2.2) Flags.uf, false⟩

/-- R57: any scaled value into an F8 code; NaN is 0x80 with invalid, an infinity 0x80 with overflow, and inexact
with it (Table 2.15). -/
def encF8 (r : Rnd) (x : Num) : Enc :=
  match x with
  | .nan => ⟨0x80, Flags.iv, false⟩
  | .inf _ => ⟨0x80, Flags.of ||| Flags.nx, false⟩
  | .fin n m e => encF8Fin r n m e

/-- Round a magnitude, given in quarters as x / den, into the H4 grid: magnitude code and whether it is inexact. -/
def h4Round (r : Rnd) (x den : Nat) : Nat × Bool :=
  let k := ((List.range 8).filter fun i => decide (h4Mags.getD i 0 * den ≤ x)).length - 1
  let lo := h4Mags.getD k 0
  let hi := h4Mags.getD (k + 1) 16
  if x = lo * den ∨ k = 7 then (k, x != lo * den)
  else
    let num := x - lo * den
    let gap := (hi - lo) * den
    let up := match r with
      | .rne => decide (gap < 2 * num ∨ (gap = 2 * num ∧ k % 2 = 1))
      | .rtz => false
      | .ro => decide (k % 2 = 0)
      | .sr u => decide (u < num * 65536 / gap)
    (if up then k + 1 else k, true)

/-- R56 for H4: a finite scaled value into an H4 code in the low four bits. -/
def encH4Fin (r : Rnd) (neg : Bool) (m : Nat) (e : Int) : Enc :=
  if m = 0 then ⟨0, 0, false⟩
  else
    let x := if 0 ≤ e + 2 then h4Round r (m * 2 ^ (e + 2).toNat) 1 else h4Round r m (2 ^ (-(e + 2)).toNat)
    if x.1 = 0 then ⟨0, Flags.uf ||| Flags.nx, true⟩
    else ⟨BitVec.ofNat 8 ((if neg then 8 else 0) + x.1), flagIf x.2 Flags.nx, false⟩

/-- What encoding one 8 × 8 block gives: exponent byte, 64 codes row-major, flags, flushed and non-zero finite elements. -/
structure EncBlock where
  ex : Byte
  codes : List Byte
  flags : Flags
  flushed : Nat
  nonzero : Nat
deriving DecidableEq, Repr

/-- The larger of two finite magnitudes. -/
def magMax (a b : Nat × Int) : Nat × Int := if magLt a.1 a.2 b.1 b.2 then b else a

/-- Scale a finite value by 2^(127 − E) (R56). -/
def unscale (ex : Nat) : Num → Num
  | .fin n m e => .fin n m (e + 127 - ex)
  | y => y

def orFlagsAll (l : List Flags) : Flags := l.foldl (· ||| ·) 0

/-- Encode a block (R56 to R59): `narrow4` for H4; the elements are the inputs with their rounding modes, and none for a
place outside the tensor, which is written as a zero code (R46). In a block written whole as zero codes no element counts
as flushed, and a non-finite element of an H4 block decides its flags alone (log entry 90). -/
def encodeBlock (narrow4 : Bool) (r : Word) (xs : List (Option (Num × Rnd))) : EncBlock :=
  let inside := xs.filterMap id
  let ss : List (Option (Num × Rnd)) := xs.map fun o => o.map fun p => ((p.1.mul (w32Val r)).1, p.2)
  let anyNan := inside.any fun p => p.1.isNan
  let anyInf := inside.any fun p => p.1.isInf
  let nonfin := anyNan || anyInf
  let nonzero := (inside.filter fun p => p.1.isFin && !p.1.isZero).length
  let top : Nat × Int := ss.foldl (fun a o => match o with
    | some (.fin _ m e, _) => magMax a (m, e)
    | _ => a) (0, 0)
  let nfFlags := flagIf anyNan Flags.iv ||| flagIf anyInf (Flags.of ||| Flags.nx)
  let zeros := xs.map fun _ => (0 : Byte)
  if narrow4 && nonfin then ⟨0xFF, zeros, nfFlags, 0, nonzero⟩
  else if top.1 = 0 ∧ !nonfin then ⟨0, zeros, 0, 0, nonzero⟩
  else
    let e0 : Int := if top.1 = 0 then 127 else 127 + (top.2 + (Nat.log2 top.1 : Nat)) - (if narrow4 then 1 else 4)
    let ex : Int := if e0 < 1 then 1 else e0
    if 254 < ex then ⟨0xFF, zeros, Flags.of ||| Flags.nx ||| nfFlags, 0, nonzero⟩
    else
      let encs : List Enc := ss.map fun o => match o with
        | none => ⟨0, 0, false⟩
        | some (x, md) =>
          match unscale ex.toNat x with
          | .fin n m e => if narrow4 then encH4Fin md n m e else encF8Fin md n m e
          | y => encF8 md y
      ⟨BitVec.ofNat 8 ex.toNat, encs.map (·.code), orFlagsAll (encs.map (·.flags)), (encs.filter (·.flush)).length, nonzero⟩

end Sys2Proof.Machine
end

