-- ==== Sys2Proof/Machine/Flags.lean ====
section
/-! DEFINITION. The sticky flag registers (R60 to R66): how an operation raises its flags, what NUM.FLAGSUM shows, and the
step snapshot's read and clear. -/

namespace Sys2Proof.Machine

/-- OR bits into a register: a set bit stays set (R60, R63). -/
def State.orReg (s : State) (r : Reg) (i : Nat) (v : Nat) : State :=
  if v = 0 then s else s.setReg r i 0 (s.reg r i 0 ||| BitVec.ofNat 32 v)

/-- Raise flags of the vector engine of a logical core: NUM.CFLAGS[n] bits [11:8]. -/
def State.raiseVec (s : State) (c : Nat) (f : Flags) : State := s.orReg .NUM_CFLAGS c (f.toNat * 256)

/-- Raise flags of a matrix engine of a logical core: bits [3:0] for F, [7:4] for B. -/
def State.raiseEng (s : State) (c : Nat) (e : Eng) (f : Flags) : State :=
  s.orReg .NUM_CFLAGS c (match e with | .f => f.toNat | .b => f.toNat * 16)

/-- Raise flags of an MSE die: NUM.MFLAGS[k]. -/
def State.raiseMse (s : State) (k : Nat) (f : Flags) : State := s.orReg .NUM_MFLAGS k f.toNat

/-- OR of the CFLAGS of every logical core. -/
def State.allCflags (s : State) : Nat := (List.range 64).foldl (fun a n => a ||| (s.reg .NUM_CFLAGS n 0).toNat) 0

/-- OR of the MFLAGS of every MSE die. -/
def State.allMflags (s : State) : Nat := (List.range 6).foldl (fun a k => a ||| (s.reg .NUM_MFLAGS k 0).toNat) 0

/-- NUM.FLAGSUM as read now (Table 2.19). -/
def State.flagSum (s : State) : Word :=
  BitVec.ofNat 32 (s.allMflags % 16 * 4096 + s.allCflags % 4096)

/-- The step snapshot (R64): the ORs enter the 16-bit flags section, and with SNAPCLR the bits read are cleared. -/
def State.snapshotFlags (s : State) : BitVec 16 × State :=
  let f := BitVec.ofNat 16 (s.flagSum.toNat)
  let clear := s.flag F.NUM_FLAGCTL_SNAPCLR
  let s1 := if clear then
      (List.range 6).foldl (fun s k => s.setReg .NUM_MFLAGS k 0 0)
        ((List.range 64).foldl (fun s n => s.setReg .NUM_CFLAGS n 0 0) s)
    else s
  (f, s1)

end Sys2Proof.Machine
end

