-- ==== Sys2Proof/Machine/SeqBase.lean ====
section
/-! DEFINITION. What SEQ's parts share (spec/09): its registers, events and status block (R316, R317), bucket status records
(Table 9.3), the verdict tree (R289), control packets and host-mediated records (R305, R306), and the halt (R303). -/

namespace Sys2Proof.Machine

/-! ## State and program -/

/-- SEQ states of Table 9.12. -/
def SQ.idle : Nat := 0
def SQ.loaded : Nat := 1
def SQ.running : Nat := 2
def SQ.paused : Nat := 3
def SQ.halted : Nat := 4

/-- Halt causes of Table 9.11. -/
def HC.host : Nat := 1
def HC.fenced : Nat := 2
def HC.linkloss : Nat := 3
def HC.sealto : Nat := 4
def HC.numstall : Nat := 5
def HC.updfault : Nat := 6
def HC.late : Nat := 7
def HC.hmto : Nat := 8
def HC.replayfail : Nat := 9
def HC.baddata : Nat := 10

/-- Event codes of Tables 4.5 and 9.13. -/
def EV.skip : Nat := 0x01
def EV.lsfloor : Nat := 0x02
def EV.lsgrow : Nat := 0x03
def EV.fbenter : Nat := 0x04
def EV.fbexit : Nat := 0x05
def EV.shiftmax : Nat := 0x06
def EV.blotter : Nat := 0x07
def EV.promote : Nat := 0x08
def EV.precdiag : Nat := 0x09
def EV.updnonfin : Nat := 0x0A
def EV.scalemis : Nat := 0x0B
def EV.numstall : Nat := 0x0C
def EV.retract : Nat := 0x20
def EV.replay : Nat := 0x21
def EV.late : Nat := 0x22
def EV.halt : Nat := 0x23
def EV.datawait : Nat := 0x24
def EV.ckptdone : Nat := 0x25
def EV.ckptfail : Nat := 0x26
def EV.notopen : Nat := 0x27
def EV.frozen : Nat := 0x28

def State.seqState (s : State) : Nat := s.fld F.SEQ_STATE_STATE
def State.isRunning (s : State) : Bool := s.seqState == SQ.running

/-- SEQ takes part in a step, running or paused. -/
def State.inStep (s : State) : Bool := s.seqState == SQ.running || s.seqState == SQ.paused

/-- The program's own member entry (R277). -/
def State.ownEntryOf (s : State) (p : Prog) : Option Member := p.members.find? fun m => m.node.toNat == s.node

/-! ## The step status block (Table 9.12) -/

def statusSealed (b : Bucket) : Bool := b.st == .sealed || b.st == .committed || b.st == .frozen

/-- Word 0x000. -/
def State.stepWord (s : State) : Nat :=
  s.seqState % 16 * 2 ^ 60 + s.fld F.SEQ_STATE_CAUSE % 256 * 2 ^ 52
    + (s.seq.buckets.filter fun e => statusSealed e.2).length % 8192 * 2 ^ 32 + s.stepNo % 2 ^ 32

/-! ## The status block of a queue pair (Table 12.10, R397, R398) -/

/-- A base register pair of a queue pair. -/
def State.qBase (s : State) (lo hi : Reg) (p q : Nat) : Nat := (s.reg hi p q).toNat * 2 ^ 32 + (s.reg lo p q).toNat

/-- LOSS and LOSSSTEP of the last completed step. -/
def State.lastLoss (s : State) : Nat :=
  match (s.seq.losses.find? fun e => e.2.2.toNat + 1 == s.stepNo) with
  | some e => e.2.1.toNat * 2 ^ 32 + e.2.2.toNat
  | none => 0

/-- The eight words of a status block; words 0x10 to 0x30 are zero with ABI 2 (Table 12.11), the MIRROR fields without
MIRROR. -/
def State.blockWords (s : State) (p q gen : Nat) : List Nat :=
  let x := s.pair p q
  let abi3 := x.abi != 2
  let mirror := abi3 && s.flag F.HIF_QCTL_MIRROR p q
  [gen * 2 ^ 32 + x.sqHead * 2 ^ 16 + x.cqTail,
   s.fld F.HIF_QSTAT_STATE p q * 2 ^ 60 + s.fld F.HIF_QSTAT_ERR p q * 2 ^ 56 + x.fetched.length * 2 ^ 32 + x.doneCount.toNat,
   if mirror && s.seq.prog.isSome then s.stepWord else 0,
   if mirror then s.lastLoss else 0,
   if mirror then s.fld F.NUM_LSSTAT_SKIPS * 2 ^ 48 + s.erTail else 0,
   if abi3 then s.hostTime else 0,
   0,
   gen * 2 ^ 32]

/-- Write a pair's status block. The read-back of the last entry before it changes nothing: the bytes are there. -/
def State.writeBlock (s : State) (p q : Nat) : State :=
  let s := s.modPair p q fun x => { x with due := false }
  if !s.portLive p then s
  else
    let s := s.tickTimer
    let gen := (s.pair p q).gen + 1
    let bytes := (s.blockWords p q gen.toNat).flatMap (toBytes 8)
    (s.modPair p q fun x => { x with gen := gen }).setHostBytes p (s.qBase .HIF_QSTLO .HIF_QSTHI p q) bytes

/-- A pair that has been enabled mirrors the step status word; one of ABI 2 ignores MIRROR (R399). -/
def State.mirrored (s : State) (p q : Nat) : Bool :=
  s.flag F.HIF_QCTL_MIRROR p q && s.fld F.HIF_QSTAT_STATE p q != 0 && (s.pair p q).abi != 2

/-- The step status word has changed: every pair that mirrors it gets its status block (R398). -/
def State.mirrorBlocks (s : State) : State :=
  ((List.range 512).filter fun i => s.mirrored (i / 256) (i % 256)).foldl (fun s i => s.writeBlock (i / 256) (i % 256)) s

/-! ## What SEQ writes of a step -/

/-- Words 0x008 to 0x047; zeros up to 0x0FF follow (Table 9.12). -/
def State.statusWords (s : State) : List Byte :=
  toBytes 8 (s.seq.cnode.toNat * 2 ^ 48 + s.seq.events % 65536 * 2 ^ 32 + s.seq.retracts % 65536 * 2 ^ 16
      + s.fld F.NUM_LSCALE_LSEXP)
    ++ toBytes 8 s.seq.drHead
    ++ toBytes 8 (s.seq.lateStep.toNat * 2 ^ 32 + s.seq.ckStep.toNat)
    ++ toBytes 8 s.seq.flags.toNat
    ++ (s.seq.crush.take 8).flatMap fun c => toBytes 4 c.toNat

/-- LOSSES: 64 entries of loss and step. -/
def State.lossBytes (s : State) : List Byte :=
  (List.range 64).flatMap fun i =>
    let x := Sparse.get (0, 0) s.seq.losses i
    toBytes 8 (x.1.toNat * 2 ^ 32 + x.2.toNat)

/-- SEQ writes the step status block: every other field first, then word 0x000 (R316). -/
def State.writeStatus (s : State) : State :=
  match s.seq.prog with
  | none => s
  | some p =>
    let s1 := s.notePut agentSeq (p.status + 8) s.statusWords
    let s2 := (s1.notePut agentSeq (p.status + 0x48) (List.replicate 0xB8 0)).notePut agentSeq (p.status + 0x100) s.lossBytes
    (s2.notePut agentSeq p.status (toBytes 8 s.stepWord)).mirrorBlocks

/-- SEQ writes an event: entry EVCNT mod 208 of EVENTS (R141, R317). -/
def State.event (s : State) (code arg : Nat) : State :=
  match s.seq.prog with
  | none => s
  | some p =>
    let s1 := s.notePut agentSeq (p.status + 0x300 + 16 * (s.seq.events % 208))
      (toBytes 8 (code * 2 ^ 56 + s.stepNo % 2 ^ 32) ++ toBytes 8 arg)
    s1.modSeq fun q => { q with events := (q.events + 1) % 65536 }

def State.setSeqState (s : State) (st : Nat) : State := s.setFld F.SEQ_STATE_STATE st

/-! ## Bucket status records (Table 9.3) -/

def BState.code : BState → Nat
  | .idle => 0 | .filling => 1 | .refilling => 2 | .complete => 3 | .sealed => 4 | .committed => 5 | .frozen => 6
  | .skipped => 7 | .halted => 8

/-- Contributions counted by a range: the seed and the least number that every die holding part of it has reported. -/
def RangeSt.count (r : RangeSt) : Nat :=
  b2n r.seeded + (match r.dies with
    | [] => 0
    | d :: ds => ds.foldl (fun a k => min a (Sparse.get 0 r.counts k)) (Sparse.get 0 r.counts d))

/-- The range that the record shows: stage 2 once it has opened. -/
def Bucket.range (b : Bucket) : RangeSt := if b.r2.phase == .closed then b.r1 else b.r2

/-- A bucket's record (Table 9.3), with zero in the place of KSTAT. -/
def State.bucketBytes (s : State) (id : Nat) (b : Bucket) : List Byte :=
  toBytes 8 (id * 2 ^ 52 + b.st.code * 2 ^ 48 + b2n b.late * 2 ^ 34 + b2n b.frozenUpd * 2 ^ 33
      + b2n b.nonfin * 2 ^ 32 + b.range.epoch % 65536 * 2 ^ 16 + b.range.count % 65536)
    ++ toBytes 8 (b.nfNode.toNat * 2 ^ 48 + b.nfOff % 2 ^ 48)
    ++ toBytes 8 (s.stepNo % 2 ^ 32 * 2 ^ 32 + b.retracts % 65536 * 2 ^ 16 + min b.flagged 65535)
    ++ toBytes 8 0

/-- Put a bucket and write its status record at BSTAT + 32 × id, all but the byte KSTAT, which the update kernels write
(R140; log entry 77). -/
def State.setBucket (s : State) (id : Nat) (b : Bucket) : State :=
  let s1 := s.modSeq fun q => { q with buckets := Sparse.put q.buckets id b }
  match s.seq.prog with
  | none => s1
  | some p =>
    let l := s1.bucketBytes id b
    (s1.notePut agentSeq (p.bstat + 32 * id) (l.take 5)).notePut agentSeq (p.bstat + 32 * id + 6) (l.drop 6)

/-- KSTAT of a bucket is zero as a step begins. -/
def State.clearKstat (s : State) (id : Nat) : State :=
  match s.seq.prog with
  | none => s
  | some p => s.notePut agentSeq (p.bstat + 32 * id + 5) [0]

def State.bucket (s : State) (id : Nat) : Option Bucket := Sparse.find s.seq.buckets id

def State.modBucket (s : State) (id : Nat) (f : Bucket → Bucket) : State :=
  match s.bucket id with
  | none => s
  | some b => s.setBucket id (f b)

/-- Fold over the ids of the device's buckets in ascending order. -/
def State.eachBucket (s : State) (f : State → Nat → State) : State :=
  (s.seq.buckets.map (·.1)).foldl f s

/-! ## The verdict tree (R289) -/

def chassisOf (n : BitVec 16) : Nat := n.toNat / 64
def positionOf (n : BitVec 16) : Nat := n.toNat % 64

/-- Insert by chassis number. -/
def insertByChassis (n : BitVec 16) : List (BitVec 16) → List (BitVec 16)
  | [] => [n]
  | m :: r => if chassisOf n < chassisOf m then n :: m :: r else m :: insertByChassis n r

def sortByChassis (l : List (BitVec 16)) : List (BitVec 16) := l.foldr insertByChassis []

/-- The nodes of the tree: members that are not HM. -/
def Prog.treeNodes (p : Prog) : List (BitVec 16) := (p.members.filter fun m => !m.hm).map (·.node)

/-- Members at a position by ascending chassis. -/
def Prog.atPosition (p : Prog) (q : Nat) : List (BitVec 16) :=
  sortByChassis (p.treeNodes.filter fun n => positionOf n == q)

/-- The position leaders. -/
def Prog.leaders (p : Prog) : List (BitVec 16) := (List.range 64).filterMap fun q => (p.atPosition q).head?

/-- The step leader: the position leader with the lowest node id. -/
def Prog.stepLeader (p : Prog) : BitVec 16 :=
  match p.leaders with
  | [] => 0
  | n :: r => r.foldl (fun a b => if b.toNat < a.toNat then b else a) n

/-- The parent of a node of the tree; none for the step leader. -/
def Prog.parent (p : Prog) (n : BitVec 16) : Option (BitVec 16) :=
  let l := p.atPosition (positionOf n)
  let i := l.findIdx (· == n)
  if i = 0 then (if n = p.stepLeader then none else some p.stepLeader) else l[(i - 1) / 32]?

/-- The children of a node of the tree. -/
def Prog.children (p : Prog) (n : BitVec 16) : List (BitVec 16) := p.treeNodes.filter fun m => p.parent m == some n

/-! ## Faults that implicate the passes in hand (R284, R297, R325) -/

/-- A fault implicates work of the passes in hand: it is acted on as soon as SEQ goes on in their step; where no pass has
begun, no work is implicated (log entry 94). -/
def State.owe (s : State) (reason : Nat) : State :=
  if s.inStep && decide (0 < s.seq.fStarted) then s.modSeq fun q => { q with owedFault := q.owedFault <|> some reason } else s

/-- A logical core produces data of the passes in hand: their pass list has an item for it. -/
def State.feedsPass (s : State) (c : Nat) : Bool :=
  match s.seq.prog with
  | some p => p.pass.any fun e => e.core == c && e.item != 0
  | none => false

def retHeld : Nat := 2
def retCompute : Nat := 3

/-! ## Control packets (R305, R306) -/

/-- SEQ writes an outbound host-mediated record at HMRING and advances SEQ.HMOUT (R305). -/
def State.hmRecord (s : State) (p : Prog) (w0 w1 : Nat) : State :=
  if p.hmring = 2 ^ 48 - 1 then s
  else
    let i := s.fld F.SEQ_HMOUT_NEXT
    let s1 := s.notePut agentSeq (p.hmring + 16 * i) (toBytes 8 w0 ++ toBytes 8 w1)
    s1.setFld F.SEQ_HMOUT_NEXT ((i + 1) % 256)

/-- Whether collective records between this device and a node go through the hosts: either is an HM member. -/
def State.viaHost (s : State) (p : Prog) (dst : BitVec 16) : Bool :=
  (p.members.any fun m => m.node == dst && m.hm) || (match s.ownEntryOf p with | some m => m.hm | none => false)

/-- A collective packet of Table 9.5 to a member, or its host-mediated record; `arg1` is argument word of the record. -/
def State.control (s : State) (p : Prog) (ty : BitVec 4) (dst : BitVec 16) (tag : Nat) (arg : Nat) (payload : List Byte)
    (step : Nat) (arg1 : Nat) : State :=
  if s.viaHost p dst && (ty == PT.seal || ty == PT.retract || ty == PT.resend) then
    s.hmRecord p (ty.toNat * 2 ^ 60 + arg % 16 * 2 ^ 56 + tag % 4096 * 2 ^ 44 + step % 2 ^ 32)
      (s.node * 2 ^ 48 + dst.toNat * 2 ^ 32 + arg1 % 2 ^ 32)
  else
    s.send { Packet.blank ty dst.toNat s.node with
      tag := BitVec.ofNat 16 tag, addr := ctlAddr step arg, len := BitVec.ofNat 6 (payload.length / 16), payload := payload }

/-- A MESSAGE of a class of Table 9.5. -/
def State.message (s : State) (cls : Nat) (dst : BitVec 16) (arg : Nat) : State :=
  s.send { Packet.blank PT.message dst.toNat s.node with tag := BitVec.ofNat 16 cls, addr := BitVec.ofNat 40 arg }

/-- A message down the tree to each child. -/
def State.messageDown (s : State) (p : Prog) (cls arg : Nat) : State :=
  (p.children (BitVec.ofNat 16 s.node)).foldl (fun s n => s.message cls n arg) s

def msgGathered : Nat := 1
def msgReplaying : Nat := 2
def msgHaltstep : Nat := 3

/-- A bucket of a halted step is marked halted (R303). -/
def Bucket.halt (b : Bucket) : Bucket := { b with st := .halted, phase := .none }

/-- The step halts on this member: it stops launching and sealing, its buckets are marked halted, and its held data stays
in place (R303). -/
def State.haltHere (s : State) (cause : Nat) (node : BitVec 16) : State :=
  if s.seqState == SQ.running || s.seqState == SQ.paused then
    let s := (s.setSeqState SQ.halted).setFld F.SEQ_STATE_CAUSE cause
    let s := s.modSeq fun q => { q with
      cnode := node, toLaunch := [], announce := [], pauseReq := false, ckptReq := false, barrier := none }
    let s := s.eachBucket fun s b => s.modBucket b Bucket.halt
    (s.event EV.halt (cause + node.toNat * 256)).writeStatus
  else s

/-- A member halts the step: it stops and tells the step leader, which tells the tree (R303). -/
def State.halt (s : State) (cause : Nat) (node : BitVec 16) : State :=
  if s.seqState == SQ.running || s.seqState == SQ.paused then
    let s1 := s.haltHere cause node
    match s.seq.prog with
    | none => s1
    | some p =>
      let arg := cause + node.toNat * 256
      if p.stepLeader.toNat = s.node then
        (s1.messageDown p msgHaltstep arg).modSeq fun q => { q with haltSent := some (BitVec.ofNat 32 s.stepNo) }
      else s1.message msgHaltstep p.stepLeader arg
  else s

end Sys2Proof.Machine
end

