-- ==== Sys2Proof/Machine/Records.lean ====
section
/-! DEFINITION. The safe state (R330), error records with the safe state that an overflow brings (R332), and late detections
(R304, R325). -/

namespace Sys2Proof.Machine

/-! ## The safe state (R330) -/

/-- The device enters the safe state: fenced toward its peers, SEQ halted, the hosts told. Items, engines and groups stop
where they are since every one of their events asks for a device that is not safe. -/
def State.enterSafe (s : State) (source : Nat) : State :=
  if s.safe then s
  else
    let s := s.setFld F.SAF_STATE_CAUSE source
    let s := s.setFld F.SAF_STATE_SAFE 1
    let s := s.tellPeers [s.devEntry]
    let s := s.halt HC.fenced (BitVec.ofNat 16 s.node)
    let s := s.raiseBoth 0
    let s := s.ledNow fun l => { l with safe := satAdd 32 l.safe 1 }
    s.setDevState s.devStateNow

/-- An OVERFLOW record that has been written between two states places the device in the safe state (R332). -/
def State.overflows (t s : State) : State := if t.saf.overflow && !s.saf.overflow then t.enterSafe 0x11 else t

/-- Raise a record. -/
def State.record (s : State) (r : Rec) : State := (s.note r).overflows s

/-- A record that places the device in the safe state. -/
def State.fatal (s : State) (r : Rec) : State := (s.record r).enterSafe r.source

/-- Work of a die that contains no smaller domain: a logic fault that waits in the die is met by it, recorded at die level, and
places the device in the safe state (R328, Table 10.4). -/
def State.onDie (s : State) (loc : Loc) (work : State) : State :=
  if s.saf.logicBad.contains loc.die then
    (s.modSaf fun x => { x with logicBad := x.logicBad.filter (· != loc.die) }).fatal
      { source := 0x13, cls := RC.fatal, level := 4, loc := loc }
  else work

/-- A late detection names this bucket (Table 9.3). -/
def Bucket.late_ (b : Bucket) : Bucket := { b with late := true }

/-- A late detection (R304, R325): the record and LATESTEP; LATE in the bucket's record and event LATE, for every own bucket where
none is named (log entry 94); and the halt. -/
def State.lateDetection (s : State) (step : Word) (bucket : Option Nat) : State :=
  let s := s.record { source := 0x12, cls := RC.late, level := 5, loc := hostLoc, step := some step, bucket := bucket.getD 0x1FFF }
  let s := s.ledNow fun l => { l with late := satAdd 32 l.late 1 }
  let s := s.modSeq fun q => { q with lateStep := step }
  let own : List Nat := match bucket with | some b => [b] | none => s.seq.buckets.map Prod.fst
  let s := own.foldl (fun (s : State) b => (s.modBucket b Bucket.late_).event EV.late b) s
  s.halt HC.late (BitVec.ofNat 16 s.node)

end Sys2Proof.Machine
end

