-- ==== Sys2Proof/Machine/Groups.lean ====
section
/-! DEFINITION. Resident thread groups (spec/07): their registers and masks, the end of an instruction, reconvergence (R226),
traps (R235), named barriers (R229, R230), exit, kill (R237) and the completion of blocks and items (R210, R308). -/

namespace Sys2Proof.Machine

/-! ## Registers, predicates and masks (R209, R215, R216) -/

def Group.reg (x : Group) (lane n : Nat) : Word := Sparse.get 0 x.regs (lane * 256 + n)

def Group.setReg (x : Group) (lane n : Nat) (v : Word) : Group :=
  { x with regs := Sparse.set 0 x.regs (lane * 256 + n) v }

/-- The pair vN:v(N+1), low half in vN (R216). -/
def Group.pair (x : Group) (lane n : Nat) : DWord := x.reg lane (n + 1) ++ x.reg lane n

def Group.setPair (x : Group) (lane n : Nat) (v : DWord) : Group :=
  (x.setReg lane n (v.setWidth 32)).setReg lane (n + 1) ((v >>> 32).setWidth 32)

/-- Predicate k of a lane; p0 reads as true. -/
def Group.pred (x : Group) (lane k : Nat) : Bool :=
  k % 8 == 0 || (Sparse.get 0 x.preds lane).toNat.testBit (k % 8)

/-- Write a predicate; p0 ignores writes. -/
def Group.setPred (x : Group) (lane k : Nat) (v : Bool) : Group :=
  if k % 8 = 0 then x
  else
    let o := (Sparse.get 0 x.preds lane).toNat
    let m := 2 ^ (k % 8)
    let n := if v then o ||| m else o - (o &&& m)
    { x with preds := Sparse.set 0 x.preds lane (BitVec.ofNat 8 n) }

def inMask (m : BitVec 64) (lane : Nat) : Bool := m.toNat.testBit lane

/-- The mask of lanes that hold a condition. -/
def maskOf (p : Nat → Bool) : BitVec 64 :=
  BitVec.ofNat 64 ((List.range 64).foldl (fun a l => if p l then a + 2 ^ l else a) 0)

def lanesOf (m : BitVec 64) : List Nat := (List.range 64).filter (inMask m)

/-- Lanes in which an instruction executes (R215). -/
def Group.exec (x : Group) (w : IFields) : BitVec 64 :=
  maskOf fun l => inMask x.active l && (x.pred l w.ps.toNat != w.pn)

/-! ## Reconvergence (R226, R227) -/

/-- Pop the top entry: its lanes run from its PC, or wait at the barrier at which that path is blocked. -/
def Group.pop (x : Group) : Group :=
  match x.stack with
  | [] => x
  | e :: r =>
    { x with stack := r, pc := e.pc, active := e.mask,
             wait := match e.bar with | some b => .barrier b | none => .none
             state := match e.bar with | some _ => .blocked | none => x.state }

/-- The topmost merge entry's PC. -/
def topMerge : List StackEntry → Option (BitVec 48)
  | [] => none
  | e :: r => if e.kind = .merge then some e.pc else topMerge r

/-- Pop while the running path has no lanes left or has reached the topmost merge entry. -/
def Group.settleN : Nat → Group → Group
  | 0, x => x
  | k + 1, x =>
    if x.stack.isEmpty then x
    else if x.active = 0 then x.pop.settleN k
    else if topMerge x.stack = some x.pc ∧ x.wait = .none then x.pop.settleN k
    else x

def Group.settle (x : Group) : Group := x.settleN (x.stack.length + 1)

/-- The group goes on after the instruction in hand: a step ends, and a group to be halted halts (R238). -/
def Group.ended (x : Group) (halt : Bool) : Group :=
  if (x.stepping || halt) && x.state == .running then { x with state := .halted, stepping := false } else x

/-- HALT of a group's GCTL in debug mode (R238). -/
def State.haltBit (s : State) (c g : Nat) : Bool :=
  s.flag F.CORE_FAULTCTL_MODE (s.phys c) && s.flag F.CORE_GCTL_HALT (s.phys c) g

/-! ## Traps (R235 to R238, Table 7.8) -/

def TC.illegal : Nat := 0x01
def TC.misalign : Nat := 0x02
def TC.access : Nat := 0x03
def TC.xlate : Nat := 0x04
def TC.memerr : Nat := 0x05
def TC.atomic : Nat := 0x06
def TC.barrier : Nat := 0x07
def TC.stack : Nat := 0x08
def TC.divjump : Nat := 0x09
def TC.tiledesc : Nat := 0x0A
def TC.request : Nat := 0x0B
def TC.scale : Nat := 0x0C
def TC.break_ : Nat := 0x0D
def TC.soft : Nat := 0x0E

/-- Debug mode of the core (R236). -/
def State.debugMode (s : State) (c : Nat) : Bool := s.flag F.CORE_FAULTCTL_MODE (s.phys c)

/-- SEQ reports a trap in the step status while its program runs: an event whose code and argument no table gives, both free
values (R235; log entry 104). -/
def State.reportTrap (s : State) : State :=
  if s.inStep then (s.event (Config.pick s.free % 256) (Config.pick (s.free + 1) % 2 ^ 64)).drawn else s

/-- A trap parks or halts the group at the faulting instruction, writes a PROGRAM record and is reported; the operands' hash in
the record is a free value (log entry 14). -/
def State.trap (s : State) (c g : Nat) (cause : Nat) (opc : Nat) (addr : Nat) (partly : Bool) : State :=
  let s := s.modGroup c g fun x => { x with
    state := if s.debugMode c then .halted else .parked
    cause := BitVec.ofNat 8 cause, partly := partly, stepping := false, wait := .none, load := none }
  (s.record { source := 0x10, cls := RC.program, level := 2, loc := s.coreLoc c 0xFF, opcode := opc, opdetail := cause,
              ophash := Config.pick s.free, addr := addr }).drawn.reportTrap

/-! ## Completion of blocks and items (R210, R308) -/

/-- The die of a logical core (R175). -/
def dieOfCore (c : Nat) : Nat := c / 16

/-- An item of a counter has completed on a core: the core and its die have one item less to wait for, and the status enters
the die's OR. -/
def Counter.item (k : Counter) (c status : Nat) : Counter :=
  { k with
    left := k.left.map fun e => if e.1 = dieOfCore c then (e.1, e.2.1 - 1, e.2.2 ||| status) else e
    cores := k.cores.map fun e => if e.1 = c then (e.1, e.2 - 1) else e }

/-- SEQ's counter learns of a completed item; an item of software's own is discarded there (R205). -/
def State.itemStatus (s : State) (c cnt status : Nat) : State :=
  s.modSeq fun q => { q with counters := q.counters.map fun k => if k.id = cnt then k.item c status else k }

/-- MARKs whose earlier items of the stream have all completed complete too (R207). -/
def State.settleMarks : Nat → State → Nat → State
  | 0, s, _ => s
  | k + 1, s, c =>
    let items := (s.core c).items
    match items.find? fun i => i.mark && !(items.any fun j => j.stream == i.stream && decide (j.id < i.id)) with
    | none => s
    | some i =>
      ((s.modCore c fun x => { x with items := x.items.filter fun j => j.id != i.id }).itemStatus c i.cnt 0).settleMarks k c

/-- An item completes with a status. -/
def State.itemDone (s : State) (c : Nat) (i : Item) (status : Nat) : State :=
  let n := (s.core c).items.length
  ((s.modCore c fun x => { x with items := x.items.filter fun j => j.id != i.id }).itemStatus c i.cnt status).settleMarks n c

/-- An item whose blocks have all ended completes: FAULT, FROZEN or OK (R210). -/
def State.checkItem (s : State) (c id : Nat) : State :=
  match (s.core c).items.find? fun i => i.id == id with
  | none => s
  | some i =>
    if i.mark || decide (i.doneBlocks < i.blocks) then s
    else s.itemDone c i (if i.faulted then 0x07 else if i.frozen then 0x0B else 0)

def State.modItem (s : State) (c id : Nat) (f : Item → Item) : State :=
  s.modCore c fun x => { x with items := x.items.map fun i => if i.id = id then f i else i }

/-- The block of a core with an id. -/
def State.blockOf (s : State) (c id : Nat) : Option Block := (s.core c).blocks.find? fun b => b.id == id

def State.modBlock (s : State) (c id : Nat) (f : Block → Block) : State :=
  s.modCore c fun x => { x with blocks := x.blocks.map fun b => if b.id = id then f b else b }

/-- A group leaves its slot; a block whose groups have all left is freed and counts for its item. -/
def State.freeGroup (s : State) (c g : Nat) : State :=
  match s.group c g with
  | none => s
  | some x =>
    let s := s.modCore c fun k => { k with groups := Sparse.drop k.groups g, lastFreed := k.lastFreed }
    let s := s.modBlock c x.block fun b => { b with slots := b.slots.filter (· != g) }
    match s.blockOf c x.block with
    | none => s
    | some b =>
      if b.slots.isEmpty then
        let s := s.modCore c fun k => { k with blocks := k.blocks.filter fun y => y.id != b.id }
        (s.modItem c b.item fun i => { i with doneBlocks := i.doneBlocks + 1 }).checkItem c b.item
      else s

/-- A group with no live lane and no descriptor outstanding leaves its slot (R210, R224, R237). -/
def State.checkExit (s : State) (c g : Nat) : State :=
  match s.group c g with
  | none => s
  | some x => if x.live = 0 ∧ x.outstanding = 0 then s.freeGroup c g else s

/-! ## Named barriers (R229, R230) -/

/-- Live lanes of the groups of a block, by slot. -/
def State.liveOf (s : State) (c : Nat) (b : Block) : List (Nat × BitVec 64) :=
  b.slots.filterMap fun g => (s.group c g).map fun x => (g, x.live)

/-- The lanes of a slot that have arrived at a barrier, of those that still live. -/
def arrivedOf (y : Barrier) (g : Nat) : BitVec 64 :=
  y.arrived.foldl (fun a e => if e.1 = g then a ||| e.2 else a) 0

/-- Every live thread has arrived, and there is one. -/
def Barrier.full (y : Barrier) (live : List (Nat × BitVec 64)) : Bool :=
  live.any (fun e => e.2 != 0) && live.all fun e => (arrivedOf y e.1 &&& e.2) == e.2

/-- Threads of a group that wait at barrier b resume behind their bwait; with a preemption request the group stays stopped
(`pre`; R239, R345). -/
def Group.released (x : Group) (b : Nat) (halt pre : Bool) : Group :=
  let x := { x with stack := x.stack.map fun e => if e.bar = some b then { e with bar := none, pc := e.pc + 8 } else e }
  if x.wait = .barrier b then
    let st := if x.state = GState.blocked then (if pre then .yielded else .running) else x.state
    (({ x with wait := .none, state := st, pc := x.pc + 8 }).settle).ended halt
  else x

/-- A barrier of a block completes: waiting threads resume and the next generation begins with no arrivals. -/
def State.completeBarrier (s : State) (c : Nat) (b : Block) (n : Nat) : State :=
  let s := s.modBlock c b.id fun y => { y with barriers := y.barriers.set n { arrived := [] } }
  b.slots.foldl (fun s g => s.modGroup c g fun x => x.released n (s.haltBit c g) (s.core c).preempt) s

/-- Complete the first barrier of a block at which every live thread has arrived, and so on. -/
def State.settleBarriers : Nat → State → Nat → Nat → State
  | 0, s, _, _ => s
  | k + 1, s, c, id =>
    match s.blockOf c id with
    | none => s
    | some b =>
      let live := s.liveOf c b
      match (List.range 16).find? fun n => (b.barriers.getD n { arrived := [] }).full live with
      | none => s
      | some n => (s.completeBarrier c b n).settleBarriers k c id

/-- A group waits at a barrier with its running path, and with its pending paths. -/
def Group.atBarrier (x : Group) : Option Nat :=
  match x.wait with
  | .barrier b => some b
  | _ => (x.stack.find? fun e => e.bar.isSome).bind (·.bar)

/-- R230, second case: every group of the block that holds live threads is blocked at a bwait. -/
def State.stuckBlock (s : State) (c : Nat) (b : Block) : Bool :=
  let gs := (b.slots.filterMap fun g => s.group c g).filter fun x => x.live != 0
  !gs.isEmpty && gs.all fun x => x.state == .blocked && (match x.wait with | .barrier _ => true | _ => false)

/-- A group of the block is parked or halted: the checks are suspended. -/
def State.blockStopped (s : State) (c : Nat) (b : Block) : Bool :=
  b.slots.any fun g => match s.group c g with
    | some x => x.state == .parked || x.state == .halted
    | none => false

/-- Every group of a block with waiting threads traps BARRIER_MISMATCH at its bwait. -/
def State.trapWaiters (s : State) (c : Nat) (b : Block) : State :=
  b.slots.foldl (fun s g => match s.group c g with
    | some x => if x.atBarrier.isSome && x.live != 0 && x.state != .parked && x.state != .halted
        then s.trap c g TC.barrier 0x78 x.pc.toNat false else s
    | none => s) s

/-- Barriers of a block after an arrival, an exit or a completion. -/
def State.barriers (s : State) (c id : Nat) : State :=
  let s := s.settleBarriers 16 c id
  match s.blockOf c id with
  | none => s
  | some b => if s.stuckBlock c b && !s.blockStopped c b then s.trapWaiters c b else s

/-- Lanes arrive at barrier n of the group's block, at most once in a generation. -/
def State.arrive (s : State) (c g n : Nat) (m : BitVec 64) : State :=
  match s.group c g with
  | none => s
  | some x => s.modBlock c x.block fun b => { b with
      barriers := b.barriers.modify n fun y => { arrived := (g, arrivedOf y g ||| m) :: y.arrived.filter fun e => e.1 != g } }

/-! ## The next instruction -/

/-- The running path has ended at a path that is blocked at a barrier: the block's barriers are checked (R226, R230). -/
def State.pathEnds (s : State) (c g : Nat) : State :=
  match s.group c g with
  | some x => if x.state = .blocked then s.barriers c x.block else s
  | none => s

/-- The instruction ends and the next one is at `pc`. -/
def State.goTo (s : State) (c g : Nat) (pc : BitVec 48) : State :=
  (s.modGroup c g fun x => ({ x with pc := pc, partly := false }.settle).ended (s.haltBit c g)).pathEnds c g

/-- The instruction ends and execution continues with the next word. -/
def State.advance (s : State) (c g : Nat) : State :=
  match s.group c g with
  | none => s
  | some x => s.goTo c g (x.pc + 8)

/-! ## Exit and kill (R224, R237) -/

/-- A stack entry without lanes that have exited. -/
def StackEntry.without (e : StackEntry) (m : BitVec 64) : StackEntry := { e with mask := e.mask &&& ~~~m }

/-- Lanes exit: they leave the active mask, every stack entry and every barrier's expected count. -/
def Group.exitLanes (x : Group) (m : BitVec 64) : Group :=
  Group.settle { x with
    active := x.active &&& ~~~m, live := x.live &&& ~~~m, stack := x.stack.map fun e => e.without m }

/-- A group is killed: every thread exits at once, its item will complete with FAULT, and it keeps its slot until its
descriptors have completed. -/
def State.kill (s : State) (c g : Nat) : State :=
  match s.group c g with
  | none => s
  | some x =>
    let all : BitVec 64 := BitVec.allOnes 64
    let y : Group := x.exitLanes all
    let s := s.setGroup c g { y with
      killed := true, state := .blocked, wait := .done 0, load := none, stepping := false, stack := [] }
    let s := match s.blockOf c x.block with
      | some b => s.modItem c b.item fun i => { i with faulted := true }
      | none => s
    (s.checkExit c g).barriers c x.block

/-- A core runs groups: dies out of reset, self-test done, not in the safe state, in service and not moving. -/
def State.coreRuns (s : State) (c : Nat) : Bool :=
  s.diesUp && decide (8 ≤ s.pwr.step) && !s.safe && s.avail c && !(s.core c).out && (s.core c).moving.isNone

end Sys2Proof.Machine
end

