-- ==== Sys2Proof/Machine/Contain.lean ====
section
/-! DEFINITION. Containment (R328, R329) at the levels of core and cluster, the retirement of slots (R338) and the places
that logical cores take (R340, R341). -/

namespace Sys2Proof.Machine

/-! ## The cellar map (Table 10.12) -/

def CMapL (i : Nat) : Field :=
  match i with
  | 0 => F.SAF_CMAP_L0
  | 1 => F.SAF_CMAP_L1
  | 2 => F.SAF_CMAP_L2
  | _ => F.SAF_CMAP_L3

def State.setCoreSlot (s : State) (c sl : Nat) : State := s.setFld (CMapL (c % 4)) sl (c / 4)

/-- The spare slot of a cluster; none where SAF.CMAP.SPARE is 7. -/
def State.spareOf (s : State) (q : Nat) : Option Nat :=
  let x := s.fld F.SAF_CMAP_SPARE q
  if x = 7 then none else some (5 * q + x)

def State.setSpare (s : State) (q : Nat) (p : Option Nat) : State :=
  s.setFld F.SAF_CMAP_SPARE (match p with | some x => x % 5 | none => 7) q

/-- A bit of a number set or cleared. -/
def withBit (w i : Nat) (v : Bool) : Nat := if v then w ||| 2 ^ i else w - (w &&& 2 ^ i)

def State.setAvail (s : State) (c : Nat) (v : Bool) : State :=
  s.setFld F.SAF_CMAP_AVAIL (withBit (s.fld F.SAF_CMAP_AVAIL (c / 4)) (c % 4) v) (c / 4)

def State.setRetired (s : State) (p : Nat) : State :=
  s.setFld F.SAF_CMAP_RETIRED (withBit (s.fld F.SAF_CMAP_RETIRED (p / 5)) (p % 5) true) (p / 5)

/-- A slot is retired, and it is the one its cluster lost last (R338, R341). -/
def State.retire (s : State) (p source : Nat) : State :=
  (s.setRetired p).modSaf fun x => { x with lastRetired := Sparse.put x.lastRetired (p / 5) (p % 5, source) }

/-- A slot carries an available logical core that is in service. -/
def State.inUse (s : State) (p : Nat) : Bool :=
  match s.logicalOf p with
  | some c => !(s.core c).out
  | none => false

/-- A slot that no core uses, not retired, that has yet to pass the structural test it is due or is under test. -/
def State.testDue (s : State) (p : Nat) : Bool := !s.isRetired p && !s.inUse p && (!(s.slot p).tested || (s.slot p).testing)

/-- A slot has passed its test since its last use, and none is under way on it (R340, R344). -/
def State.passed (s : State) (p : Nat) : Bool := (s.slot p).tested && !(s.slot p).testing && !s.isRetired p

/-! ## SAF.IFTSTAT (Table 10.12) -/

def IS.idle : Nat := 0
def IS.spare : Nat := 1
def IS.waiting : Nat := 2
def IS.moving : Nat := 3
def IS.vacated : Nat := 4
def IS.boundary : Nat := 5

def State.iftState (s : State) : Nat := s.fld F.SAF_IFTSTAT_STATE

/-- Groups go on behind their yield points. -/
def Group.resume (x : Group) : Group := if x.state = .yielded then { x with state := .running } else x

/-- A rotation in a cluster comes to nothing: the test engine is idle, and the cores that were to be preempted go on. -/
def State.endRotation (s : State) (q : Nat) : State :=
  if (s.iftState = IS.waiting ∨ s.iftState = IS.moving) ∧ s.fld F.SAF_IFTSTAT_CLUSTER = q then
    (List.range 4).foldl (fun s i => s.modCore (4 * q + i) fun k =>
      if k.preempt then { k with preempt := false, groups := k.groups.map fun e => (e.1, e.2.resume) } else k)
      (s.setFld F.SAF_IFTSTAT_STATE IS.idle)
  else s

/-- The test engine is in a state, at a slot. -/
def State.setIft (s : State) (st p : Nat) : State :=
  ((s.setFld F.SAF_IFTSTAT_STATE st).setFld F.SAF_IFTSTAT_CLUSTER (p / 5)).setFld F.SAF_IFTSTAT_SLOT (p % 5)

/-- A test runs on some slot: one at a time across the device (R344). -/
def State.testOn (s : State) : Bool := s.saf.slots.any (·.testing)

/-- Cores run and can be tested. -/
def State.testable (s : State) : Bool := s.diesUp && decide (8 ≤ s.pwr.step) && !s.safe

/-- No item and no group is on a core. -/
def State.coreIdle (s : State) (c : Nat) : Bool :=
  (s.core c).items.isEmpty && (s.core c).groups.isEmpty && (s.core c).engF.queue.isEmpty && (s.core c).engB.queue.isEmpty

/-- A test of a slot begins. -/
def State.beginTest (s : State) (st p : Nat) : State := (s.modSlot p fun x => { x with testing := true }).setIft st p

/-! ## A test of an active slot (R347) -/

/-- Launches to an idle core are held and its slot is tested. -/
def State.holdAndTest (s : State) (c p : Nat) : State :=
  let s := s.modCore c fun k => { k with out := true }
  let s := s.modSaf fun x => { x with waitingCores := x.waitingCores ++ [c], testHold := none }
  (s.modSlot p fun x => { x with tested := false }).beginTest IS.vacated p

/-- The test of an active slot may go on: its cluster has no spare, and the core on it is in service. -/
def State.inPlace (s : State) (c p : Nat) : Bool :=
  s.flag F.SAF_IFT_EN && (s.spareOf (p / 5)).isNone && !(s.core c).out

/-- SEQ launches nothing to a core: it is out of service (R340), or its slot is to be tested (R347). -/
def State.heldBack (s : State) (c : Nat) : Bool :=
  (s.core c).out || (s.saf.testHold == some (s.phys c, true) && s.inPlace c (s.phys c))

/-- A step boundary has come for the test that waits for one: it begins, or SEQ holds launches until the core is idle. -/
def State.boundaryTest (s : State) : State :=
  match s.saf.testHold with
  | some (p, false) =>
    match s.logicalOf p with
    | some c =>
      if !s.inPlace c p then (s.modSaf fun x => { x with testHold := none }).setIft IS.idle p
      else if s.testable && !s.testOn && s.coreIdle c then s.holdAndTest c p
      else s.modSaf fun x => { x with testHold := some (p, true) }
    | none => (s.modSaf fun x => { x with testHold := none }).setIft IS.idle p
  | _ => s

/-! ## Placing a core (R340, R341) -/

/-- The pass-stream registers of a slot go over to another with the core (R346; log entry 19). -/
def State.carryStreams (s : State) (p p' : Nat) : State :=
  let s := s.setReg .CORE_PSARB p' 0 (s.reg .CORE_PSARB p 0)
  (List.range 3).foldl (fun s i =>
    [Reg.CORE_PSQLO, .CORE_PSQHI, .CORE_PSHEAD, .CORE_PSTAIL].foldl (fun s r => s.setReg r p' i (s.reg r p i)) s) s

/-- A logical core takes a slot: it is in service there, and the slot counts as used since its last test. -/
def State.placeCore (s : State) (c p : Nat) : State :=
  let s := if s.phys c = p then s else s.carryStreams (s.phys c) p
  let s := s.setCoreSlot c (p % 5)
  let s := s.modSlot p fun x => { x with tested := false }
  (s.modCore c fun k => { k with out := false, ill := false }).modSaf fun x => { x with
    waitingCores := x.waitingCores.filter (· != c) }

/-- A logical core becomes unavailable: the running step halts, and a DEGRADED record names the slot that was its last
candidate, or the one given where the cluster has lost none since power-up (R341). -/
def State.loseCore (s : State) (c p source : Nat) : State :=
  let s := s.setAvail c false
  let s := (s.modCore c fun k => { k with out := false, ill := false }).modSaf
    fun x => { x with waitingCores := x.waitingCores.filter (· != c) }
  let last := (Sparse.find s.saf.lastRetired (c / 4)).getD (p % 5, source)
  let s := s.record { source := last.2, cls := RC.degraded, level := 2, loc := ⟨p / 20, p % 20 / 5, last.1, 0xFF, c⟩ }
  let s := if s.isRunning then s.halt HC.replayfail (BitVec.ofNat 16 s.node) else s
  s.cellarChanged

/-- A core out of service looks for a slot: a tested spare, else it waits while the spare or its own slot is due a test, else its own
slot where that has passed, else none. A rotation that waited for the spare it takes comes to nothing. -/
def State.seekSlot (s : State) (c source : Nat) : State :=
  let q := c / 4
  let own := s.phys c
  let wait (s : State) : State :=
    if s.saf.waitingCores.contains c then s else s.modSaf fun x => { x with waitingCores := x.waitingCores ++ [c] }
  let due := s.testDue own || (s.spareOf q).any s.testDue
  match s.spareOf q with
  | some p =>
    if s.passed p then ((((s.endRotation q).placeCore c p).setSpare q (if s.passed own then some own else none))).cellarChanged
    else if due then wait s
    else if s.passed own then (s.placeCore c own).cellarChanged
    else s.loseCore c own source
  | none =>
    if due then wait s
    else if s.passed own then (s.placeCore c own).cellarChanged
    else s.loseCore c own source

/-! ## Core level (R328) -/

/-- Every group of a core is killed and every item it has taken completes with FAULT; its engines hold nothing. What it has
produced in the passes in hand is implicated, with an item in hand or without one (R284, R297). -/
def State.stopCore (s : State) (c : Nat) : State :=
  let items := (s.core c).items
  let s := s.modCore c fun k => { Core.reset with
    nextBlock := k.nextBlock, nextItem := k.nextItem, stopped := k.stopped, lastFreed := k.lastFreed,
    out := k.out, ill := k.ill }
  let s := if s.feedsPass c then s.owe retCompute else s
  items.foldl (fun s i => s.itemStatus c i.cnt 0x07) s

/-- The core's slot leaves service, retired or to be tested, and the core seeks another. -/
def State.coreOut (s : State) (c : Nat) (retire : Bool) (source : Nat) : State :=
  let own := s.phys c
  let s := if (s.core c).moving.isSome then s.endRotation (c / 4) else s
  let s := (s.stopCore c).modCore c fun k => { k with out := true, ill := true, preempt := false, moving := none }
  let s := s.modSlot own fun x => { x with tested := false, worked := true }
  let s := if retire then (s.retire own source).cellarChanged else s
  s.seekSlot c source

/-- A slot is retired (R338): a core on it goes out of service; a spare is a spare no longer. -/
def State.retireSlot (s : State) (p source : Nat) : State :=
  if s.isRetired p then s
  else
    match s.logicalOf p with
    | some c =>
      if (s.core c).out then ((s.retire p source).cellarChanged).seekSlot c source else s.coreOut c true source
    | none =>
      let s := s.retire p source
      (if s.spareOf (p / 5) = some p then s.setSpare (p / 5) none else s).cellarChanged

/-! ## Cluster level and above (R329, R340) -/

/-- Cluster-level handling: the four cores leave service and the slots that are not retired are tested at once. -/
def State.clusterOut (s : State) (q : Nat) : State :=
  let s := (List.range 4).foldl (fun s i =>
    (s.stopCore (4 * q + i)).modCore (4 * q + i) fun k => { k with out := true, ill := true, preempt := false, moving := none }) s
  let s := (List.range 5).foldl (fun s i => s.modSlot (5 * q + i) fun x =>
    { x with tested := false, testing := !s.isRetired (5 * q + i), worked := x.worked || (s.logicalOf (5 * q + i)).isSome }) s
  let s := ((s.setSpare q none).showCellar).setIft IS.vacated (((List.range 5).map (5 * q + ·)).find? (!s.isRetired ·) |>.getD (5 * q))
  s.modSaf fun x => { x with
    clusterTests := (q, []) :: x.clusterTests.filter fun e => e.1 != q
    waitingCores := x.waitingCores.filter fun c => c / 4 != q }

/-- A cluster is under cluster-level handling. -/
def State.clusterBusy (s : State) (q : Nat) : Bool := s.saf.clusterTests.any fun e => e.1 == q

/-- An error at core level: core handling, or the next level where the core, or its cluster, is being handled (R329). A core that
is held out for a routine test (R347) is not being handled. -/
def State.coreError (s : State) (c source : Nat) : State :=
  if s.clusterBusy (c / 4) then s.enterSafe source
  else if (s.core c).ill then s.clusterOut (c / 4)
  else s.coreOut c false source

/-- The level at which an error of a core is handled (R329, R333). -/
def State.coreLevel (s : State) (c : Nat) : Nat := if s.clusterBusy (c / 4) then 4 else if (s.core c).ill then 3 else 2

/-- Record an error of a core at the level at which it is handled, and handle it; at die level its class is FATAL. -/
def State.coreFault (s : State) (c : Nat) (r : Rec) : State :=
  let n := s.coreLevel c
  (s.record { r with level := n, cls := if n = 4 then RC.fatal else r.cls }).coreError c r.source

/-- A word of a slot's SRAM has failed again: the slot is retired (R338), and where its core is being handled already, or its cluster,
that is an error of the next level (R329). -/
def State.wordLost (s : State) (p : Nat) : State :=
  match s.logicalOf p with
  | some c =>
    if s.isRetired p || !((s.core c).ill || s.clusterBusy (p / 5)) then s.retireSlot p 0x04
    else ((s.retire p 0x04).cellarChanged).coreError c 0x04
  | none => s.retireSlot p 0x04

/-! ## Items and engines that fail (R328) -/

/-- The groups of an item are killed, and the item will complete with FAULT. -/
def State.failItem (s : State) (c id : Nat) : State :=
  let s := s.modItem c id fun i => { i with faulted := true }
  let gs := ((s.core c).blocks.filter fun b => b.item == id).flatMap (·.slots)
  gs.foldl (fun s g => match s.group c g with
    | some x => if x.killed then s else s.kill c g
    | none => s) s

/-- The item of the group in a slot. -/
def State.itemOfGroup (s : State) (c g : Nat) : Option Nat :=
  match s.group c g with
  | none => none
  | some x => (s.blockOf c x.block).map (·.item)

/-! ## Vector lanes (R337) -/

/-- The instructions of class S, which go to pipe 1 (Table 7.5, R212). -/
def slowOps : List Nat := [0x26, 0x27, 0x40, 0x41, 0x42, 0x43, 0x44, 0x45]

/-- Retired physical lanes of a pipe. -/
def Slot.lanesOut (x : Slot) (pipe : Nat) : List Nat := if pipe = 0 then x.lanes0 else x.lanes1

/-- The physical lane that a logical lane uses: retired ones are passed over (R337). -/
def Slot.physLane (x : Slot) (pipe l : Nat) : Nat := nth 66 ((List.range 66).filter fun n => !(x.lanesOut pipe).contains n) l

/-- The logical lanes from a physical lane upward move up by one. -/
def Slot.loseLane (x : Slot) (pipe n : Nat) : Slot :=
  if pipe = 0 then { x with lanes0 := x.lanes0 ++ [n] } else { x with lanes1 := x.lanes1 ++ [n] }

/-- Faulty lanes in the slot of a core. -/
def State.lanesBad (s : State) (c : Nat) : List BadLane := s.saf.badLanes.filter fun b => b.slot == s.phys c

/-- The first faulty lane of a pipe that an instruction meets, with the logical lane it serves. -/
def State.laneMet (s : State) (c pipe : Nat) (lanes : List Nat) : Option (BadLane × Nat) :=
  (s.lanesBad c).findSome? fun b =>
    if b.pipe = pipe then (lanes.find? fun l => (s.slot (s.phys c)).physLane pipe l == b.lane).map fun l => (b, l) else none

/-- The record of a residue mismatch; `h` gives the hash over the operands of a lane. -/
def State.laneRec (s : State) (c opc : Nat) (h : Nat → Nat) (b : BadLane) (l cls : Nat) : Rec :=
  { source := 0x03, cls := cls, level := 1, loc := s.coreLoc c (128 * b.pipe + b.lane), ophash := h l, opcode := opc, opdetail := l
    colmask := b.syndrome }

/-- An instruction meets a faulty lane: it is reissued once. A fault that the reissue does not show is CORRECTED; one that it
shows again is permanent, and the lane is replaced and the instruction reissued, or the core escalates with the third (R335,
R337). Answers whether the instruction completes. -/
def State.meetLane (s : State) (c opc : Nat) (h : Nat → Nat) (b : BadLane) (l : Nat) : State × Bool :=
  let p := s.phys c
  let t := s.modSaf fun x => { x with badLanes := x.badLanes.filter (· != b) }
  if !b.lasting then (t.record (s.laneRec c opc h b l RC.corrected), true)
  else if ((s.slot p).lanesOut b.pipe).length < 2 then
    (((t.record (s.laneRec c opc h b l RC.spared)).modSlot p fun x => x.loseLane b.pipe b.lane).cellarChanged, true)
  else (s.coreFault c (s.laneRec c opc h b l RC.recovered), false)

/-- The residue check of a vector instruction before its write-back (R323): whether it completes. Class P goes to either pipe, a
free choice. Shifted lanes are checked again, and a second faulty lane of the pipe, met before the instruction retires, is an error
of the core (R329). -/
def State.checkLanes (s : State) (c opc : Nat) (h : Nat → Nat) (lanes : List Nat) : State × Bool :=
  if (s.lanesBad c).isEmpty then (s, true)
  else
    let pipe := if slowOps.contains opc || Config.choice s.free then 1 else 0
    match s.drawn.laneMet c pipe lanes with
    | none => (s.drawn, true)
    | some (b, l) =>
      let y := s.drawn.meetLane c opc h b l
      match (if y.2 then y.1.laneMet c pipe lanes else none) with
      | none => y
      | some (b', l') => (y.1.coreFault c (y.1.laneRec c opc h b' l' RC.recovered), false)

def Bank.spoiled : Bank := { invalid := true, record := none, acc := [] }

/-- A descriptor that an engine stops computing writes no block of D and raises no flag from then on (R99). -/
def QDesc.stopped (q : QDesc) : QDesc := if q.status = 0x07 then q else { q with flags := 0, blocks := [] }

/-- Engine-level handling: both banks are invalid, every queued descriptor will complete with FAULT, and the groups whose
items fail are killed. -/
def State.engineFail (s : State) (c : Nat) (e : Eng) : State :=
  let gs := ((s.eng c e).queue.map (·.group)).eraseDups
  let s := s.modEng c e fun x => { x with
    queue := x.queue.map QDesc.stopped, bank0 := Bank.spoiled, bank1 := Bank.spoiled, recomp := [], failing := true }
  (gs.filterMap fun g => s.itemOfGroup c g).eraseDups.foldl (fun s id => s.failItem c id) s

end Sys2Proof.Machine
end

