-- ==== Sys2Proof/Machine/Agents.lean ====
section
/-! DEFINITION. The reads and writes of an agent of the device, and of the block as a whole: what Machine/Access.lean gives, with
the safe state that an overflow of the error ring brings (R332) and the retirement of a slot whose SRAM word fails again (R338). -/

namespace Sys2Proof.Machine

/-- Slots in which a read has met a word that failed again after its rewrite. -/
def State.lostSlots (s : State) : List Nat := ((s.saf.sram.filter fun e => e.2.met).map fun e => e.1 / 2 ^ 21).eraseDups

/-- What reads have met takes effect, from one state to the next: an overflow of the ring, and slots to retire. -/
def State.tended (t s : State) : State :=
  let u := t.overflows s
  if t.lostSlots.isEmpty then u
  else t.lostSlots.foldl (fun s p => s.wordLost p) (u.modSaf fun x => { x with sram := x.sram.filter fun e => !e.2.met })

def State.corrected (s : State) (u : Nat) : State := (s.noteCorrected u).tended s
def State.uncorrectable (s : State) (u : Nat) : State := (s.noteUncorrectable u).tended s

/-- What a read finds in a unit takes effect. -/
def State.meet (s : State) (u : Nat) (found : ScrubResult) : State := (s.noteMeet u found).tended s

/-- A read of a unit meets the cell error that lies in it, if one does. -/
def State.meetUnit (s : State) (u : Nat) : State := (s.noteUnit u).tended s

/-- Read HBM bytes (R186). -/
def State.readHbm (s : State) (ks : List Nat) : State × Except MErr (List Byte) :=
  let y := s.noteHbm ks
  (y.1.tended s, y.2)

/-- Read the page table entries of a walk; true where one is uncorrectable. -/
def State.readWalk (s : State) (reads : List Nat) : State × Bool :=
  let y := s.noteWalk reads
  (y.1.tended s, y.2)

/-- Checks of ranges walk their pages' entries: the stacks of these wake, and the errors in them are met; true where one is
uncorrectable (R186, R368). -/
def State.walkRanges (s : State) (l : List (Acc × Nat × Nat)) : State × Bool :=
  s.readWalk (l.flatMap fun x => s.rangeReads x.1 x.2.1 x.2.2)

/-- Read spans of local bytes of a logical core: whether ECC delivers them, and whether a word fails again, in which case the slot
is retired (R323, R338). -/
def State.meetWords (s : State) (c : Nat) (spans : List (Nat × Nat)) : State × Bool × Bool :=
  let y := s.noteWords c spans
  (y.1.tended s, y.2)

/-- What a write would meet, and whether an error would stop it; nothing is written. -/
def State.probe (s : State) (agent : Nat) (upd : Bool) (va n : Nat) : State × Option MErr :=
  let y := s.probeChunks agent upd (chunksOf va n)
  (y.1.tended s, y.2)

/-- Write bytes at a VA on behalf of an agent (its AGENT code of Table 6.7). -/
def State.write (s : State) (agent : Nat) (upd : Bool) (va : Nat) (bytes : List Byte) : State × Option MErr :=
  let y := s.noteWrite agent upd va bytes
  (y.1.tended s, y.2)

/-- A write whose failure changes nothing more. -/
def State.put (s : State) (agent va : Nat) (bytes : List Byte) : State := (s.write agent false va bytes).1

/-- Read `n` bytes at a VA on behalf of an agent. -/
def State.read (s : State) (agent va n : Nat) : State × Except MErr (List Byte) :=
  let y := s.noteRead agent va n
  (y.1.tended s, y.2)

/-- Read `k` 64-bit words. -/
def State.readWords (s : State) (agent va k : Nat) : State × Except MErr (List DWord) :=
  match s.read agent va (8 * k) with
  | (s1, .error e) => (s1, .error e)
  | (s1, .ok b) => (s1, .ok (toWords k b))

end Sys2Proof.Machine
end

