-- ==== Sys2Proof/Machine/Rings.lean ====
section
/-! DEFINITION. Rings in HBM described by a base, a size, a head and a tail register (R147, R162, R205). -/

namespace Sys2Proof.Machine

/-- The unit that takes the entries of a ring. -/
inductive RingUnit where
  | mse
  | dma
  | core
deriving DecidableEq, Repr

/-- The registers of a ring, the bytes of its entries and the unit that takes them. -/
structure RingRegs where
  lo : Reg
  hi : Reg
  hd : Reg
  tl : Reg
  entry : Nat
  unit : RingUnit
deriving DecidableEq, Repr

def mseRing : RingRegs := ⟨.MSE_RINGLO, .MSE_RINGHI, .MSE_RHEAD, .MSE_RTAIL, 64, .mse⟩
def dmaRing : RingRegs := ⟨.DMA_CHRINGLO, .DMA_CHRINGHI, .DMA_CHHEAD, .DMA_CHTAIL, 64, .dma⟩
def passRing : RingRegs := ⟨.CORE_PSQLO, .CORE_PSQHI, .CORE_PSHEAD, .CORE_PSTAIL, 32, .core⟩

/-- log2 of the entries: 4 to 12; every other value disables the ring. -/
def State.ringLog (s : State) (r : RingRegs) (i j : Nat) : Nat :=
  let z := bitsOf (s.reg r.hi i j).toNat 20 16
  if 4 ≤ z ∧ z ≤ 12 then z else 0

def State.ringOn (s : State) (r : RingRegs) (i j : Nat) : Bool := s.ringLog r i j != 0
def State.ringSize (s : State) (r : RingRegs) (i j : Nat) : Nat := 2 ^ s.ringLog r i j

def State.ringBase (s : State) (r : RingRegs) (i j : Nat) : Nat :=
  bitsOf (s.reg r.hi i j).toNat 15 0 * 2 ^ 32 + bitsOf (s.reg r.lo i j).toNat 31 12 * 4096

def State.ringHead (s : State) (r : RingRegs) (i j : Nat) : Nat := (s.reg r.hd i j).toNat % 4096
def State.ringTail (s : State) (r : RingRegs) (i j : Nat) : Nat := (s.reg r.tl i j).toNat % 4096

/-- An entry waits. -/
def State.ringHas (s : State) (r : RingRegs) (i j : Nat) : Bool :=
  s.ringOn r i j && s.ringHead r i j != s.ringTail r i j

def State.ringFull (s : State) (r : RingRegs) (i j : Nat) : Bool :=
  (s.ringTail r i j + 1) % s.ringSize r i j == s.ringHead r i j

/-- The head moves to the next entry. -/
def State.ringPop (s : State) (r : RingRegs) (i j : Nat) : State :=
  s.setReg r.hd i j (BitVec.ofNat 32 ((s.ringHead r i j + 1) % s.ringSize r i j))

/-- Read the entry at the head. -/
def State.ringRead (s : State) (r : RingRegs) (i j agent : Nat) : State × Except MErr (List DWord) :=
  s.readWords agent (s.ringBase r i j + r.entry * s.ringHead r i j) (r.entry / 8)

/-- A write of the tail: a ring that stopped on an unreadable entry resumes (R147, R162, R205). -/
def State.ringResume (s : State) (r : RingRegs) (i j : Nat) : State :=
  match r.unit with
  | .mse => s.modMse i fun m => { m with stopped := m.stopped.set j false }
  | .dma => s.modDma i fun d => { d with stopped := false }
  | .core => match s.logicalOf i with
    | none => s
    | some c => s.modCore c fun k => { k with stopped := k.stopped.set j false }

/-- The tail takes a value, and the ring resumes. -/
def State.setTail (s : State) (r : RingRegs) (i j t : Nat) : State :=
  (s.setReg r.tl i j (BitVec.ofNat 32 t)).ringResume r i j

/-- Append an entry and advance the tail; `upd`: a write on behalf of the update stream (R178). -/
def State.ringPush (s : State) (r : RingRegs) (i j agent : Nat) (upd : Bool) (words : List DWord) : State × Option MErr :=
  match s.write agent upd (s.ringBase r i j + r.entry * s.ringTail r i j) (ofWords words) with
  | (s1, some e) => (s1, some e)
  | (s1, none) => (s1.setTail r i j ((s1.ringTail r i j + 1) % s1.ringSize r i j), none)

/-- A tail written through BAR0: a value at or above the entry count is ignored where `strict` (R205). -/
def State.ringTailWrite (s : State) (r : RingRegs) (i j : Nat) (v : Word) (strict : Bool) : State :=
  let t := v.toNat % 4096
  if strict && decide (s.ringSize r i j ≤ t) then s else s.setTail r i j t

end Sys2Proof.Machine
end

