-- ==== Sys2Proof/Machine/Stipple.lean ====
section
/-! DEFINITION. The stipple generator (R130, R131) and the bits its consumers take (R133). -/

namespace Sys2Proof.Machine

/-- The state of the generator. -/
structure Mix where
  x0 : Word
  x1 : Word
  x2 : Word
  x3 : Word
deriving DecidableEq, Repr

def stippleRho (r : Nat) : Nat := [11, 19, 6, 23].getD (r % 4) 0
def stippleSigma (r : Nat) : Nat := [27, 3, 14, 9].getD (r % 4) 0

/-- Round r (R131). -/
def Mix.round (lo hi : Word) (r : Nat) (m : Mix) : Mix :=
  let x0 := m.x0 + m.x1
  let x3 := (m.x3 ^^^ x0).rotateLeft (stippleRho r)
  let x2 := m.x2 + x3
  let x1 := (m.x1 ^^^ x2).rotateLeft (stippleSigma r)
  if r = 3 ∨ r = 7 ∨ r = 11 then ⟨x0 ^^^ lo, x1 ^^^ hi, x2 + BitVec.ofNat 32 r, x3⟩ else ⟨x0, x1, x2, x3⟩

/-- Output words y0 to y3 for a seed and a counter. -/
def stipple (lo hi w0 w1 w2 w3 : Word) : Mix :=
  let m : Mix := (List.range 12).foldl (fun m r => Mix.round lo hi r m) (Mix.mk w0 w1 w2 w3)
  ⟨m.x0 + w0, m.x1 + w1, m.x2 + w2, m.x3 + w3⟩

/-- Output word n. -/
def Mix.out (m : Mix) (n : Nat) : Word :=
  match n with
  | 0 => m.x0
  | 1 => m.x1
  | 2 => m.x2
  | _ => m.x3

/-- The generator under the device's seed NUM.STSEEDHI:NUM.STSEEDLO. -/
def State.stipple (s : State) (w0 w1 w2 w3 : Word) : Mix :=
  Machine.stipple (s.reg .NUM_STSEEDLO 0 0) (s.reg .NUM_STSEEDHI 0 0) w0 w1 w2 w3

/-- The counter of element `i` for a stream id, a tensor id and a draw (R130). -/
def State.stippleAt (s : State) (stream : Nat) (tensor draw : Word) (i : Nat) : Mix :=
  s.stipple draw (BitVec.ofNat 32 i) (BitVec.ofNat 32 (stream % 65536 * 65536 + i / 2 ^ 32 % 65536)) tensor

/-- The bits u of stochastic rounding (R52). -/
def srBits (m : Mix) : Nat := m.x0.toNat % 65536

end Sys2Proof.Machine
end

