-- ==== Sys2Proof/Machine/Operands.lean ====
section
/-! DEFINITION. Operand forms of the thread instructions (R214 to R217), their issue with fetch and checks (R204, R228,
R238), and the write-back of their results. -/

namespace Sys2Proof

/-! ## Fields of the instruction word -/

/-- The instruction word (Table 7.4). -/
def IFields.word (w : IFields) (opc : Nat) : DWord :=
  BitVec.ofNat 64 (opc * 2 ^ 56 + b2n w.pn * 2 ^ 55 + w.ps.toNat * 2 ^ 52 + w.md.toNat * 2 ^ 48 + w.d.toNat * 2 ^ 40
    + w.a.toNat * 2 ^ 32 + w.b.toNat * 2 ^ 24 + w.c.toNat * 2 ^ 16 + w.imm.toNat)

/-- The signed immediate. -/
def IFields.simm (w : IFields) : Int := Machine.signed 16 w.imm.toNat

/-- Bits [31:0] of the word as one immediate (ldk). -/
def IFields.imm32 (w : IFields) : Word :=
  BitVec.ofNat 32 (w.b.toNat * 2 ^ 24 + w.c.toNat * 2 ^ 16 + w.imm.toNat)

/-- The signed immediate in B:C (jump). -/
def IFields.bc (w : IFields) : Int := Machine.signed 16 (w.b.toNat * 256 + w.c.toNat)

/-- MOD bit i. -/
def IFields.m (w : IFields) (i : Nat) : Bool := w.md.toNat.testBit i

end Sys2Proof

namespace Sys2Proof.Machine

/-! ## Forms -/

/-- What an 8-bit register field of the instruction word is to an opcode. -/
inductive Use where
  /-- unused: must be zero -/
  | no
  | reg
  | pair
  /-- a predicate number in its low three bits -/
  | pred
  /-- part of an immediate -/
  | bits
deriving DecidableEq, Repr

/-- The fields that an opcode uses, its MOD values as a set of bits, and whether it requires PS = 0 and PN = 0 (R215). -/
structure Form where
  d : Use := .no
  a : Use := .no
  b : Use := .no
  c : Use := .no
  imm : Bool := false
  mods : Nat := 1
  plain : Bool := false
deriving DecidableEq, Repr

/-- A field is well used: zero where unused, below the thread's count, an even pair base (R214, R216). -/
def Use.ok (u : Use) (f n : Nat) : Bool :=
  match u with
  | .no => f == 0
  | .reg => decide (f < n)
  | .pair => f % 2 == 0 && decide (f + 1 < n)
  | .pred => decide (f < 8)
  | .bits => true

/-- The instruction is legal for a thread with `n` registers; otherwise it traps ILLEGAL. -/
def Form.legal (f : Form) (n : Nat) (w : IFields) : Bool :=
  f.d.ok w.d.toNat n && f.a.ok w.a.toNat n && f.b.ok w.b.toNat n && f.c.ok w.c.toNat n
    && (f.imm || w.imm == 0) && f.mods.testBit w.md.toNat && (!f.plain || (w.ps == 0 && !w.pn))

/-- pc + 8 × n, in 48 bits. -/
def pcPlus (pc : BitVec 48) (n : Int) : BitVec 48 := BitVec.ofInt 48 (pc.toNat + 8 * n)

/-! ## Fetch and issue -/

/-- The opcodes of Table 7.5. -/
def opcodes : List Nat :=
  List.range' 0x00 23 ++ List.range' 0x20 10 ++ List.range' 0x30 5 ++ List.range' 0x38 4 ++ List.range' 0x40 6
    ++ List.range' 0x50 6 ++ List.range' 0x60 9 ++ [0x70, 0x71, 0x78, 0x79, 0x7A, 0x80, 0x81, 0x84, 0x85, 0x88, 0x89]
    ++ [0x90, 0x91, 0x92, 0x9C, 0x9D, 0x9E, 0x9F]

/-- The word of code at a PC as HBM holds it; none where a read of it would not deliver it. -/
def State.codeWord (s : State) (pc : Nat) : Option DWord :=
  match s.xlate .read false pc with
  | .ok ⟨.hbm pa, reads, _⟩ =>
    if (pa :: reads).any fun a => s.isPoisoned (s.paKey a / 32) || (Sparse.find s.hbm.latent (s.paKey a / 32)).isSome then none
    else some (toDWord (s.paBytes pa 8))
  | _ => none

/-- The instruction cache takes a word; where its 64 KiB are full it drops one, which one the spec does not say (R203; log entry
15). -/
def State.cacheCode (s : State) (c pc : Nat) (v : DWord) : State :=
  let full := decide (8192 ≤ (s.core c).icache.length)
  let s1 := s.modCore c fun k => { k with
    icache := Sparse.put (if full then k.icache.eraseIdx (Config.pick s.free % 8192) else k.icache) (pc / 8) v }
  if full then s1.drawn else s1

/-- A word of code that the instruction cache does not hold: read from the HBM window, or the trap cause. A PC in the reserved
range is refused (R174, R204). -/
def State.fetchHbm (s : State) (c pc : Nat) : State × Except Nat DWord :=
  if 0x100040000000 ≤ pc ∧ pc < 0x800000000000 then (s.logFault c 7 pc, .error TC.access)
  else if 0x100000000000 ≤ pc then (s, .error TC.xlate)
  else
    match s.read c pc 8 with
    | (s1, .error .ecc) => (s1, .error TC.memerr)
    | (s1, .error _) => (s1, .error TC.xlate)
    | (s1, .ok b) => (s1.cacheCode c pc (toDWord b), .ok (toDWord b))

/-- A word that the instruction cache holds, where its ECC delivers it (R323). -/
def State.cacheRead (s : State) (c pc : Nat) (v : DWord) : State × Except Nat DWord :=
  let y := s.meetWords c [(8 * cacheWord pc, 8)]
  (y.1, if y.2.1 then .ok v else .error TC.memerr)

/-- The word fetched at a PC (R204). The cache is not kept coherent, and when it drops a word the spec does not say: where memory
no longer holds the cached word, either is fetched (log entry 15). -/
def State.fetchWord (s : State) (c pc : Nat) : State × Except Nat DWord :=
  match Sparse.find (s.core c).icache (pc / 8) with
  | none => s.fetchHbm c pc
  | some v =>
    if s.codeWord pc = some v then s.cacheRead c pc v
    else if Config.choice s.free then s.drawn.cacheRead c pc v
    else s.drawn.fetchHbm c pc

/-- Why a group does not execute a word at its PC. -/
inductive FetchEnd where
  /-- The fetch fails, or brings a word whose opcode Table 7.5 does not have: the group traps, with the opcode of its record. -/
  | trap (cause opc : Nat)
  /-- Another instruction lies there. -/
  | other
deriving DecidableEq, Repr

/-- Fetch at a PC for the instruction `word`: none where that is the word fetched (R204, R214, R217). -/
def State.fetch (s : State) (c : Nat) (pc : BitVec 48) (word : DWord) : State × Option FetchEnd :=
  match s.fetchWord c pc.toNat with
  | (s1, .error cause) => (s1, some (.trap cause (word.toNat / 2 ^ 56)))
  | (s1, .ok v) =>
    if v = word then (s1, none)
    else if opcodes.contains (v.toNat / 2 ^ 56) then (s, some .other)
    else (s1, some (.trap TC.illegal (v.toNat / 2 ^ 56)))

/-- An enabled breakpoint register names the PC (R238). -/
def State.breakpoint (s : State) (c : Nat) (pc : BitVec 48) : Bool :=
  (List.range 4).any fun n =>
    let p := s.phys c
    s.flag F.CORE_BKPTLO_EN p n
      && s.fld F.CORE_BKPTHI_VAHI p n * 2 ^ 32 + s.fld F.CORE_BKPTLO_VALO p n * 8 == pc.toNat

/-- The registers that an instruction reads, as spans of its slot's storage. -/
def Group.regSpans (x : Group) (g : Nat) (w : IFields) (f : Form) : List (Nat × Nat) :=
  let rs := [(f.a, w.a), (f.b, w.b), (f.c, w.c)].filter fun e => e.1 == .reg || e.1 == .pair
  (lanesOf (x.exec w)).flatMap fun l => rs.map fun e => (8 * regWord g l e.2.toNat, 8)

/-- The instruction runs where the ECC of its source registers delivers them; a word that it does not deliver traps MEMERR, and one
that fails again takes the slot, and the group with it, out of service (R323, Table 10.6). -/
def State.readRegs (s : State) (c g opc : Nat) (w : IFields) (f : Form) (x : Group) (body : State → Group → State) : State :=
  let y := s.meetWords c (x.regSpans g w f)
  if y.2.2 then y.1
  else if y.2.1 then body y.1 x
  else y.1.trap c g TC.memerr opc x.pc.toNat false

/-! ## The issue arbiter (R211, R212) -/

/-- A stream's weight in CORE.PSARB. -/
def State.weight (s : State) (c : Nat) : Stream → Nat
  | .b => s.fld F.CORE_PSARB_WB (s.phys c)
  | .f => s.fld F.CORE_PSARB_WF (s.phys c)
  | .u => s.fld F.CORE_PSARB_WU (s.phys c)

/-- A stream's place in credit[], which is also its turn in a tie. -/
def turnOf : Stream → Nat
  | .b => 0
  | .f => 1
  | .u => 2

/-- credit[] after each stream that holds a ready group has received its weight. -/
def paid (w : Stream → Nat) (rs : List Stream) (cr : List Int) : List Int :=
  rs.foldl (fun cr p => cr.modify (turnOf p) (· + (w p : Int))) cr

/-- The stream with the largest credit, in a tie B before F before U; one of weight 0 only where no other is ready. -/
def pickStream (w : Stream → Nat) (rs : List Stream) (cr : List Int) : Option Stream :=
  let some_ := rs.any fun p => w p != 0
  ([Stream.b, .f, .u].filter fun p => rs.contains p && (!some_ || w p != 0)).foldl (fun best p =>
    match best with
    | none => some p
    | some q => if cr.getD (turnOf q) 0 < cr.getD (turnOf p) 0 then some p else some q) none

/-- credit[] after a slot that stream p takes. -/
def charged (w : Stream → Nat) (rs : List Stream) (p : Stream) (cr : List Int) : List Int :=
  (paid w rs cr).modify (turnOf p) (· - ((rs.map w).sum : Int))

/-- Opcodes that dual issue does not follow: jump, jumpr, call, bwait, bmark, twait, cede and done (R212). -/
def endsStep : List Nat := [0x90, 0x91, 0x92, 0x78, 0x79, 0x81, 0x9C, 0x9E]

/-- Groups that can take the slot beside group g, which asks for it: running ones that are ready. -/
def State.rivals (s : State) (c g : Nat) : List (Nat × Group) :=
  (s.core c).groups.filter fun e => e.1 != g && e.2.state == .running && !e.2.killed && Config.ready s.free e.1

/-- Age of a group: its block, then its index in the block. -/
def Group.older (x y : Group) : Bool := decide (x.block < y.block) || (x.block == y.block && decide (x.index < y.index))

/-- Group g's stream is charged for the slot that its instruction takes. -/
def State.takeSlot (s : State) (c g opc : Nat) (rs : List Stream) (st : Stream) : State :=
  s.modCore c fun k => { k with credit := charged (s.weight c) rs st k.credit
                                lastIssue := if endsStep.contains opc then none else some g }

/-- The issue slot goes to group g: its stream is picked and it is the oldest ready group there, or it dual-issues behind its own
instruction. None where another group takes the slot first. Which running groups are ready, and whether a slot is the second of
its step, are free values where another group runs (log entry 65). -/
def State.grant (s : State) (c g opc : Nat) (x : Group) : Option State :=
  let rv := s.rivals c g
  let rs := [Stream.b, .f, .u].filter fun p => p == x.stream || rv.any fun e => e.2.stream == p
  let first := pickStream (s.weight c) rs (paid (s.weight c) rs (s.core c).credit) == some x.stream
    && rv.all fun e => e.2.stream != x.stream || x.older e.2
  let second := (s.core c).lastIssue == some g && Config.choice s.free
  let t := s.takeSlot c g opc rs x.stream
  if rv.isEmpty then some t else if first || second then some t.drawn else none

/-- A running group takes the instruction word at its PC. Where it cannot (no such group, not running, halted by HALT, another
instruction at its PC, the issue slot another group's), the event does not occur. Debug stops, a misaligned PC and a failed fetch
come first; then the checks of the form. -/
def State.issue (s : State) (c g opc : Nat) (w : IFields) (f : Form) (body : State → Group → State) : State :=
  match s.group c g with
  | none => s
  | some x =>
    if !s.coreRuns c || x.state != .running || x.killed then s
    else if !x.stepping && s.haltBit c g then s.modGroup c g fun y => { y with state := .halted }
    else if !x.stepping && s.debugMode c && s.breakpoint c x.pc then s.trap c g TC.break_ opc x.pc.toNat false
    else if x.pc.toNat % 8 ≠ 0 then s.trap c g TC.misalign opc x.pc.toNat false
    else match s.grant c g opc x with
    | none => s
    | some s0 =>
      match s0.fetch c x.pc (w.word opc) with
      | (_, some .other) => s
      | (s1, some (.trap cause code)) => if (s1.group c g).isNone then s1 else s1.trap c g cause code x.pc.toNat false
      | (s1, none) =>
        if (s1.group c g).isNone then s1
        else if f.legal x.nregs w then s1.readRegs c g opc w f x body
        else s1.trap c g TC.illegal opc x.pc.toNat false

/-! ## Results -/

/-- A result of one lane: a new register value and flags. -/
abbrev LaneRes := Word × Flags

/-- Write one register in each executing lane, with the old group's values as sources, and OR the flags. -/
def writeLanes (x : Group) (d : Nat) (lanes : List Nat) (f : Nat → LaneRes) : Group × Flags :=
  lanes.foldl (fun a l => let r := f l; (a.1.setReg l d r.1, a.2 ||| r.2)) (x, 0)

/-- The hash over the operands of a lane that a record of a vector fault holds (Table 10.3). -/
def Group.opHash (x : Group) (w : IFields) (l : Nat) : Nat :=
  crc32c ([w.a, w.b, w.c].flatMap fun r => toBytes 4 (x.reg l r.toNat).toNat)

/-- An instruction of classes P and S: its lanes' residues are checked (R323), and d = f lane in every executing lane; flags go to
the vector engine of the logical core (R66); then the next instruction. `after` is `State.drawn` where the lanes use free values. -/
def State.perLane (s : State) (c g opc : Nat) (w : IFields) (f : Form) (op : State → Group → Nat → LaneRes)
    (after : State → State := id) : State :=
  s.issue c g opc w f fun s x =>
    let y := s.checkLanes c opc (x.opHash w) (lanesOf (x.exec w))
    if y.2 then
      let r := writeLanes x w.d.toNat (lanesOf (x.exec w)) (op y.1 x)
      (((after y.1).setGroup c g r.1).raiseVec c r.2).advance c g
    else y.1

/-- The same for a predicate result. -/
def State.perLanePred (s : State) (c g opc : Nat) (w : IFields) (f : Form) (op : Group → Nat → Bool × Flags) : State :=
  s.issue c g opc w f fun s x =>
    let y := s.checkLanes c opc (x.opHash w) (lanesOf (x.exec w))
    if y.2 then
      let r := (lanesOf (x.exec w)).foldl (fun (a : Group × Flags) l =>
        let v := op x l; (a.1.setPred l w.d.toNat v.1, a.2 ||| v.2)) (x, 0)
      ((y.1.setGroup c g r.1).raiseVec c r.2).advance c g
    else y.1

/-- Source values of a lane. -/
def Group.av (x : Group) (w : IFields) (l : Nat) : Word := x.reg l w.a.toNat
def Group.bv (x : Group) (w : IFields) (l : Nat) : Word := x.reg l w.b.toNat
def Group.cv (x : Group) (w : IFields) (l : Nat) : Word := x.reg l w.c.toNat

end Sys2Proof.Machine
end

