-- ==== Sys2Proof/Machine/ThreadMem.lean ====
section
/-! DEFINITION. Loads, stores, fences and atomics of thread groups (R195, R221, R222, R232 to R234). -/

namespace Sys2Proof.Machine

/-! ## Addresses -/

/-- Bytes of a size code. -/
def sizeBytes (k : Nat) : Nat := 2 ^ (k % 4)

def regOrPair (wide : Bool) : Use := if wide then .pair else .reg

/-- The source value of b for a size. -/
def Group.srcB (x : Group) (w : IFields) (l : Nat) (wide : Bool) : Nat :=
  if wide then (x.pair l w.b.toNat).toNat else (x.bv w l).toNat

/-- Write d as one register or a pair. -/
def Group.setD (x : Group) (l d : Nat) (wide : Bool) (v : Nat) : Group :=
  if wide then x.setPair l d (BitVec.ofNat 64 v) else x.setReg l d (BitVec.ofNat 32 v)

/-- The local address a + sext(IMM). -/
def Group.localAddr (x : Group) (w : IFields) (l : Nat) : Int := (x.av w l).toNat + w.simm

/-- The trap cause of a local access, if it traps: not aligned, or outside local memory and tile buffers (R221). -/
def localCause (a : Int) (size : Nat) : Option Nat :=
  if a % size ≠ 0 then some TC.misalign
  else if a < 0 ∨ 0xA00000 ≤ a then some TC.access
  else none

/-- The global address a:a+1 plus an offset. -/
def Group.globalAddr (x : Group) (w : IFields) (l : Nat) (off : Int) : Nat :=
  ((x.pair l w.a.toNat).toNat + 2 ^ 64 + off).toNat % 2 ^ 64

def gNode (ga : Nat) : Nat := ga / 2 ^ 48
def gVa (ga : Nat) : Nat := ga % 2 ^ 48

/-- A global address that another device owns (R173). -/
def State.isPeer (s : State) (ga : Nat) : Bool := gNode ga != s.node

/-- An address in the cluster-shared window outside the own cluster (R175). -/
def otherCluster (c va : Nat) : Bool :=
  decide (0x100000000000 ≤ va ∧ va < 0x100040000000) && (va - 0x100000000000) / 2 ^ 24 / 4 != c / 4

/-- Checks of a global access before translation: alignment, cluster, and a peer's HBM window (R221, R261). -/
def State.globalCause (s : State) (c ga size : Nat) : Option Nat :=
  let va := gVa ga
  if va % size ≠ 0 then some TC.misalign
  else if s.isPeer ga then (if 0x100000000000 ≤ va then some TC.access else none)
  else if otherCluster c va then some TC.access
  else none

/-- The trap of a failed access. -/
def MErr.cause : MErr → Nat
  | .mmu 7 => TC.access
  | .mmu _ => TC.xlate
  | .ecc => TC.memerr
  | .port => TC.memerr

/-- The group's item has met a refused write (R178, R210). -/
def State.freezeItem (s : State) (c : Nat) (x : Group) : State :=
  match s.blockOf c x.block with
  | none => s
  | some b => s.modItem c b.item fun i => { i with frozen := true }

/-- Writes of U groups are on behalf of the update stream (R178). -/
def Group.upd (x : Group) : Bool := x.stream == .u

/-! ## Local memory instructions -/

/-- Sign extension of a loaded value of `n` bytes to 32 bits. -/
def extendLoad (n : Nat) (sgn : Bool) (v : Nat) : Nat :=
  if sgn && decide (n < 4) then (signed (8 * n) v % 2 ^ 32).toNat else v

/-- A group reads spans of its local memory and goes on with them. A word that ECC does not deliver traps MEMERR, and one that
fails again takes the slot out of service (R323, Table 10.6). -/
def State.readSpans (s : State) (c g opc : Nat) (x : Group) (spans : List (Nat × Nat)) (next : State → State) : State :=
  let y := s.meetWords c spans
  if y.2.2 then y.1
  else if y.2.1 then next y.1
  else y.1.trap c g TC.memerr opc x.pc.toNat false

/-- lrd: d = local[a + sext(IMM)]; MOD[1:0] size; MOD[2] = 1 sign-extend. -/
def execLrd (c g : Nat) (w : IFields) (s : State) : Host.Outcome State Fault Refusal :=
  answer (isCore c && isGroup g) s fun s =>
    let wide := w.md.toNat % 4 == 3
    let n := sizeBytes w.md.toNat
    s.issue c g 0x50 w { d := regOrPair wide, a := .reg, imm := true, mods := 0xFF } fun s x =>
      let lanes := lanesOf (x.exec w)
      match lanes.findSome? fun l => localCause (x.localAddr w l) n with
      | some cause => s.trap c g cause 0x50 x.pc.toNat false
      | none =>
        s.readSpans c g 0x50 x (lanes.map fun l => ((x.localAddr w l).toNat, n)) fun s =>
          let y := lanes.foldl (fun y l => y.setD l w.d.toNat wide
            (extendLoad n (w.m 2) (ofBytes (s.localBytes c (x.localAddr w l).toNat n)))) x
          (s.setGroup c g y).advance c g

/-- Store lane by lane in ascending order up to the first that traps; how many were performed. -/
def State.storeLanes (s : State) (f : State → Nat → State × Option Nat) : List Nat → Nat → State × Nat × Option Nat
  | [], n => (s, n, none)
  | l :: r, n =>
    match f s l with
    | (s1, some cause) => (s1, n, some cause)
    | (s1, none) => s1.storeLanes f r (n + 1)

/-- The end of a store or atomic: the trap of its failing lane, PARTIAL where lanes were performed, or the next
instruction (R235). -/
def State.storeEnd (c g opc : Nat) (x : Group) (r : State × Nat × Option Nat) : State :=
  match r.2.2 with
  | some cause => r.1.trap c g cause opc x.pc.toNat (decide (0 < r.2.1))
  | none => r.1.advance c g

/-- lwr: local[a + sext(IMM)] = b. -/
def execLwr (c g : Nat) (w : IFields) (s : State) : Host.Outcome State Fault Refusal :=
  answer (isCore c && isGroup g) s fun s =>
    let wide := w.md.toNat % 4 == 3
    let n := sizeBytes w.md.toNat
    s.issue c g 0x51 w { a := .reg, b := regOrPair wide, imm := true, mods := 0xF } fun s x =>
      State.storeEnd c g 0x51 x (s.storeLanes (fun s l =>
        match localCause (x.localAddr w l) n with
        | some cause => (s, some cause)
        | none => (s.setLocalBytes c (x.localAddr w l).toNat (toBytes n (x.srcB w l wide)), none))
        (lanesOf (x.exec w)) 0)

/-! ## Remote reads (R262) -/

/-- A free read id, from the next to try on. -/
def LinkNet.freeId (n : LinkNet) : Option Nat :=
  ((List.range 2048).map fun i => (n.nextId + i) % 2048).find? fun i => !n.reads.any fun e => e.1 == i

/-- Send a READ of `slots` slots to a node on behalf of a waiter; none where no id is free. -/
def State.startRead (s : State) (node va slots waiter : Nat) (pin : Option Route) (pinned : Bool) (flow : Nat) : Option (State × Nat) :=
  match s.net.freeId with
  | none => none
  | some id =>
    let s := s.modNet fun n => { n with reads := n.reads ++ [(id, BitVec.ofNat 16 node, waiter)], nextId := (id + 1) % 2048 }
    let p := { Packet.blank PT.read node s.node with
      tag := BitVec.ofNat 16 (id * 32 + (slots - 1)), addr := BitVec.ofNat 40 (va / 16) }
    some ((s.inject p pin pinned flow).1, id)

/-- Who waits for a read: a load, a fence. -/
def waitLoad (c g : Nat) : Nat := c * 64 + g
def waitFence (c g : Nat) : Nat := 4096 + c * 64 + g

/-- A MARK of a queue pair waits for its read-back. -/
def waitMark (p q : Nat) : Nat := 16384 + 256 * p + q

/-! ## Loads (R221) -/

/-- Read one lane of the own device. A host read that its port cannot carry fails at once; whether it fails later is told by
LOAD_COMPLETE. -/
def State.loadLane (s : State) (c va n : Nat) : State × Except Nat Nat :=
  if 0x800000000000 ≤ va then
    match s.xlate .read false va with
    | .error e =>
      let r := s.readWalk e.2
      if r.2 then (r.1, .error TC.memerr) else (r.1.logFault c e.1 va, .error TC.xlate)
    | .ok x =>
      let r := s.readWalk x.reads
      match x.place with
      | .host p bus =>
        if r.2 || !s.portLive p then (r.1, .error TC.memerr)
        else (r.1.hold va x.held, .ok (ofBytes (s.hostBytes p bus n)))
      | _ => (r.1, .error TC.memerr)
  else
    match s.read c va n with
    | (s1, .error e) => (s1, .error e.cause)
    | (s1, .ok b) => (s1, .ok (ofBytes b))

/-- Read the own lanes in ascending order up to the first that traps. -/
def State.loadOwn (s : State) (c n : Nat) : List (Nat × Nat) → List (Nat × DWord) → State × Except Nat (List (Nat × DWord))
  | [], got => (s, .ok got)
  | (l, ga) :: r, got =>
    match s.loadLane c (gVa ga) n with
    | (s1, .error e) => (s1, .error e)
    | (s1, .ok v) => s1.loadOwn c n r (got ++ [(l, BitVec.ofNat 64 v)])

/-- Send a READ for each peer lane. -/
def State.loadPeers (s : State) (c g : Nat) : List (Nat × Nat) → List (Nat × Nat) → State × List (Nat × Nat)
  | [], ids => (s, ids)
  | (l, ga) :: r, ids =>
    match s.startRead (gNode ga) (gVa ga) 1 (waitLoad c g) none false c with
    | none => (s, ids)
    | some (s1, id) => s1.loadPeers c g r (ids ++ [(id, l)])

/-- Issue a load: its lanes are checked and read, and the group waits for LOAD_COMPLETE; a load that no id is free for
waits at its instruction (R262). -/
def State.load (s : State) (c g opc : Nat) (w : IFields) (mods : Nat) : State :=
  let wide := w.md.toNat % 4 == 3
  let n := sizeBytes w.md.toNat
  s.issue c g opc w { d := regOrPair wide, a := .pair, imm := true, mods := mods } fun s x =>
    let lanes := (lanesOf (x.exec w)).map fun l => (l, x.globalAddr w l w.simm)
    let own := lanes.filter fun e => !s.isPeer e.2
    let peers := lanes.filter fun e => s.isPeer e.2
    match lanes.findSome? fun e => s.globalCause c e.2 n with
    | some cause => s.trap c g cause opc x.pc.toNat false
    | none =>
      if lanes.isEmpty then s.advance c g
      else if 2048 < s.net.reads.length + peers.length then s
      else
        match s.loadOwn c n own [] with
        | (s1, .error cause) => s1.trap c g cause opc x.pc.toNat false
        | (s1, .ok got) =>
          let r := s1.loadPeers c g peers []
          r.1.modGroup c g fun y => { y with
            state := .blocked, wait := .load
            load := some { d := w.d.toNat, size := w.md.toNat % 4, opc := opc, ids := r.2, got := got,
                           lanes := lanes.map fun e => (e.1, BitVec.ofNat 64 e.2) } }

/-- ld: d = mem[a:a+1 + sext(IMM)]. -/
def execLd (c g : Nat) (w : IFields) (s : State) : Host.Outcome State Fault Refusal :=
  answer (isCore c && isGroup g) s fun s => s.load c g 0x52 w 0xF

/-- ld.acq: ld with acquire of scope MOD[3:2]; later accesses of the group come after its completion (R193). -/
def execLdAcq (c g : Nat) (w : IFields) (s : State) : Host.Outcome State Fault Refusal :=
  answer (isCore c && isGroup g) s fun s => s.load c g 0x54 w 0xFFFF

/-- A lane of the load is in a host window. -/
def LoadOp.fromHost (o : LoadOp) : Bool := o.lanes.any fun e => decide (0x800000000000 ≤ gVa e.2.toNat)

/-- The port of the first such lane. -/
def LoadOp.hostPort (o : LoadOp) : Nat :=
  match o.lanes.find? fun e => decide (0x800000000000 ≤ gVa e.2.toNat) with
  | some e => if gVa e.2.toNat < 0xC00000000000 then 0 else 1
  | none => 0

/-- LOAD_COMPLETE: the data of a load returns and is written to d; a failed host read traps MEMERR. -/
def execLoadComplete (c g : Nat) (fail : Bool) (s : State) : Host.Outcome State Fault Refusal :=
  answer (isCore c && isGroup g) s fun s =>
    match s.group c g with
    | none => s
    | some x =>
      match x.load, x.wait with
      | some o, .load =>
        if !s.coreRuns c || !o.ids.isEmpty then s
        else if fail && o.fromHost then (s.readFailed o.hostPort).trap c g TC.memerr o.opc x.pc.toNat false
        else
          let y := o.got.foldl (fun y e => y.setD e.1 o.d (o.size == 3) e.2.toNat) x
          (s.setGroup c g { y with load := none, wait := .none, state := .running }).advance c g
      | _, _ => s

/-! ## Fences and releases (R193, R195, R196) -/

/-- What lanes of a group have written at peers since their last system release: lane × 2^16 + node ↦ last address. -/
def Group.owed (x : Group) (m : BitVec 64) : List (Nat × DWord) := x.peerLast.filter fun e => inMask m (e.1 / 2 ^ 16)

/-- The lanes' record of remote and host writes is cleared. -/
def Group.released_ (x : Group) (m : BitVec 64) : Group :=
  { x with
    peerLast := x.peerLast.filter fun e => !inMask m (e.1 / 2 ^ 16)
    peerRoute := x.peerRoute.filter fun e => !inMask m (e.1 / 2 ^ 16)
    portLast := x.portLast.filter fun e => !inMask m (e.1 / 2) }

/-- Send the read-backs, each on the route of its writes. -/
def State.readBacks (s : State) (c g : Nat) (x : Group) : List (Nat × DWord) → List (Nat × Nat) → State × List (Nat × Nat)
  | [], ids => (s, ids)
  | (k, a) :: r, ids =>
    let route := (Sparse.find x.peerRoute k).map fun t => (⟨t.1, t.2.1, t.2.2⟩ : Route)
    match s.startRead (k % 2 ^ 16) (gVa a.toNat) 1 (waitFence c g) route true c with
    | none => (s, ids)
    | some (s1, id) => s1.readBacks c g x r (ids ++ [(id, k / 2 ^ 16)])

/-- A system-scope release of lanes: with nothing owed to a peer, `next` runs at once; otherwise the read-backs are sent and
the group waits for them. A write lost for want of a route makes its read-back fail: the group traps MEMERR. Reads back
through the ports return before anything later is issued, and change nothing here. -/
def State.release (s : State) (c g opc : Nat) (x : Group) (m : BitVec 64) (adv : Bool) (next : State → State) : State :=
  let owed := x.owed m
  if owed.isEmpty then next (s.modGroup c g fun y => y.released_ m)
  else if owed.any fun e => (Sparse.find x.peerRoute e.1).isNone then
    (s.modGroup c g fun y => y.released_ m).trap c g TC.memerr opc x.pc.toNat false
  else if 2048 < s.net.reads.length + owed.length then s
  else
    let r := s.readBacks c g x owed []
    r.1.modGroup c g fun y => { y.released_ m with
      state := .blocked, wait := .fence adv
      load := some { d := 0, size := 0, opc := opc, lanes := [], ids := r.2, got := [] } }

/-- fence: MOD[3:2] 01 release, 10 acquire, 11 acquire-release; MOD[1:0] scope. Within the device every access is performed
in the order of the commands, so only a system-scope release has something to wait for. -/
def execFence (c g : Nat) (w : IFields) (s : State) : Host.Outcome State Fault Refusal :=
  answer (isCore c && isGroup g) s fun s =>
    s.issue c g 0x7A w { mods := 0xFFF0 } fun s x =>
      if w.m 2 && w.md.toNat % 4 == 3 then s.release c g 0x7A x (x.exec w) true fun s => s.advance c g
      else s.advance c g

/-- An answer to a remote read of a group: its data, or a trap MEMERR for a status other than OK (R262). A frozen bit makes the
item of a U group FROZEN (R210, R261; log entry 103). -/
def State.groupRead (s : State) (c g : Nat) (fence : Bool) (id status : Nat) (frozen : Bool) (data : List Byte) : State :=
  match s.group c g with
  | none => s
  | some x =>
    match x.load with
    | none => s
    | some o =>
      match o.ids.find? fun e => e.1 == id with
      | none => s
      | some e =>
        let s := if frozen && x.upd then s.freezeItem c x else s
        if status ≠ 0 then s.trap c g TC.memerr o.opc x.pc.toNat false
        else
          let ga := match o.lanes.find? fun q => q.1 == e.2 with | some q => q.2.toNat | none => 0
          let v := ofBytes ((data.drop (gVa ga % 16)).take (sizeBytes o.size))
          let o' := { o with ids := o.ids.filter (fun q => q.1 != id), got := o.got ++ [(e.2, BitVec.ofNat 64 v)] }
          if fence && o'.ids.isEmpty then
            let s1 := s.setGroup c g { x with load := none, wait := .none, state := .running }
            if x.wait = .fence true then s1.advance c g else s1
          else s.setGroup c g { x with load := some o' }

/-! ## Stores (R221) -/

/-- The byte mask of a WRITE of one slot. -/
def slotMask (off n : Nat) : Nat := (2 ^ n - 1) * 2 ^ (off % 16)

/-- A store to a peer: a WRITE of one slot on the route of the thread's first write to that node (R195). -/
def State.storePeer (s : State) (c g l ga n v : Nat) (upd : Bool) : State :=
  match s.group c g with
  | none => s
  | some x =>
    let k := l * 2 ^ 16 + gNode ga
    let va := gVa ga
    let p := { Packet.blank PT.write (gNode ga) s.node with
      len := 1, upd := upd, tag := BitVec.ofNat 16 (slotMask va n), addr := BitVec.ofNat 40 (va / 16)
      payload := List.replicate (va % 16) 0 ++ toBytes n v ++ List.replicate (16 - va % 16 - n) 0 }
    let pin := (Sparse.find x.peerRoute k).map fun t => (⟨t.1, t.2.1, t.2.2⟩ : Route)
    let known := (Sparse.find x.peerLast k).isSome
    let r := if known && pin.isNone then (s, none) else s.inject p pin true c
    r.1.modGroup c g fun y => { y with
      peerLast := Sparse.put y.peerLast k (BitVec.ofNat 64 ga)
      peerRoute := match r.2 with
        | some t => Sparse.put y.peerRoute k (t.via, t.nm, t.gsel)
        | none => y.peerRoute }

/-- Store one lane. A write refused by R178 makes the item FROZEN and goes on. -/
def State.storeLane (s : State) (c g : Nat) (x : Group) (l ga n v : Nat) : State × Option Nat :=
  match s.globalCause c ga n with
  | some cause => (s, some cause)
  | none =>
    if s.isPeer ga then (s.storePeer c g l ga n v x.upd, none)
    else
      match s.write c x.upd (gVa ga) (toBytes n v) with
      | (s1, some (.mmu 5)) => (s1.freezeItem c x, none)
      | (s1, some .port) => (s1, none)
      | (s1, some e) => (s1, some e.cause)
      | (s1, none) =>
        if 0x800000000000 ≤ gVa ga then
          (s1.modGroup c g fun y => { y with
            portLast := Sparse.put y.portLast (l * 2 + (if gVa ga < 0xC00000000000 then 0 else 1)) (BitVec.ofNat 64 ga) }, none)
        else (s1, none)

def State.store (s : State) (c g opc : Nat) (w : IFields) (x : Group) : State :=
  let wide := w.md.toNat % 4 == 3
  State.storeEnd c g opc x (s.storeLanes
    (fun s l => s.storeLane c g x l (x.globalAddr w l w.simm) (sizeBytes w.md.toNat) (x.srcB w l wide))
    (lanesOf (x.exec w)) 0)

/-- The form of a store. -/
def storeForm (w : IFields) (mods : Nat) : Form :=
  { a := .pair, b := regOrPair (w.md.toNat % 4 == 3), imm := true, mods := mods }

/-- st: mem[a:a+1 + sext(IMM)] = b. -/
def execSt (c g : Nat) (w : IFields) (s : State) : Host.Outcome State Fault Refusal :=
  answer (isCore c && isGroup g) s fun s => s.issue c g 0x53 w (storeForm w 0xF) fun s x => s.store c g 0x53 w x

/-- st.rel: st with release of scope MOD[3:2] before it. -/
def execStRel (c g : Nat) (w : IFields) (s : State) : Host.Outcome State Fault Refusal :=
  answer (isCore c && isGroup g) s fun s =>
    s.issue c g 0x55 w (storeForm w 0xFFFF) fun s x =>
      if w.md.toNat / 4 = 3 then s.release c g 0x55 x (x.exec w) false fun s => s.store c g 0x55 w x
      else s.store c g 0x55 w x

/-! ## Atomics (R197, R222, R232 to R234) -/

/-- What one read-modify-write found: the old value, the MSE die that performed it in HBM, or none. -/
structure Rmw where
  old : Nat
  die : Option Nat
deriving DecidableEq, Repr

/-- Read, modify and write `n` bytes at a VA of the own device; `host`: the host window supports the operation. A write
refused by R178 leaves memory as it is and makes the item FROZEN. -/
def State.rmw (s : State) (c : Nat) (x : Group) (va n : Nat) (host : Bool) (f : Nat → Nat) : State × Except Nat Rmw :=
  match s.xlate .atomic x.upd va with
  | .error e =>
    let r := s.readWalk e.2
    if r.2 then (r.1, .error TC.memerr)
    else
      let s1 := r.1.logFault c e.1 va
      if e.1 = 5 then
        match s1.read c va n with
        | (s2, .error m) => (s2, .error m.cause)
        | (s2, .ok b) => (s2.freezeItem c x, .ok ⟨ofBytes b, none⟩)
      else (s1, .error (MErr.cause (.mmu e.1)))
  | .ok t =>
    let r := s.readWalk t.reads
    if r.2 then (r.1, .error TC.memerr)
    else
      let s1 := r.1.hold va t.held
      match t.place with
      | .local_ k off =>
        if k < 64 ∧ localOk off then
          let y := s1.meetWords k [(off, n)]
          let old := ofBytes (s1.localBytes k off n)
          if !y.2.1 then (y.1, .error TC.memerr)
          else (if y.2.2 then y.1 else y.1.setLocalBytes k off (toBytes n (f old)), .ok ⟨old, none⟩)
        else (s1.logFault c 7 va, .error TC.access)
      | .hbm pa =>
        match s1.readHbm (s1.keysFrom pa n) with
        | (s2, .error m) => (s2, .error m.cause)
        | (s2, .ok b) =>
          let old := ofBytes b
          match s2.writeHbm pa (toBytes n (f old)) with
          | (s3, some m) => (s3, .error m.cause)
          | (s3, none) => (s3, .ok ⟨old, some ((s.place pa).1 / 2)⟩)
      | .host p bus =>
        if !host || !s1.portLive p || Config.hostFails s1.free then (s1.drawn, .error TC.atomic)
        else
          let old := ofBytes (s1.hostBytes p bus n)
          (s1.drawn.setHostBytes p bus (toBytes n (f old)), .ok ⟨old, none⟩)

/-- Checks of an atomic before translation: alignment, a peer's address, cluster. -/
def State.atomicCause (s : State) (c ga n : Nat) : Option Nat :=
  if gVa ga % n ≠ 0 then some TC.misalign
  else if s.isPeer ga then some TC.atomic
  else if otherCluster c (gVa ga) then some TC.access
  else none

/-- What each lane of one combined operation receives, and the value that the location receives in the end: the lanes' operations
in ascending lane order (R232, R234). -/
def scanLanes (op : Nat → Nat → Nat) (n : Nat) : List Nat → Nat → List (Nat × Nat) × Nat
  | [], old => ([], old)
  | l :: r, old =>
    let y := scanLanes op n r (op l old % 2 ^ (8 * n))
    ((l, old) :: y.1, y.2)

/-- Lanes one after the other, each an operation of its own. -/
def State.rmwEach (s : State) (c : Nat) (x : Group) (va n : Nat) (host : Bool) (op : Nat → Nat → Nat) :
    List Nat → List (Nat × Nat) → State × List (Nat × Nat) × Option Nat
  | [], got => (s, got, none)
  | l :: r, got => match s.rmw c x va n host (op l) with
    | (s1, .error cause) => (s1, got, some cause)
    | (s1, .ok o) => s1.rmwEach c x va n host op r (got ++ [(l, o.old)])

/-- The lanes of one address: one read-modify-write, or in the host window one AtomicOp per lane where `each` (R232, R234). -/
def State.atomicAt (s : State) (c : Nat) (x : Group) (n : Nat) (host each : Bool) (op : Nat → Nat → Nat) (ga : Nat)
    (lanes : List Nat) : State × List (Nat × Nat) × Option Nat :=
  match s.atomicCause c ga n with
  | some cause => (s, [], some cause)
  | none =>
    if each && decide (0x800000000000 ≤ gVa ga) then s.rmwEach c x (gVa ga) n host op lanes []
    else match s.rmw c x (gVa ga) n host fun old => (scanLanes op n lanes old).2 with
      | (s1, .error cause) => (s1, [], some cause)
      | (s1, .ok o) => (s1, (scanLanes op n lanes o.old).1, none)

/-- Each address in ascending order of its lowest lane, up to the first whose operation traps (R232; log entry 67). -/
def State.perAddress (s : State) (f : State → Nat → List Nat → State × List (Nat × Nat) × Option Nat) (addr : Nat → Nat)
    (lanes : List Nat) : List Nat → List (Nat × Nat) → State × List (Nat × Nat) × Option Nat
  | [], got => (s, got, none)
  | ga :: r, got =>
    match f s ga (lanes.filter fun l => addr l == ga) with
    | (s1, g, some cause) => (s1, got ++ g, some cause)
    | (s1, g, none) => s1.perAddress f addr lanes r (got ++ g)

/-- The executing lanes of an atomic, address by address. -/
def State.atomicLanes (s : State) (x : Group) (w : IFields)
    (f : State → Nat → List Nat → State × List (Nat × Nat) × Option Nat) : State × List (Nat × Nat) × Option Nat :=
  let lanes := lanesOf (x.exec w)
  let addr := fun l => x.globalAddr w l (signed 14 w.imm.toNat)
  s.perAddress f addr lanes (lanes.map addr).eraseDups []

/-- The end of an atomic: d receives each lane's value, or the instruction traps with nothing written to it. -/
def State.atomicEnd (c g opc : Nat) (x : Group) (d : Nat) (wide : Bool) (r : State × List (Nat × Nat) × Option Nat) : State :=
  match r.2.2 with
  | some cause => r.1.trap c g cause opc x.pc.toNat (!r.2.1.isEmpty)
  | none =>
    (r.1.modGroup c g fun y => r.2.1.foldl (fun y e => y.setD e.1 d wide e.2) y).advance c g

/-- 64-bit atomics have IMM[15] = 1. -/
def atWide (w : IFields) : Bool := w.imm.toNat.testBit 15

def atForm (w : IFields) (useC : Bool) : Form :=
  { d := regOrPair (atWide w), a := .pair, b := regOrPair (atWide w)
    c := if useC then regOrPair (atWide w) else .no, imm := true, mods := 0xFFFF }

/-- An integer atomic, exchange or compare-and-swap; `op bits old b c` is the new value. A system-scope release before it waits
as a fence does. -/
def State.atomic (s : State) (c g opc : Nat) (w : IFields) (useC host each : Bool) (op : Nat → Nat → Nat → Nat → Nat) : State :=
  s.issue c g opc w (atForm w useC) fun s x =>
    let n := if atWide w then 8 else 4
    let go (s : State) : State :=
      State.atomicEnd c g opc x w.d.toNat (atWide w) (s.atomicLanes x w fun s => s.atomicAt c x n host each
        fun l old => op (8 * n) old (x.srcB w l (atWide w))
          (if atWide w then (x.pair l w.c.toNat).toNat else (x.cv w l).toNat) % 2 ^ (8 * n))
    if w.m 2 && w.md.toNat % 4 == 3 then s.release c g opc x (x.exec w) false go else go s

/-- at.add: integer add; d = old value. -/
def execAtAdd (c g : Nat) (w : IFields) (s : State) : Host.Outcome State Fault Refusal :=
  answer (isCore c && isGroup g) s fun s => s.atomic c g 0x60 w false true false fun _ o b _ => o + b

/-- at.and. -/
def execAtAnd (c g : Nat) (w : IFields) (s : State) : Host.Outcome State Fault Refusal :=
  answer (isCore c && isGroup g) s fun s => s.atomic c g 0x61 w false false false fun _ o b _ => o &&& b

/-- at.or. -/
def execAtOr (c g : Nat) (w : IFields) (s : State) : Host.Outcome State Fault Refusal :=
  answer (isCore c && isGroup g) s fun s => s.atomic c g 0x62 w false false false fun _ o b _ => o ||| b

/-- at.xor. -/
def execAtXor (c g : Nat) (w : IFields) (s : State) : Host.Outcome State Fault Refusal :=
  answer (isCore c && isGroup g) s fun s => s.atomic c g 0x63 w false false false fun _ o b _ => o ^^^ b

/-- x is less than y as `n`-bit numbers, signed with IMM[14] = 1. -/
def atLess (w : IFields) (n x y : Nat) : Bool :=
  if w.imm.toNat.testBit 14 then decide (signed n x < signed n y) else decide (x < y)

/-- at.min. -/
def execAtMin (c g : Nat) (w : IFields) (s : State) : Host.Outcome State Fault Refusal :=
  answer (isCore c && isGroup g) s fun s =>
    s.atomic c g 0x64 w false false false fun n o b _ => if atLess w n b o then b else o

/-- at.max. -/
def execAtMax (c g : Nat) (w : IFields) (s : State) : Host.Outcome State Fault Refusal :=
  answer (isCore c && isGroup g) s fun s =>
    s.atomic c g 0x65 w false false false fun n o b _ => if atLess w n o b then b else o

/-- at.swap: mem = b. -/
def execAtSwap (c g : Nat) (w : IFields) (s : State) : Host.Outcome State Fault Refusal :=
  answer (isCore c && isGroup g) s fun s => s.atomic c g 0x67 w false true true fun _ _ b _ => b

/-- at.cmpx: mem = c where mem equals b. -/
def execAtCmpx (c g : Nat) (w : IFields) (s : State) : Host.Outcome State Fault Refusal :=
  answer (isCore c && isGroup g) s fun s =>
    s.atomic c g 0x68 w true true true fun _ o b k => if o = b then k else o

/-- The chain over the combined lanes' values: partial sums after each value, and the flags of its additions (R233). -/
def sumChain : List Word → Word → List Word → Flags → List Word × Flags
  | [], _, out, fl => (out, fl)
  | v :: r, acc, out, fl =>
    let y := w32Add acc v
    sumChain r y.1 (out ++ [y.1]) (fl ||| y.2)

/-- Lanes of one address: the location receives old + s, the lowest lane old, each later lane old plus the sum below it. -/
def State.addwGroup (s : State) (c : Nat) (x : Group) (w : IFields) (ga : Nat) (lanes : List Nat) :
    State × List (Nat × Nat) × Option Nat :=
  match s.atomicCause c ga 4 with
  | some cause => (s, [], some cause)
  | none =>
    match lanes with
    | [] => (s, [], none)
    | l0 :: rest =>
      let chain := sumChain (rest.map fun l => x.bv w l) (x.bv w l0) [x.bv w l0] 0
      let total := chain.1.getLastD 0
      match s.rmw c x (gVa ga) 4 false fun o => (w32Add (BitVec.ofNat 32 o) total).1.toNat with
      | (s1, .error cause) => (s1, [], some cause)
      | (s1, .ok o) =>
        let old := BitVec.ofNat 32 o.old
        let backs := (rest.zip chain.1).map fun e => (e.1, w32Add old e.2)
        let fl := backs.foldl (fun f e => f ||| e.2.2) chain.2
        let last := (w32Add old total).2
        let s2 := match o.die with
          | some k => (s1.raiseVec c fl).raiseMse k last
          | none => s1.raiseVec c (fl ||| last)
        (s2, (l0, o.old) :: backs.map fun e => (e.1, e.2.1.toNat), none)

/-- at.addw: W32 add, 32-bit only; IMM[15] = 1 traps ILLEGAL. -/
def execAtAddw (c g : Nat) (w : IFields) (s : State) : Host.Outcome State Fault Refusal :=
  answer (isCore c && isGroup g) s fun s =>
    s.issue c g 0x66 w { d := .reg, a := .pair, b := .reg, imm := true, mods := 0xFFFF } fun s x =>
      if atWide w then s.trap c g TC.illegal 0x66 x.pc.toNat false
      else
        let go (s : State) : State :=
          State.atomicEnd c g 0x66 x w.d.toNat false (s.atomicLanes x w fun s => s.addwGroup c x w)
        if w.m 2 && w.md.toNat % 4 == 3 then s.release c g 0x66 x (x.exec w) false go else go s

end Sys2Proof.Machine
end

