-- ==== Sys2Proof/Machine/ThreadCtl.lean ====
section
/-! DEFINITION. Control instructions of thread groups: barriers (R229 to R231), engine, MSE and DMA requests (R223 to R225),
context (R219), jumps (R226 to R228), yield, trap and exit. -/

namespace Sys2Proof.Machine

/-! ## Barriers -/

/-- Another path of the group is blocked at a barrier other than `b` (R230). -/
def Group.blockedElsewhere (x : Group) (b : Nat) : Bool :=
  x.stack.any fun e => match e.bar with | some k => k != b | none => false

/-- The running path blocks at barrier b; a pending path on top that is not blocked is exchanged with it (R227), and a step ends
or a HALT halts the group there (R238). -/
def Group.blockAt (x : Group) (b : Nat) (halt : Bool) : Group :=
  match x.stack with
  | e :: r =>
    if e.kind = .pending ∧ e.bar = none then
      (Group.settle { x with stack := { kind := .pending, pc := x.pc, mask := x.active, bar := some b } :: r,
                             pc := e.pc, active := e.mask }).ended halt
    else { x with state := .blocked, wait := .barrier b }
  | [] => { x with state := .blocked, wait := .barrier b }

/-- Barrier n of the group's block has every live thread's arrival. -/
def State.barrierFull (s : State) (c blk n : Nat) : Bool :=
  match s.blockOf c blk with
  | none => false
  | some b => (b.barriers.getD n { arrived := [] }).full (s.liveOf c b)

/-- The group's block has a parked or halted group: the checks of R230 are suspended. -/
def State.checksOff (s : State) (c blk : Nat) : Bool :=
  match s.blockOf c blk with
  | none => false
  | some b => s.blockStopped c b

/-- bwait: arrive at barrier IMM[3:0] and wait for it to complete; a path that would block while another is blocked elsewhere
traps (R230). -/
def execBwait (c g : Nat) (w : IFields) (s : State) : Host.Outcome State Fault Refusal :=
  answer (isCore c && isGroup g) s fun s =>
    s.issue c g 0x78 w { imm := true, plain := true } fun s x =>
      let b := w.imm.toNat % 16
      let t := s.arrive c g b x.active
      if t.barrierFull c x.block b then
        let t := match t.blockOf c x.block with
          | some y => t.completeBarrier c y b
          | none => t
        (t.advance c g).barriers c x.block
      else if x.blockedElsewhere b && !s.checksOff c x.block then s.trap c g TC.barrier 0x78 x.pc.toNat false
      else (t.modGroup c g fun y => y.blockAt b (s.haltBit c g)).barriers c x.block

/-- bmark: arrive at barrier IMM[3:0] and go on. -/
def execBmark (c g : Nat) (w : IFields) (s : State) : Host.Outcome State Fault Refusal :=
  answer (isCore c && isGroup g) s fun s =>
    s.issue c g 0x79 w { imm := true, plain := true } fun s x =>
      ((s.arrive c g (w.imm.toNat % 16) x.active).advance c g).barriers c x.block

/-- BARRIER_WATCHDOG_EXPIRY: nothing has moved at a block's barriers for BARWD ms while threads wait: every group with
waiting threads traps. Suspended in debug mode while a group of the block is halted (R238). -/
def execBarrierWatchdogExpiry (c blk : Nat) (s : State) : Host.Outcome State Fault Refusal :=
  answer (isCore c) s fun s =>
    match s.blockOf c blk with
    | none => s
    | some b =>
      let halted := b.slots.any fun g => match s.group c g with | some x => x.state == .halted | none => false
      if !s.coreRuns c || (s.debugMode c && halted) then s else s.trapWaiters c b

/-! ## Descriptors (R223, R224) -/

/-- Engine of a stream: F groups use the F-engine, B groups the B-engine, U groups none. -/
def Stream.engine : Stream → Option Eng
  | .f => some .f
  | .b => some .b
  | .u => none

/-- tissue: issue the 64-byte descriptor at local address a + sext(IMM). A group that meets a full queue waits and issues
it again. -/
def execTissue (c g : Nat) (w : IFields) (s : State) : Host.Outcome State Fault Refusal :=
  answer (isCore c && isGroup g) s fun s =>
    s.issue c g 0x80 w { a := .reg, imm := true, plain := true } fun s x =>
      match Stream.engine x.stream, (lanesOf x.active).head? with
      | some e, some l =>
        let a := x.localAddr w l
        match localCause a 64 with
        | some cause => s.trap c g cause 0x80 x.pc.toNat false
        | none =>
          if 16 ≤ (s.eng c e).queue.length then s.modGroup c g fun y => { y with state := .blocked, wait := .tissue }
          else s.readSpans c g 0x80 x [(a.toNat, 64)] fun s =>
            let d : QDesc := { words := toWords 8 (s.localBytes c a.toNat 64), group := g, taken := false, status := 0,
                               flags := 0, recomp := 0, skipped := 0, blocks := [] }
            let s := s.modEng c e fun q => { q with queue := q.queue ++ [d], up := true }
            (s.modGroup c g fun y => { y with outstanding := y.outstanding + 1 }).advance c g
      | _, _ => s.trap c g TC.illegal 0x80 x.pc.toNat false

/-- A discarded descriptor makes the group trap TILEDESC at its twait or done (R224). -/
def State.tileDesc (s : State) (c g opc : Nat) (x : Group) : State :=
  (s.modGroup c g fun y => { y with badDesc := false }).trap c g TC.tiledesc opc x.pc.toNat false

/-- twait: wait until at most IMM[4:0] of the group's descriptors are outstanding. -/
def execTwait (c g : Nat) (w : IFields) (s : State) : Host.Outcome State Fault Refusal :=
  answer (isCore c && isGroup g) s fun s =>
    s.issue c g 0x81 w { imm := true, plain := true } fun s x =>
      if x.badDesc then s.tileDesc c g 0x81 x
      else if x.outstanding ≤ w.imm.toNat % 32 then s.advance c g
      else s.modGroup c g fun y => { y with state := .blocked, wait := .twait (w.imm.toNat % 32) }

/-- Lanes exit at a done with nothing outstanding; the group leaves its slot with its last lane. -/
def State.exitAt (s : State) (c g : Nat) (x : Group) (m : BitVec 64) : State :=
  let y : Group := { x with pc := x.pc + 8, wait := .none, state := .running }
  ((s.setGroup c g ((y.exitLanes m).ended (s.haltBit c g))).checkExit c g).barriers c x.block

/-- done: executing lanes exit, once the group's descriptors have completed; with no executing lane it does nothing (R215). -/
def execDoneW (c g : Nat) (w : IFields) (s : State) : Host.Outcome State Fault Refusal :=
  answer (isCore c && isGroup g) s fun s =>
    s.issue c g 0x9E w {} fun s x =>
      if x.exec w = 0 then s.advance c g
      else if x.badDesc then s.tileDesc c g 0x9E x
      else if x.outstanding = 0 then s.exitAt c g x (x.exec w)
      else s.modGroup c g fun y => { y with state := .blocked, wait := .done (x.exec w) }

/-- A group that waits for its descriptors looks again (R224). -/
def State.wake (s : State) (c g : Nat) : State :=
  match s.group c g with
  | none => s
  | some x =>
    if x.killed then s.checkExit c g
    else match x.wait with
      | .twait n =>
        if x.badDesc then s.tileDesc c g 0x81 x
        else if x.outstanding ≤ n then
          (s.modGroup c g fun y => { y with state := if (s.core c).preempt then .yielded else .running, wait := .none }).advance c g
        else s
      | .done m =>
        if x.badDesc then s.tileDesc c g 0x9E x
        else if x.outstanding = 0 then s.exitAt c g x m
        else s
      | _ => s

/-- A descriptor of a group no longer counts as outstanding; `bad`: it was discarded for its CPLADDR. -/
def State.descDone (s : State) (c g : Nat) (bad : Bool) : State :=
  (s.modGroup c g fun y => { y with outstanding := y.outstanding - 1, badDesc := y.badDesc || bad }).wake c g

/-- Groups that wait at a tissue for room issue it again (R223). -/
def State.wakeTissue (s : State) (c : Nat) : State :=
  s.modCore c fun k => { k with groups := k.groups.map fun e =>
    if e.2.wait = .tissue ∧ e.2.state = .blocked then (e.1, { e.2 with wait := .none, state := .running }) else e }

/-! ## Requests (R225) -/

/-- Append a request to a ring: 0 appended, 1 full, 2 disabled; the write of the entry can fail. -/
def State.request (s : State) (c : Nat) (upd : Bool) (r : RingRegs) (i j : Nat) (words : List DWord) : State × Except MErr Nat :=
  if !s.ringOn r i j then (s, .ok 2)
  else if s.ringFull r i j then (s, .ok 1)
  else match s.ringPush r i j c upd words with
    | (s1, some e) => (s1, .error e)
    | (s1, none) => (s1, .ok 0)

/-- d of a request in every lane. -/
def State.requestDone (s : State) (c g : Nat) (w : IFields) (x : Group) (d : Word) : State :=
  (s.modGroup c g fun y => (lanesOf x.active).foldl (fun y l => y.setReg l w.d.toNat d) y).advance c g

/-- msereq and dmareq: read the entry at local address a, set UPD for a U group, append it, and write d in every lane. An entry of
a U group that a frozen page refuses is not appended, and its item will complete FROZEN (R178); d is then a free value (log
entry 112). -/
def State.requestOp (s : State) (c g opc : Nat) (w : IFields) (x : Group) (r : RingRegs) (i j updBit : Nat) : State :=
  match (lanesOf x.active).head? with
  | none => s.advance c g
  | some l =>
    let a : Int := (x.av w l).toNat
    match localCause a 64 with
    | some cause => s.trap c g cause opc x.pc.toNat false
    | none => s.readSpans c g opc x [(a.toNat, 64)] fun s =>
      let words := toWords 8 (s.localBytes c a.toNat 64)
      let words := if x.upd then words.modify 0 (fun v => v ||| BitVec.ofNat 64 (2 ^ updBit)) else words
      match s.request c x.upd r i j words with
      | (s1, .error (.mmu 5)) => ((s1.freezeItem c x).requestDone c g w x (BitVec.ofNat 32 (Config.pick s1.free))).drawn
      | (s1, .error e) => s1.trap c g e.cause opc x.pc.toNat false
      | (s1, .ok st) => s1.requestDone c g w x (BitVec.ofNat 32 st)

def requestForm : Form := { d := .reg, a := .reg, imm := true, plain := true }

/-- msereq: submit the command at local address a to die IMM[2:0], ring IMM[5:4]; ring 0 and dies above 5 trap REQUEST. -/
def execMsereq (c g : Nat) (w : IFields) (s : State) : Host.Outcome State Fault Refusal :=
  answer (isCore c && isGroup g) s fun s =>
    s.issue c g 0x84 w requestForm fun s x =>
      let k := w.imm.toNat % 8
      let r := w.imm.toNat / 16 % 4
      if r = 0 ∨ 5 < k then s.trap c g TC.request 0x84 x.pc.toNat false
      else s.requestOp c g 0x84 w x mseRing k r 45

/-- dmareq: submit the descriptor at local address a to channel IMM[4:0]. -/
def execDmareq (c g : Nat) (w : IFields) (s : State) : Host.Outcome State Fault Refusal :=
  answer (isCore c && isGroup g) s fun s =>
    s.issue c g 0x85 w requestForm fun s x => s.requestOp c g 0x85 w x dmaRing (w.imm.toNat % 32) 0 49

/-! ## Context, jumps, yield, traps -/

/-- setctx: stipple context field MOD from the lowest lane; a COARSE outside R42 traps SCALE. -/
def execSetctx (c g : Nat) (w : IFields) (s : State) : Host.Outcome State Fault Refusal :=
  answer (isCore c && isGroup g) s fun s =>
    s.issue c g 0x89 w { a := .reg, mods := 0xF, plain := true } fun s x =>
      match (lanesOf x.active).head? with
      | none => s.advance c g
      | some l =>
        let v := x.av w l
        if w.md = 3 && !coarseOk v then s.trap c g TC.scale 0x89 x.pc.toNat false
        else
          (s.modGroup c g fun y =>
            if w.md = 0 then { y with ctxStream := v.setWidth 16 }
            else if w.md = 1 then { y with ctxTensor := v }
            else if w.md = 2 then { y with ctxDraw := v }
            else { y with ctxCoarse := v }).advance c g

/-- jump: continue at pc + 8 × sext(IMM) in the lanes whose guard holds; where they differ the group diverges (R226). -/
def execJump (c g : Nat) (w : IFields) (s : State) : Host.Outcome State Fault Refusal :=
  answer (isCore c && isGroup g) s fun s =>
    s.issue c g 0x90 w { b := .bits, c := .bits, imm := true } fun s x =>
      let taken := x.exec w
      let target := pcPlus x.pc w.simm
      if taken = x.active then s.goTo c g target
      else if taken = 0 then s.advance c g
      else if 30 < x.stack.length then s.trap c g TC.stack 0x90 x.pc.toNat false
      else
        (s.modGroup c g fun y => { y with
          stack := { kind := .pending, pc := target, mask := taken, bar := none }
            :: { kind := .merge, pc := pcPlus x.pc w.bc, mask := x.active, bar := none } :: y.stack
          above := y.above.filter fun e => decide (x.stack.length + 2 ≤ e.1)
          active := x.active &&& ~~~taken }).goTo c g (x.pc + 8)

/-- jumpr: pc = a:a+1[47:0], the same in every active lane. -/
def execJumpr (c g : Nat) (w : IFields) (s : State) : Host.Outcome State Fault Refusal :=
  answer (isCore c && isGroup g) s fun s =>
    s.issue c g 0x91 w { a := .pair, plain := true } fun s x =>
      let ts := (lanesOf x.active).map fun l => (x.pair l w.a.toNat).setWidth 48
      match ts with
      | [] => s.advance c g
      | t :: r =>
        if r.any (· != t) then s.trap c g TC.divjump 0x91 x.pc.toNat false
        else if t.toNat % 8 ≠ 0 then s.trap c g TC.misalign 0x91 x.pc.toNat false
        else s.goTo c g t

/-- call: pair d = pc + 8; pc += 8 × sext(IMM). -/
def execCall (c g : Nat) (w : IFields) (s : State) : Host.Outcome State Fault Refusal :=
  answer (isCore c && isGroup g) s fun s =>
    s.issue c g 0x92 w { d := .pair, imm := true, plain := true } fun s x =>
      (s.modGroup c g fun y =>
        (lanesOf x.active).foldl (fun y l => y.setPair l w.d.toNat ((x.pc + 8).setWidth 64)) y).goTo c g (pcPlus x.pc w.simm)

/-- cede: a yield point; with a preemption request the group stops after it, yielded (R239). -/
def execCede (c g : Nat) (w : IFields) (s : State) : Host.Outcome State Fault Refusal :=
  answer (isCore c && isGroup g) s fun s =>
    s.issue c g 0x9C w { plain := true } fun s _ =>
      let s1 := s.advance c g
      if (s.core c).preempt then s1.modGroup c g fun y => { y with state := if y.state = .running then .yielded else y.state }
      else s1

/-- A trap instruction: with no executing lane it does nothing (R215). -/
def State.trapOp (s : State) (c g cause opc : Nat) (w : IFields) (x : Group) : State :=
  if x.exec w = 0 then s.advance c g else s.trap c g cause opc x.pc.toNat false

/-- probe: trap BREAK. -/
def execProbe (c g : Nat) (w : IFields) (s : State) : Host.Outcome State Fault Refusal :=
  answer (isCore c && isGroup g) s fun s =>
    s.issue c g 0x9D w {} fun s x => s.trapOp c g TC.break_ 0x9D w x

/-- trap: trap SOFT with code IMM, which stands in the instruction word at the group's PC (R235, Table 7.8). -/
def execTrapSoft (c g : Nat) (w : IFields) (s : State) : Host.Outcome State Fault Refusal :=
  answer (isCore c && isGroup g) s fun s =>
    s.issue c g 0x9F w { imm := true } fun s x => s.trapOp c g TC.soft 0x9F w x

end Sys2Proof.Machine
end

