-- ==== Sys2Proof/Machine/FrontEnd.lean ====
section
/-! DEFINITION. The front end of a core (spec/07): pass streams and work items (R205 to R207), the start of blocks (R208,
R209), and the controls of its groups (R237, R238) and instruction cache (R204). -/

namespace Sys2Proof.Machine

/-! ## Work items -/

/-- Index of a stream (R205). -/
def streamIdx : Stream → Nat
  | .f => 0
  | .b => 1
  | .u => 2

/-- The core's stream takes entries from its ring: the dies run, nothing holds the core, the stream has not stopped, and the slot's
block is not that of a retired slot, which holds its values (R469). -/
def State.takesItems (s : State) (c : Nat) (st : Stream) : Bool :=
  s.diesUp && decide (8 ≤ s.pwr.step) && !s.safe && !(s.core c).out && (s.core c).moving.isNone && !s.isRetired (s.phys c)
    && !(s.core c).stopped.getD (streamIdx st) false && s.ringHas passRing (s.phys c) (streamIdx st)

/-- KIND of a work item: 0 NOP, 2 MARK, all others are taken as a LAUNCH (R206, R207). -/
def itemKind (w : List DWord) : Nat :=
  let k := dbits (nth 0 w 0) 63 56
  if k = 0 then 0 else if k = 2 then 2 else 1

/-- Take the entry at the head of a stream's ring where it is of a kind: HEAD moves on, and an item for an unavailable core
completes with FAULT without starting (R341). An entry that cannot be read stops the stream (R205). -/
def State.takeItem (s : State) (c : Nat) (st : Stream) (kind : Nat) (body : State → List DWord → State) : State :=
  if !s.takesItems c st then s
  else
    match s.ringRead passRing (s.phys c) (streamIdx st) c with
    | (s1, .error _) => s1.modCore c fun k => { k with stopped := k.stopped.set (streamIdx st) true }
    | (s1, .ok w) =>
      if itemKind w ≠ kind then s
      else
        let s2 := s1.ringPop passRing (s1.phys c) (streamIdx st)
        if s2.avail c then body s2 w else s2.itemStatus c (dbits (nth 0 w 3) 15 0) 0x07

/-- The item that a LAUNCH or MARK entry describes. -/
def itemOf (id : Nat) (st : Stream) (mark : Bool) (w : List DWord) : Item :=
  { id := id, stream := st, mark := mark, entry := (nth 0 w 0).setWidth 48, blocks := dbits (nth 0 w 1) 63 48,
    started := 0, doneBlocks := 0, groups := dbits (nth 0 w 0) 51 48 + 1, regs8 := dbits (nth 0 w 1) 47 40,
    lmem := dbits (nth 0 w 1) 31 0, arg := nth 0 w 2, itemId := BitVec.ofNat 32 (dbits (nth 0 w 3) 63 32),
    cnt := dbits (nth 0 w 3) 15 0, faulted := false, frozen := false }

/-- A LAUNCH that completes MALFORMED (R207). -/
def launchBad (w : List DWord) : Bool :=
  let regs8 := dbits (nth 0 w 1) 47 40
  let lmem := dbits (nth 0 w 1) 31 0
  dbits (nth 0 w 0) 63 56 != 1 || dbits (nth 0 w 0) 55 52 != 0 || dbits (nth 0 w 1) 39 32 != 0
    || dbits (nth 0 w 3) 31 16 != 0 || regs8 == 0 || decide (32 < regs8) || lmem % 256 != 0 || decide (0x800000 < lmem)
    || dbits (nth 0 w 0) 47 0 % 8 != 0

/-- Enter an item behind the others of its core. -/
def State.addItem (s : State) (c : Nat) (st : Stream) (mark : Bool) (w : List DWord) : State :=
  s.modCore c fun k => { k with items := k.items ++ [itemOf k.nextItem st mark w], nextItem := k.nextItem + 1 }

/-- WORK_ITEM_NOP: completes OK at once. -/
def execWorkItemNop (c : Nat) (st : Stream) (s : State) : Host.Outcome State Fault Refusal :=
  answer (isCore c) s fun s => s.takeItem c st 0 fun s w => s.itemStatus c (dbits (nth 0 w 3) 15 0) 0

/-- LAUNCH: checked, then its blocks wait to start. -/
def execLaunch (c : Nat) (st : Stream) (s : State) : Host.Outcome State Fault Refusal :=
  answer (isCore c) s fun s => s.takeItem c st 1 fun s w =>
    let cnt := dbits (nth 0 w 3) 15 0
    if launchBad w then s.itemStatus c cnt 0x02
    else if dbits (nth 0 w 1) 63 48 = 0 then s.itemStatus c cnt 0x01
    else s.addItem c st false w

/-- WORK_ITEM_MARK: completes once every earlier item of its stream has completed. -/
def execWorkItemMark (c : Nat) (st : Stream) (s : State) : Host.Outcome State Fault Refusal :=
  answer (isCore c) s fun s => s.takeItem c st 2 fun s w =>
    let s1 := s.addItem c st true w
    s1.settleMarks (s1.core c).items.length c

/-- A BAR0 write through a port that reaches a register. -/
def State.bar0Write (s : State) (port : Nat) (r : Reg) (i j : Nat) (f : State → State) : State :=
  if s.writable port (r.addr i j) then f s else s

/-- A step program is loaded: LOADED, RUNNING, PAUSED or HALTED (R205). -/
def State.progLoaded (s : State) : Bool := s.seqState != SQ.idle

/-- The tail of a pass stream is written: ignored while a step program is loaded and at or above the entry count; a
stopped stream fetches again (R205). -/
def State.pstailWrite (s : State) (slot st : Nat) (v : Word) : State :=
  if s.progLoaded || decide (s.ringSize passRing slot st ≤ v.toNat % 4096) then s
  else s.ringTailWrite passRing slot st v true

/-- PSTAIL_WRITE. -/
def execPstailWrite (port slot st : Nat) (v : Word) (s : State) : Host.Outcome State Fault Refusal :=
  answer (isPort port && isSlot slot && decide (st < 3)) s fun s =>
    s.bar0Write port .CORE_PSTAIL slot st fun s => s.pstailWrite slot st v

/-! ## The start of blocks (R208, R209) -/

/-- Bytes of register file that the resident groups of a core hold. -/
def Core.regBytes (k : Core) : Nat := (k.groups.map fun e => 256 * e.2.nregs).sum

/-- The range of local memory meets none of the resident blocks' ranges. -/
def Core.lmemFree (k : Core) (base n : Nat) : Bool :=
  decide (base + n ≤ 0x800000) && k.blocks.all fun b =>
    b.lmemBytes == 0 || decide (b.lmemBase + b.lmemBytes ≤ base) || decide (base + n ≤ b.lmemBase)

/-- First fit from the lowest address: 0 or the end of a resident block's range. -/
def Core.lmemFit (k : Core) (n : Nat) : Option Nat :=
  if n = 0 then some 0
  else (((0 :: k.blocks.map fun b => b.lmemBase + b.lmemBytes).filter fun a => k.lmemFree a n).foldl
    (fun a b => match a with | none => some b | some x => some (min x b)) none)

/-- Free group slots, lowest first (DESIGN CHOICE, log entry 17). -/
def Core.freeSlots (k : Core) : List Nat := (List.range 64).filter fun g => (Sparse.find k.groups g).isNone

/-- The item of a stream whose next block waits to start: the first that has blocks left. -/
def Core.waiting (k : Core) (st : Stream) : Option Item :=
  k.items.find? fun i => i.stream == st && !i.mark && decide (i.started < i.blocks)

/-- The item's next block finds its slots, registers and local memory free together. -/
def Core.fits (k : Core) (i : Item) : Bool :=
  decide (i.groups ≤ k.freeSlots.length) && decide (k.regBytes + 2048 * i.regs8 * i.groups ≤ 0x100000)
    && (k.lmemFit i.lmem).isSome

/-- Streams in the turn B, F, U that come before `st` when the turn goes on behind `last`. -/
def turnBefore (last st : Stream) : List Stream :=
  let order : List Stream := match last with
    | .b => [.f, .u, .b]
    | .f => [.u, .b, .f]
    | .u => [.b, .f, .u]
  order.takeWhile (· != st)

/-- A thread group as it starts (R209). -/
def Group.start (i : Item) (block index : Nat) : Group :=
  { state := .running, stream := i.stream, block := block, index := index, nregs := 8 * i.regs8
    regs := (List.range 64).foldl (fun m l =>
      Sparse.set 0 (Sparse.set 0 m (l * 256) (i.arg.setWidth 32)) (l * 256 + 1) ((i.arg >>> 32).setWidth 32)) []
    preds := [], pc := i.entry, active := BitVec.allOnes 64, live := BitVec.allOnes 64, stack := [], above := []
    ctxStream := 0, ctxTensor := 0, ctxDraw := 0, ctxCoarse := 0x3F800000, wait := .none, cause := 0, partly := false
    outstanding := 0, badDesc := false, load := none, killed := false, stepping := false, peerLast := [], peerRoute := []
    portLast := [] }

/-- Start the next block of an item in free slots at a local memory base. -/
def Core.startBlock (k : Core) (i : Item) (base : Nat) : Core :=
  let slots := k.freeSlots.take i.groups
  let b : Block := { id := k.nextBlock, item := i.id, index := i.started, lmemBase := base, lmemBytes := i.lmem,
                     slots := slots, barriers := List.replicate 16 { arrived := [] } }
  { k with
    groups := slots.zipIdx.foldl (fun m e => Sparse.put m e.1 (Group.start i k.nextBlock e.2)) k.groups
    blocks := k.blocks ++ [b]
    nextBlock := k.nextBlock + 1
    items := k.items.map fun j => if j.id = i.id then { j with started := j.started + 1 } else j
    lastFreed := i.stream }

/-- BLOCK_START: the next block of a stream starts where it fits and it is the stream's turn. -/
def execBlockStart (c : Nat) (st : Stream) (s : State) : Host.Outcome State Fault Refusal :=
  answer (isCore c) s fun s =>
    let k := s.core c
    match k.waiting st with
    | none => s
    | some i =>
      let ahead := (turnBefore k.lastFreed st).any fun t => match k.waiting t with
        | some j => k.fits j
        | none => false
      if !s.coreRuns c || ahead || !k.fits i then s
      else match k.lmemFit i.lmem with
        | none => s
        | some base => s.modCore c fun k => k.startBlock i base

/-! ## Controls of groups (R237, R238) -/

/-- A control write for the group in a slot of the logical core that a physical slot carries; it is ignored where it does
not match the group's state (R240). -/
def State.control_ (s : State) (slot g : Nat) (ok : Group → Bool) (f : State → Nat → State) : State :=
  match s.logicalOf slot with
  | none => s
  | some c => match s.group c g with
    | none => s
    | some x => if ok x && !x.killed then f s c else s

def Group.isParked (x : Group) : Bool := x.state == .parked
def Group.isHalted (x : Group) : Bool := x.state == .halted

/-- Lanes that have not exited: those of the running path and of the stack. -/
def Group.lanesLeft (x : Group) : BitVec 64 := x.stack.foldl (fun a e => a ||| e.mask) x.active

/-- A parked or halted group resumes, to execute one instruction where `step`: what was written in the meantime takes effect
(R237), on the barriers of its block too; a path that now stands at its merge PC, or has no lanes left, is popped (R226). -/
def State.resumeGroup (s : State) (c g : Nat) (step : Bool) : State :=
  match s.group c g with
  | none => s
  | some x =>
    let y : Group := { x with state := .running, stepping := step, live := x.lanesLeft }
    ((s.setGroup c g y.settle).checkExit c g).barriers c x.block

/-- REPLAY: a parked or halted group resumes at its PC, and HALT clears (R237, R238). -/
def State.gctlReplay (s : State) (slot g : Nat) : State :=
  s.control_ slot g (fun x => x.isParked || x.isHalted) fun s c =>
    (s.setFld F.CORE_GCTL_HALT 0 slot g).resumeGroup c g false

/-- KILL: every thread of a parked or halted group exits (R237). -/
def State.gctlKill (s : State) (slot g : Nat) : State :=
  s.control_ slot g (fun x => x.isParked || x.isHalted) fun s c => s.kill c g

/-- STEP: in debug mode a halted group executes one instruction and halts again (R238). -/
def State.gctlStep (s : State) (slot g : Nat) : State :=
  s.control_ slot g Group.isHalted fun s c =>
    if s.debugMode c then s.resumeGroup c g true else s

/-- HALT: in debug mode a group halts before its next instruction; one that waits halts when its wait ends (R238). -/
def State.gctlHalt (s : State) (slot g : Nat) : State :=
  s.control_ slot g (fun _ => true) fun s c =>
    if s.debugMode c then
      (s.setFld F.CORE_GCTL_HALT 1 slot g).modGroup c g fun x =>
        if x.state = .running ∧ !x.stepping then { x with state := .halted } else x
    else s

/-- GROUP_REPLAY. -/
def execGroupReplay (port slot g : Nat) (s : State) : Host.Outcome State Fault Refusal :=
  answer (isPort port && isSlot slot && isGroup g) s fun s => s.bar0Write port .CORE_GCTL slot g fun s => s.gctlReplay slot g

/-- GROUP_KILL. -/
def execGroupKill (port slot g : Nat) (s : State) : Host.Outcome State Fault Refusal :=
  answer (isPort port && isSlot slot && isGroup g) s fun s => s.bar0Write port .CORE_GCTL slot g fun s => s.gctlKill slot g

/-- GROUP_STEP. -/
def execGroupStep (port slot g : Nat) (s : State) : Host.Outcome State Fault Refusal :=
  answer (isPort port && isSlot slot && isGroup g) s fun s => s.bar0Write port .CORE_GCTL slot g fun s => s.gctlStep slot g

/-- GROUP_HALT. -/
def execGroupHalt (port slot g : Nat) (s : State) : Host.Outcome State Fault Refusal :=
  answer (isPort port && isSlot slot && isGroup g) s fun s => s.bar0Write port .CORE_GCTL slot g fun s => s.gctlHalt slot g

/-- A write of CORE.GCTL: KILL goes before REPLAY, REPLAY before STEP, and STEP before HALT where one write sets several
(DESIGN CHOICE, log entry 33). KILL and STEP leave HALT as it was; a write that sets none of the three stores its HALT, in park
mode only the 0. -/
def State.gctlWrite (s : State) (slot g : Nat) (v : Word) : State :=
  if F.CORE_GCTL_KILL.of v = 1 then s.gctlKill slot g
  else if F.CORE_GCTL_REPLAY.of v = 1 then s.gctlReplay slot g
  else if F.CORE_GCTL_STEP.of v = 1 then s.gctlStep slot g
  else if F.CORE_GCTL_HALT.of v = 1 then s.gctlHalt slot g
  else s.setFld F.CORE_GCTL_HALT 0 slot g

/-- PARK_TIMEOUT: a group still parked after PARKTO ms is killed; not in debug mode, and 0 means no limit. -/
def execParkTimeout (c g : Nat) (s : State) : Host.Outcome State Fault Refusal :=
  answer (isCore c && isGroup g) s fun s =>
    match s.group c g with
    | none => s
    | some x =>
      if x.isParked && s.coreRuns c && !s.debugMode c && s.fld F.CORE_FAULTCTL_PARKTO (s.phys c) != 0 then s.kill c g else s

/-- A write of CORE.FECTL; bit 31 invalidates the instruction cache, BARWD is written with it. -/
def State.fectlWrite (s : State) (slot : Nat) (v : Word) : State :=
  let s := s.setReg .CORE_FECTL slot 0 (Reg.written .CORE_FECTL (s.reg .CORE_FECTL slot 0) v)
  match s.logicalOf slot with
  | none => s
  | some c => if v.toNat.testBit 31 then s.modCore c fun k => { k with icache := [] } else s

/-- ICINV. -/
def execIcinv (port slot : Nat) (v : Word) (s : State) : Host.Outcome State Fault Refusal :=
  answer (isPort port && isSlot slot) s fun s => s.bar0Write port .CORE_FECTL slot 0 fun s => s.fectlWrite slot v

/-! ## Debug access (R237, Table 7.12) -/

/-- Replace bits [32h+31:32h] of a 64-bit value. -/
def half (v : BitVec 64) (hi : Bool) (w : Word) : BitVec 64 :=
  if hi then w ++ v.setWidth 32 else ((v >>> 32).setWidth 32 : Word) ++ w

/-- A stack entry that nothing has written: free values (log entry 18). -/
def freeEntry (n : Nat) : StackEntry :=
  { kind := if Config.choice n then .pending else .merge, pc := BitVec.ofNat 48 (Config.pick n),
    mask := BitVec.ofNat 64 (Config.pick (n + 32)), bar := none }

/-- The entry that stands at a place above the depth. -/
def Group.entryAbove (x : Group) (e free : Nat) : StackEntry := (Sparse.find x.above e).getD (freeEntry (free + e))

/-- A stack depth is written: entries cut off stay above it, and those there come back (R237). -/
def Group.deepen (x : Group) (n free : Nat) : Group :=
  let k := x.stack.length
  if n ≤ k then
    { x with stack := x.stack.drop (k - n)
             above := ((x.stack.take (k - n)).reverse.zipIdx n).foldl (fun a e => Sparse.put a e.2 e.1) x.above }
  else { x with stack := ((List.range' k (n - k)).map fun e => x.entryAbove e free).reverse ++ x.stack }

/-- Word `j` of entry `e`, counted from the oldest, is written: 0 PC [31:0], 1 PC [47:32] with the kind, 2 mask low, 3 mask
high. -/
def StackEntry.patch (e : StackEntry) (j : Nat) (v : Word) : StackEntry :=
  match j with
  | 0 => { e with pc := BitVec.ofNat 48 (e.pc.toNat / 2 ^ 32 * 2 ^ 32 + v.toNat) }
  | 1 => { e with pc := BitVec.ofNat 48 (v.toNat % 2 ^ 16 * 2 ^ 32 + e.pc.toNat % 2 ^ 32)
                  kind := if v.toNat.testBit 31 then .pending else .merge }
  | 2 => { e with mask := half e.mask false v }
  | _ => { e with mask := half e.mask true v }

/-- Patch the entry that stands at place `e` from the oldest, on the stack or above it. -/
def Group.patchStack (x : Group) (e j : Nat) (v : Word) (free : Nat) : Group :=
  if e < x.stack.length then { x with stack := x.stack.modify (x.stack.length - 1 - e) fun y => y.patch j v }
  else { x with above := Sparse.put x.above e ((x.entryAbove e free).patch j v) }

/-- Control state (class 2). -/
def Group.patchControl (x : Group) (i : Nat) (v : Word) (free : Nat) : Group :=
    if i = 0 then { x with pc := BitVec.ofNat 48 (x.pc.toNat / 2 ^ 32 * 2 ^ 32 + v.toNat) }
    else if i = 1 then { x with pc := BitVec.ofNat 48 (v.toNat % 2 ^ 16 * 2 ^ 32 + x.pc.toNat % 2 ^ 32) }
    else if i = 2 then { x with active := half x.active false v }
    else if i = 3 then { x with active := half x.active true v }
    else if i = 4 then (if v.toNat ≤ 32 then x.deepen v.toNat free else x)
    else if 8 ≤ i ∧ i < 104 then x.patchStack ((i - 8) / 3) ((i - 8) % 3) v free
    else if 104 ≤ i ∧ i < 136 then x.patchStack (i - 104) 3 v free
    else x

/-- Context (class 3). -/
def Group.patchContext (x : Group) (i : Nat) (v : Word) : Group :=
  match i with
  | 0 => { x with ctxStream := v.setWidth 16 }
  | 1 => { x with ctxTensor := v }
  | 2 => { x with ctxDraw := v }
  | 3 => if coarseOk v then { x with ctxCoarse := v } else x
  | _ => x

/-- A write through CORE.DBGDATA to what CORE.DBGSEL selects. -/
def Group.patch (x : Group) (sel : Word) (v : Word) (free : Nat) : Group :=
  let lane := F.CORE_DBGSEL_LANE.of sel
  let i := F.CORE_DBGSEL_INDEX.of sel
  match F.CORE_DBGSEL_CLASS.of sel with
  | 0 => if i < x.nregs then x.setReg lane i v else x
  | 1 => { x with preds := Sparse.set 0 x.preds lane (BitVec.ofNat 8 (v.toNat % 256 / 2 * 2)) }
  | 2 => x.patchControl i v free
  | _ => x.patchContext i v

/-- A write to CORE.DBGDATA patches the selected state of a parked or halted group. -/
def State.dbgdataWrite (s : State) (slot : Nat) (v : Word) : State :=
  let sel := s.reg .CORE_DBGSEL slot 0
  let g := F.CORE_DBGSEL_GROUP.of sel
  match s.logicalOf slot with
  | none => s
  | some c => match s.group c g with
    | none => s
    | some x => if x.isParked || x.isHalted then (s.setGroup c g (x.patch sel v s.free)).drawn else s

/-- DBGDATA_WRITE. -/
def execDbgdataWrite (port slot : Nat) (v : Word) (s : State) : Host.Outcome State Fault Refusal :=
  answer (isPort port && isSlot slot) s fun s => s.bar0Write port .CORE_DBGDATA slot 0 fun s => s.dbgdataWrite slot v

end Sys2Proof.Machine
end

