-- ==== Sys2Proof/Machine/Ranges.lean ====
section
/-! DEFINITION. Accumulation ranges of the MSE dies (R154 to R157): where a byte is homed, the elements a CONTRIB packet
carries, and their addition with the non-finite events of R117. -/

namespace Sys2Proof.Machine

/-- The stack on which the byte at a VA is homed, whatever access its page allows; none where the VA names no HBM (R144, R182). -/
def State.stackOf (s : State) (va : Nat) : Option Nat :=
  if !s.flag F.MEM_MMUCTL_EN || decide (0x100000000000 ≤ va) then none
  else match (s.leafFor va).1 with
    | .ok (e, lv) => if usable ≤ leafAddr e lv va then none else some (s.place (leafAddr e lv va)).1
    | .error _ => none

/-- The MSE die on which the byte at a VA is homed. -/
def State.dieOf (s : State) (va : Nat) : Option Nat := (s.stackOf va).map (· / 2)

/-- Bytes of an element of a wide format: B16 2, W32 4. -/
def wideBytes (fmt : Nat) : Nat := if fmt = 2 then 2 else 4

def ARange.es (r : ARange) : Nat := wideBytes r.dfmt
def ARange.size (r : ARange) : Nat := 1024 * r.tiles * r.es

/-- The range holds a VA. -/
def ARange.holds (r : ARange) (va : Nat) : Bool := decide (r.dst ≤ va ∧ va < r.dst + r.size)

/-- Tiles of a range that are homed on a die. -/
def State.homedTiles (s : State) (k : Nat) (base tiles tile : Nat) : List Nat :=
  (List.range tiles).filter fun t => s.dieOf (base + t * tile) == some k

/-- Elements of `n` bytes each, as codes. -/
def codesOf : Nat → Nat → List Byte → List Nat
  | 0, _, _ => []
  | k + 1, n, l => if l.length < n then [] else ofBytes (l.take n) :: codesOf k n (l.drop n)

/-- An element of a contribution as W32, with its flags (R155): exact from B16 and W32, by R43 from F8. -/
structure Elem where
  w : Word
  flags : Flags
deriving DecidableEq, Repr

def elemB16 (c : Nat) : Elem := let x := widen (BitVec.ofNat 16 c); ⟨x.1, x.2⟩

def elemW32 (c : Nat) : Elem := ⟨BitVec.ofNat 32 c, nanFlag (w32Val (BitVec.ofNat 32 c))⟩

/-- The elements of 16 rows of an F8 tile: first slot with coarse scale and exponents, then the codes (R260). The coarse
scale is used as it stands (log entry 90). -/
def elemsF8 (payload : List Byte) : List Elem :=
  let coarse : Word := BitVec.ofNat 32 (ofBytes (payload.take 4))
  (List.range 512).map fun i =>
    let ex := payload.getD (4 + i / 32 / 8 * 4 + i % 32 / 8) 0
    let x := widenW32 (scaled ex (f8Val (payload.getD (16 + i) 0))) coarse
    ⟨x.1, x.2⟩

/-- The elements of a packet in wire format X, in address order. -/
def wireElems (x : Nat) (payload : List Byte) : List Elem :=
  match x with
  | 0 => (codesOf payload.length 2 payload).map elemB16
  | 1 => (codesOf payload.length 4 payload).map elemW32
  | _ => elemsF8 payload

/-- Gradient tile of an element. -/
def tileOfElem (i : Nat) : Nat := i / 1024

/-- Add one element at an index (R155, R117): the range, and the flags raised. `fb`: the fall-back is in force. -/
def ARange.addElem (fb : Bool) (node : BitVec 16) (r : ARange) (i : Nat) (e : Elem) : ARange × Flags :=
  let x := w32Val e.w
  let y := w32Add (Sparse.get 0 r.acc i) e.w
  let z := w32Val y.1
  let bad := !x.isFin || !z.isFin
  let f := e.flags ||| y.2 ||| flagIf (bad && (x.isNan || (x.isFin && z.isNan))) Flags.iv
    ||| flagIf (bad && (x.isInf || (x.isFin && z.isInf))) Flags.of
  ({ r with
      acc := Sparse.set 0 r.acc i y.1
      nf := if bad && r.nf.isNone then some (node, i * r.es) else r.nf
      flagged := if bad && fb then insertNat (tileOfElem i) r.flagged else r.flagged }, f)

/-- Add elements from an index on; `home` says which tiles the die holds. Elements beyond them are dropped. -/
def ARange.addElems (fb : Bool) (node : BitVec 16) (home : Nat → Bool) : ARange → Nat → List Elem → ARange × Flags
  | r, _, [] => (r, 0)
  | r, i, e :: es =>
    if decide (i < 1024 * r.tiles) && home (tileOfElem i) then
      let a := r.addElem fb node i e
      let b := a.1.addElems fb node home (i + 1) es
      (b.1, a.2 ||| b.2)
    else r.addElems fb node home (i + 1) es

/-- The open range that an OPEN of this DSTADDR opened (R154). -/
def Mse.rangeNamed (m : Mse) (dst : Nat) : Option ARange := m.ranges.find? fun r => r.dst == dst

def Mse.setRange (m : Mse) (x : ARange) : Mse := { m with ranges := m.ranges.map fun r => if r.dst = x.dst then x else r }
def Mse.dropRange (m : Mse) (dst : Nat) : Mse := { m with ranges := m.ranges.filter fun r => r.dst != dst }

/-- The fall-back is in force (R112). -/
def State.fallBack (s : State) : Bool := s.flag F.NUM_FBSTAT_ACTIVE

/-- A die adds elements to one of its open ranges from a VA on; `last`: the contributor's part ends with them, and the
range's contribution count rises by one (R155). -/
def State.feed (s : State) (k : Nat) (r : ARange) (va : Nat) (node : BitVec 16) (es : List Elem) (last : Bool) : State :=
  let x := r.addElems s.fallBack node r.home.contains ((va - r.dst) / r.es) es
  (s.modMse k fun m => m.setRange { x.1 with count := if last then x.1.count + 1 else x.1.count }).raiseMse k x.2

end Sys2Proof.Machine
end

