-- ==== Sys2Proof/Machine/Exchange.lean ====
section
/-! DEFINITION. The gradient exchange of SEQ (spec/09): data-parallel groups and slices (R278, R279), sending a part (R282 to
R284), the owner's ranges (R285 to R287), retraction, resend and replay (R297 to R300, R304, R305). -/

namespace Sys2Proof.Machine

/-! ## Groups, stages and slices (R278) -/

def sortNodes (l : List (BitVec 16)) : List (BitVec 16) := (l.foldl (fun a n => insertNat n.toNat a) []).map (BitVec.ofNat 16)

/-- Members of a data-parallel group: one row per chassis rank, each by ascending position. -/
def Prog.rows (p : Prog) (shard : BitVec 16) : List (List (BitVec 16)) :=
  let ns := (p.members.filter fun m => m.shard == shard).map (·.node)
  (ns.foldl (fun a n => insertNat (chassisOf n) a) []).map fun k => sortNodes (ns.filter fun n => chassisOf n == k)

/-- The running program as this device sees it: its own entry, its group, its ranks. -/
structure Ex where
  p : Prog
  me : Member
  rows : List (List (BitVec 16))
deriving DecidableEq, Repr

def State.ex (s : State) : Option Ex :=
  match s.seq.prog with
  | none => none
  | some p => (s.ownEntryOf p).map fun m => { p := p, me := m, rows := p.rows m.shard }

def Ex.g1 (x : Ex) : Nat := (x.rows.headD []).length
def Ex.g2 (x : Ex) : Nat := x.rows.length
def Ex.c (x : Ex) : Nat := x.rows.findIdx fun r => r.contains x.me.node
def Ex.row (x : Ex) : List (BitVec 16) := x.rows.getD x.c []
def Ex.q (x : Ex) : Nat := x.row.findIdx fun n => n == x.me.node

/-- Number of the slice that this device owns. -/
def Ex.idx (x : Ex) : Nat := x.q * x.g2 + x.c

/-- The other members of the group. -/
def Ex.others (x : Ex) : List (BitVec 16) := x.rows.flatten.filter fun n => n != x.me.node

/-- The stages of the exchange; a group of one member has the second stage alone, with its seed. -/
def Ex.stages (x : Ex) : List Nat := (if 1 < x.g1 then [1] else []) ++ (if 1 < x.g2 ∨ x.g1 ≤ 1 then [2] else [])
def Ex.last (x : Ex) : Nat := if 1 < x.g2 ∨ x.g1 ≤ 1 then 2 else 1

def Ex.slice (x : Ex) (e : BucketEnt) : Nat := e.size / (x.g1 * x.g2)

/-- Contributors of a range, the owner among them. -/
def Ex.expect (x : Ex) (st : Nat) : Nat := if st = 1 then x.g1 else x.g2

/-- Bytes of a part, in B16. -/
def Ex.partLen (x : Ex) (e : BucketEnt) (st : Nat) : Nat := if st = 1 then x.g2 * x.slice e else x.slice e

/-- The base of the owner's range: S1 while a second stage follows, else RSLICE. -/
def Ex.dst (x : Ex) (e : BucketEnt) (st : Nat) : Nat := if st = 1 ∧ x.last = 2 then e.s1 else e.rslice

/-- Where the parts of a stage are read: the local gradient, or the stage 1 result. -/
def Ex.origin (x : Ex) (e : BucketEnt) (st : Nat) : Nat := if st = 2 ∧ 1 < x.g1 then e.s1 else e.grad

def Ex.ownOff (x : Ex) (e : BucketEnt) (st : Nat) : Nat := (if st = 1 then x.q else x.c) * x.partLen e st

/-- The owners to which a stage sends parts, each with the number of its part. -/
def Ex.peers (x : Ex) (st : Nat) : List (BitVec 16 × Nat) :=
  (if st = 1 then x.row.zipIdx else (x.rows.map fun r => r.getD x.q 0).zipIdx).filter fun n => n.1 != x.me.node

/-- The stage in which a node and this device exchange parts. -/
def Ex.stageOf (x : Ex) (n : BitVec 16) : Nat := if x.row.contains n then 1 else 2

def Ex.isPeer (x : Ex) (n : BitVec 16) : Bool := (x.stages.flatMap x.peers).any fun e => e.1 == n

def Ex.isHm (x : Ex) (n : BitVec 16) : Bool := x.me.hm || x.p.members.any fun m => m.node == n && m.hm

/-- HM contributors of a stage (R305). -/
def Ex.hmPeers (x : Ex) (st : Nat) : List (BitVec 16) := ((x.peers st).map (·.1)).filter x.isHm

def Prog.entry (p : Prog) (b : Nat) : Option BucketEnt := p.buckets[b]?

/-! ## Commands to the MSE dies (R146, R147) -/

def noAddr : Nat := 2 ^ 48 - 1

/-- The words of an MSE command (Table 5.1). -/
def mseWords (op sfmt dfmt mode tiles src dst ssp dsp draw : Nat) (upd : Bool) : List DWord :=
  [BitVec.ofNat 64 (op * 2 ^ 56 + sfmt * 2 ^ 52 + dfmt * 2 ^ 48 + b2n upd * 2 ^ 45 + mode * 2 ^ 32 + tiles % 2 ^ 32),
   BitVec.ofNat 64 src, BitVec.ofNat 64 dst, BitVec.ofNat 64 ssp, BitVec.ofNat 64 dsp, 0, BitVec.ofNat 64 draw,
   BitVec.ofNat 64 noAddr]

/-- SEQ writes commands into ring 0 of a die, up to the first that the ring has no room for or that cannot be written: that
one and those behind it wait (R147; log entry 101). -/
def State.seqFill (s : State) (k : Nat) : List (List DWord × Issuer) → State
  | [] => s.modMse k fun m => { m with seqQ := [] }
  | e :: l =>
    let i := s.ringTail mseRing k 0
    if !s.ringOn mseRing k 0 || s.ringFull mseRing k 0 then s.modMse k fun m => { m with seqQ := e :: l }
    else match s.ringPush mseRing k 0 agentSeq false e.1 with
      | (s1, some _) => s1.modMse k fun m => { m with seqQ := e :: l }
      | (s1, none) => (s1.modMse k fun m => { m with owners := m.owners ++ [(0, i, e.2)] }).seqFill k l

/-- Commands of SEQ's that wait are tried again. -/
def State.seqRetry (s : State) (k : Nat) : State := s.seqFill k (s.mse k).seqQ

/-- MSE.STAT shows an OPEN that waits. -/
def State.showOpenWait (s : State) (k : Nat) : State :=
  s.setFld F.MSE_STAT_OPENWAIT (b2n !(s.mse k).openWait.isEmpty) k

/-- An entry that SEQ wrote into ring 0. -/
def isSeqEntry (o : Nat × Nat × Issuer) : Bool :=
  match o with
  | (0, _, .seq _) => true
  | _ => false

/-- SEQ takes its commands back from ring 0 of a die: the tail returns to the first of them (log entry 101). -/
def State.seqTakeBack (s : State) (k : Nat) : State :=
  let s := match (s.mse k).owners.find? isSeqEntry with
    | none => s
    | some o => s.setTail mseRing k 0 o.2.1
  (s.modMse k fun m => { m with
    seqQ := [], owners := m.owners.filter (!isSeqEntry ·), openWait := m.openWait.filter (· != 0) }).showOpenWait k

/-- SEQ puts a command into ring 0 of one die, behind those that wait. -/
def State.seqMseOne (s : State) (k : Nat) (w : List DWord) (t : SeqTag) : State :=
  s.seqFill k ((s.mse k).seqQ ++ [(w, .seq t)])

/-- SEQ submits a command to all six dies. -/
def State.seqMse (s : State) (w : List DWord) (t : SeqTag) : State :=
  (List.range 6).foldl (fun s k => s.seqMseOne k w t) s

/-! ## Ranges of a bucket -/

def Bucket.r (b : Bucket) (st : Nat) : RangeSt := if st = 1 then b.r1 else b.r2
def Bucket.setR (b : Bucket) (st : Nat) (r : RangeSt) : Bucket := if st = 1 then { b with r1 := r } else { b with r2 := r }

/-- A range as a step begins. -/
def RangeSt.fresh : RangeSt :=
  { phase := .closed, epoch := 0, seeded := false, dies := [], counts := [], recs := [], clean := [], again := none,
    selfDue := false, resendDue := false, retractor := 0, draining := [], notOpen := false, nf := none }

/-- A bucket as a step begins. -/
def Bucket.fresh : Bucket :=
  { st := .idle, late := false, frozenUpd := false, nonfin := false, nfNode := 0, nfOff := 0, retracts := 0,
    flagged := 0, r1 := RangeSt.fresh, r2 := RangeSt.fresh, parts := [], phase := .none, staging := none, fails := 0,
    recs := [], lost := [] }

def State.modRange (s : State) (b st : Nat) (f : RangeSt → RangeSt) : State :=
  s.modBucket b fun k => k.setR st (f (k.r st))

/-- A stage is complete on its owner: FINISH has ended OK and a CLEAN has come from every other contributor (R287). -/
def Ex.stageDone (x : Ex) (k : Bucket) (st : Nat) : Bool :=
  (k.r st).phase == .finished && (x.peers st).all fun n => (k.r st).clean.contains n.1

/-- A bucket is full (R25): every backward item of the step has completed, or only the last microbatch's backward pass is
still running and no core has more items of it left than feed other buckets alone. Which those are the step program does not
say: their number is a free value (log entry 92). -/
def State.bucketFull (s : State) (p : Prog) (b : Nat) : Bool :=
  !s.seq.ahead && (s.seq.full ||
    (s.seq.bStarted == p.nmb && (List.range (p.nmb - 1)).all s.seq.bDone.contains
      && s.seq.counters.any fun k => k.use == .pass (p.nmb - 1) .b && k.cores.all fun e => decide (e.2 ≤ Config.behind b e.1)))

/-- Every bucket of the device is full. -/
def State.allFull (s : State) (p : Prog) : Bool :=
  !s.seq.ahead && (s.seq.full || (!s.seq.buckets.isEmpty && s.seq.buckets.all fun e => s.bucketFull p e.1))

/-- Every item that has completed in the passes in hand did so with OK or EMPTY (R284). -/
def Seq.itemsOk (q : Seq) : Bool := !q.notOk && q.counters.all fun k => k.left.all fun e => !e.2.2.testBit 1

/-- The source of a stage's parts is there: the bucket is full (R25), or its stage 1 result is complete (R285). -/
def State.srcReady (s : State) (x : Ex) (k : Bucket) (b st : Nat) : Bool :=
  s.bucketFull x.p b && (st == 1 || decide (x.g1 ≤ 1) || x.stageDone k 1)

def rangeTiles (x : Ex) (e : BucketEnt) (st : Nat) : Nat := x.partLen e st / 2048

/-- OPEN with the seed, at the range's epoch (R285). -/
def State.openRange (s : State) (x : Ex) (e : BucketEnt) (b st : Nat) (k : Bucket) : State :=
  let r := k.r st
  (s.setBucket b (k.setR st { r with
    phase := .opening, recs := [], counts := [], dies := [], seeded := false, selfDue := false, nf := none })).seqMse
    (mseWords 0x10 2 2 1 (rangeTiles x e st) (x.origin e st + x.ownOff e st) (x.dst e st) noAddr noAddr (r.epoch % 65536) false)
    (.openR b st)

/-- RESEND to every other contributor, with the epoch and the node that retracted (R298, Table 9.5). -/
def State.resendAll (s : State) (x : Ex) (b st : Nat) : State :=
  match s.bucket b with
  | none => s
  | some k =>
    let r := k.r st
    let pay := toBytes 2 r.epoch ++ toBytes 2 r.retractor.toNat ++ List.replicate 12 0
    (x.peers st).foldl (fun s n => s.control x.p PT.resend n.1 b 1 pay s.stepNo r.epoch) s

/-! ## Sending a part (R282 to R284) -/

/-- The largest finite magnitude of W32 codes, as a code (R102). -/
def amaxOf (l : List Word) : Word :=
  l.foldl (fun a w =>
    if (w32Val w).isFin && decide (a.toNat < w.toNat % 2 ^ 31) then BitVec.ofNat 32 (w.toNat % 2 ^ 31) else a) 0

/-- c = 2^floor(log2 amax), within R42; 1.0 where amax is 0 (R102). -/
def coarseOf (amax : Word) : Word :=
  let e := amax.toNat / 2 ^ 23
  if amax = 0 then 0x3F800000
  else if e = 0 then 0x00800000
  else if 0x7E800000 < e * 2 ^ 23 then 0x7E800000
  else BitVec.ofNat 32 (e * 2 ^ 23)

/-- Encode 16 rows of 32 B16 codes, the rows from `r0` of the tile at a VA, as an F8 contribution's payload (R46, R56, R260). -/
def f8Payload (va r0 : Nat) (coarse : Word) (codes : List Nat) : List Byte :=
  let r := recip coarse
  let edge := Config.edge va
  let num (i : Nat) : Option (Num × Rnd) :=
    if r0 + i / 32 < edge.1 ∧ i % 32 < edge.2 then some (b16Val (BitVec.ofNat 16 (codes.getD i 0)), .rne) else none
  let blk (j : Nat) : EncBlock :=
    encodeBlock false r ((List.range 64).map fun i => num ((j / 4 * 8 + i / 8) * 32 + j % 4 * 8 + i % 8))
  let bs := (List.range 8).map blk
  toBytes 4 coarse.toNat ++ bs.map (·.ex) ++ List.replicate 4 0 ++
    (List.range 512).map fun i =>
      match bs[i / 32 / 8 * 4 + i % 32 / 8]? with
      | some y => y.codes.getD (i / 32 % 8 * 8 + i % 8) 0
      | none => 0

/-- Pieces of `n` bytes. -/
def pieces : Nat → Nat → List Byte → List (List Byte)
  | 0, _, _ => []
  | k + 1, n, l => if l.isEmpty || n == 0 then [] else l.take n :: pieces k n (l.drop n)

/-- VA and payload of each packet of a part read at `src`, in ascending address order, in a wire format; the owner's range is
B16. -/
def partPieces (wire src base : Nat) (bytes : List Byte) : List (Nat × List Byte) :=
  match wire with
  | 0 => (pieces bytes.length 512 bytes).zipIdx.map fun e => (base + 512 * e.2, e.1)
  | 1 => (pieces bytes.length 256 bytes).zipIdx.map fun e =>
      (base + 256 * e.2, ((codesOf 128 2 e.1).map elemB16).flatMap fun y => toBytes 4 y.w.toNat)
  | _ =>
    let coarse := coarseOf (amaxOf ((codesOf bytes.length 2 bytes).map fun c => (elemB16 c).w))
    (pieces bytes.length 1024 bytes).zipIdx.map fun e => (base + 1024 * e.2, f8Payload (src + 2048 * (e.2 / 2)) (16 * (e.2 % 2)) coarse (codesOf 512 2 e.1))

/-- Mark the last packet bound for each die (R282). -/
def markLast (die : Nat → Option Nat) (l : List (Nat × List Byte)) : List (Nat × List Byte × Bool) :=
  (l.foldr (fun e (a : List (Nat × List Byte × Bool) × List (Option Nat)) =>
    ((e.1, e.2, !a.2.contains (die e.1)) :: a.1, if a.2.contains (die e.1) then a.2 else die e.1 :: a.2)) ([], [])).1

/-- A CONTRIB packet. -/
def State.contribPacket (s : State) (dst : BitVec 16) (wire ep : Nat) (e : Nat × List Byte × Bool) : Packet :=
  { Packet.blank PT.contrib dst.toNat s.node with
    len := BitVec.ofNat 6 (e.2.1.length / 16), pf := e.2.2, tag := BitVec.ofNat 16 ep, x := BitVec.ofNat 2 wire
    addr := BitVec.ofNat 40 (e.1 / 16), payload := e.2.1 }

/-- Send packets on the route chosen for the first of them. -/
def State.sendRouted (s : State) : List Packet → Option Route → State
  | [], _ => s
  | p :: r, pin =>
    let x := s.inject p pin false agentSeq
    x.1.sendRouted r x.2

/-- The part of a bucket for one owner as this device holds it. -/
def Bucket.part (k : Bucket) (st : Nat) (dst : BitVec 16) : Option Part := k.parts.find? fun p => p.st == st && p.dst == dst

def Bucket.setPart (k : Bucket) (p : Part) : Bucket :=
  { k with parts := k.parts.filter (fun q => !(q.st == p.st && q.dst == p.dst)) ++ [p] }

/-- Send a part at an epoch, followed by its CLEAN (R282, R284, R299); false where the held part cannot be read. -/
def State.sendPart (s : State) (x : Ex) (e : BucketEnt) (b st : Nat) (dst : BitVec 16) (n ep : Nat) : State × Bool :=
  match s.read agentSeq (x.origin e st + n * x.partLen e st) (x.partLen e st) with
  | (s1, .error _) => (s1, false)
  | (s1, .ok bytes) =>
    let ps := (markLast s1.dieOf (partPieces e.wire (x.origin e st + n * x.partLen e st) (x.dst e st) bytes)).map (s1.contribPacket dst e.wire ep)
    let s2 := s1.sendRouted ps none
    let ok := s2.seq.itemsOk
    let s3 := s2.modBucket b fun k => k.setPart { st := st, dst := dst, clean := ok, epoch := ep, due := false }
    (if ok then s3.control x.p PT.seal dst b 1 [] s3.stepNo 0 else s3, true)

/-! ## The owner's range: counting, clearing, reopening (R286, R298) -/

/-- FINISH once every contribution has been counted (R286). -/
def State.checkCount (s : State) (x : Ex) (b st : Nat) : State :=
  match s.bucket b, x.p.entry b with
  | some k, some e =>
    let r := k.r st
    if r.phase == .open_ && !r.selfDue && decide (x.expect st ≤ r.count) then
      (s.setBucket b (k.setR st { r with phase := .finishing, recs := [] })).seqMse
        (mseWords 0x12 0 0 0 0 0 (x.dst e st) noAddr (if s.fallBack && st == x.last then e.maps else noAddr) 0 false) (.finishR b st)
    else s
  | _, _ => s

/-- A die has added the last element of a contributor's part to a range (R155): SEQ counts it. -/
def State.seqCount (s : State) (k dst : Nat) : State :=
  match s.ex with
  | none => s
  | some x =>
    if !s.isRunning then s
    else s.eachBucket fun s b =>
      match s.bucket b, x.p.entry b with
      | some y, some e => x.stages.foldl (fun s st =>
          let r := y.r st
          if x.dst e st == dst && (r.phase == .open_ || r.phase == .opening) then
            (s.modRange b st fun r => { r with counts := Sparse.put r.counts k (Sparse.get 0 r.counts k + 1) }).checkCount x b st
          else s) s
      | _, _ => s

/-- The self-contribution: SEQ feeds the owner's own part to the dies at the range's epoch (R279); false where it cannot be
read. It goes the way of every part, in the bucket's wire format (log entry 111). -/
def State.selfContribute (s : State) (x : Ex) (e : BucketEnt) (b st : Nat) : State × Bool :=
  match s.read agentSeq (x.origin e st + x.ownOff e st) (x.partLen e st) with
  | (s1, .error _) => (s1, false)
  | (s1, .ok bytes) =>
    let s2 := s1.modRange b st fun r => { r with selfDue := false }
    let ps := markLast s2.dieOf (partPieces e.wire (x.origin e st + x.ownOff e st) (x.dst e st) bytes)
    (ps.foldl (fun s q =>
      match s.dieOf q.1 with
      | none => s
      | some d => match (s.mse d).ranges.find? fun r => r.holds q.1 with
        | none => s
        | some r =>
          let s := s.feed d r q.1 x.me.node (wireElems e.wire q.2.1) q.2.2
          if q.2.2 then s.seqCount d r.dst else s) s2, true)

/-- Bring a range back to where every contribution is still to come (R298): CLEAR while it is open, a new range behind a
FINISH, and with an HM contributor the sequence of R305; a command in hand is waited for. -/
def State.restartRange (s : State) (x : Ex) (b st : Nat) (node : BitVec 16) : State :=
  match s.bucket b, x.p.entry b with
  | some k, some e =>
    let r := k.r st
    let k := if k.st == .idle then k else { k with st := .refilling }
    if (r.phase == .open_ || r.phase == .finished) && !(x.hmPeers st).isEmpty then
      let s := s.setBucket b (k.setR st { r with
        phase := .draining, again := none, clean := [], retractor := node, draining := x.hmPeers st })
      (x.hmPeers st).foldl (fun s n => s.hmRecord x.p (0xF0 * 2 ^ 56 + b % 4096 * 2 ^ 44 + s.stepNo % 2 ^ 32)
        (s.node * 2 ^ 48 + n.toNat * 2 ^ 32)) s
    else match r.phase with
      | .open_ =>
        (s.setBucket b (k.setR st { r with phase := .clearing, recs := [], again := none, clean := [], retractor := node })).seqMse
          (mseWords 0x11 0 0 0 0 0 (x.dst e st) noAddr noAddr 0 false) (.clearR b st)
      | .finished => s.setBucket b (k.setR st { r with
          phase := .closed, epoch := r.epoch + 1, again := none, clean := [], retractor := node, resendDue := true })
      | _ => s.setBucket b (k.setR st { r with again := some node, clean := [] })
  | _, _ => s

/-- Every die has left an HM contributor's range: it is closed, and after that the wait of R305 begins. -/
def State.drained (s : State) (x : Ex) (b st : Nat) : State :=
  match s.bucket b, x.p.entry b with
  | some k, some e =>
    let r := k.r st
    if r.phase == .draining && r.draining.isEmpty then
      if r.dies.isEmpty then s.modRange b st fun r => { r with phase := .waiting }
      else (s.modRange b st fun r => { r with phase := .closing, recs := [] }).seqMse
        (mseWords 0x13 0 0 0 0 0 (x.dst e st) noAddr noAddr 0 false) (.closeR b st)
    else s
  | _, _ => s

/-- A range may be opened anew, one epoch higher, with its RESEND to follow. -/
def RangeSt.reopen (r : RangeSt) : RangeSt :=
  { r with phase := .closed, epoch := r.epoch + 1, resendDue := true, dies := [], counts := [] }

/-- An owner-side restart: with a stage 1 range, the stage 2 parts made from its result are retracted (SENDPATH) and the
own stage 2 range starts anew. -/
def State.ownerRestart (s : State) (x : Ex) (b st : Nat) (node : BitVec 16) : State :=
  match s.bucket b with
  | none => s
  | some k =>
    let s1 := s.restartRange x b st node
    if st = 1 ∧ x.last = 2 then
      let ps := k.parts.filter fun p => p.st == 2
      let s2 := s1.modBucket b fun k => { k with parts := k.parts.map fun p => if p.st = 2 then { p with clean := false } else p }
      let s3 := ps.foldl (fun s p => s.control x.p PT.retract p.dst b 1 [] s.stepNo 0) s2
      if (k.r 2).phase == .closed && (k.r 2).epoch == 0 then s3 else s3.restartRange x b 2 x.me.node
    else s1

/-! ## Replay (R300) -/

/-- SEQ zeroes the local gradient of its buckets with FILLs (R283). -/
def State.zeroGrads (s : State) (x : Ex) : State :=
  s.eachBucket fun s b =>
    match x.p.entry b with
    | none => s
    | some e => (s.seqMse (mseWords 0x04 0 2 0 (e.size / 2048) 0 e.grad noAddr noAddr 0 false) (.zero b)).modSeq
        fun q => { q with zeroLeft := q.zeroLeft + 6 }

/-- Every microbatch of the passes in hand is still to run. -/
def Seq.rewind (q : Seq) : Seq :=
  { q with fStarted := 0, fDone := 0, rStarted := 0, rDone := 0, bStarted := 0, bDone := [], full := false, notOk := false, counters := [],
           toLaunch := [], ahead := false, owedFault := none }

/-- Owners to which data of the step has been sent. -/
def State.sentTo (s : State) : List (BitVec 16) := (s.seq.buckets.flatMap fun e => e.2.parts.map (·.dst)).eraseDups

/-- This member replays the step: it retracts all it has sent, discards it, zeroes GRAD and runs every microbatch again in
recompute mode; its own ranges start anew (R300). -/
def State.replayHere (s : State) (x : Ex) (reason : Nat) : State :=
  let s := s.sentTo.foldl (fun s n => s.control x.p PT.retract n 0xFFFF reason [] s.stepNo 0) s
  if 2 ≤ s.seq.replays then (s.modSeq fun q => { q with replays := q.replays + 1 }).halt HC.replayfail x.me.node
  else
    let s := s.modSeq fun q => { q.rewind with
      replays := q.replays + 1, replaying := true, recompute := true
      faultFlag := q.entered, own := q.own.map fun v => { v with fault := v.fault || q.entered } }
    let s := s.event EV.replay x.me.replica.toNat
    let s := s.eachBucket fun s b =>
      let s := s.modBucket b fun k => { k with parts := k.parts.map fun p => { p with clean := false, due := false } }
      x.stages.foldl (fun s st => match s.bucket b with
        | some k => if (k.r st).phase == .closed then s else s.restartRange x b st x.me.node
        | none => s) s
    s.zeroGrads x

/-- The step leader sends REPLAYING down the tree, now and every 500 ms (R300). -/
def State.announceReplay (s : State) (x : Ex) (replica : BitVec 16) : State :=
  (s.messageDown x.p msgReplaying replica.toNat).modSeq fun q => { q with
    announce := q.announce.filter (fun e => e.1 != replica) ++ [(replica, q.round)] }

/-- A fault implicates data of the passes in hand (R297): a replay of the whole replica; where they belong to a step that has
still to begin, once it has (log entry 94). -/
def State.seqFault (s : State) (reason : Nat) : State :=
  match s.ex with
  | none => s
  | some x =>
    if !s.isRunning || s.seq.applied then (if s.seq.applied && !s.seq.ahead then s else s.owe reason)
    else
      let s1 := s.replayHere x reason
      if !s1.isRunning then s1
      else if x.p.stepLeader.toNat = s1.node then s1.announceReplay x x.me.replica
      else s1.message msgReplaying x.p.stepLeader x.me.replica.toNat

/-! ## Records of SEQ's own commands -/

def recOk (l : List DieRec) : Bool := l.all fun r => r.status == 0 || r.status == 1

/-- NOTOPEN is raised for a discard told before the range was open again (R285). -/
def State.noteNotOpen (s : State) (b st : Nat) (r : RangeSt) : State :=
  if r.notOpen then (s.modRange b st fun r => { r with notOpen := false }).event EV.notopen b else s

/-- The OPEN of a range has completed on all six dies. -/
def State.rangeOpened (s : State) (x : Ex) (b st : Nat) (recs : List DieRec) : State :=
  match s.bucket b, x.p.entry b with
  | some k, some e =>
    let r := k.r st
    if !recOk recs then
      ((s.modRange b st fun r => { r with phase := .closing, recs := [] }).seqMse
        (mseWords 0x13 0 0 0 0 0 (x.dst e st) noAddr noAddr 0 false) (.closeR b st)).seqFault retHeld
    else
      let dies := (recs.filter fun y => y.count != 0).map (·.die)
      let s1 := s.modRange b st fun r => { r with phase := .open_, dies := dies, seeded := true, resendDue := false }
      let s2 := s1.noteNotOpen b st r
      match r.again with
      | some n => s2.ownerRestart x b st n
      | none =>
        if r.notOpen then s2.ownerRestart x b st x.me.node
        else (if r.resendDue then s2.resendAll x b st else s2).checkCount x b st
  | _, _ => s

/-- The CLEAR of a range has completed on all six dies: the epoch is one higher, the own part is to be added again, and
every other contributor is asked to send again (R298). -/
def State.rangeCleared (s : State) (x : Ex) (b st : Nat) : State :=
  match s.bucket b with
  | none => s
  | some k =>
    let s1 := s.modRange b st fun r => { r with
      phase := .open_, epoch := r.epoch + 1, seeded := false, counts := [], selfDue := true }
    let s2 := s1.noteNotOpen b st (k.r st)
    match (k.r st).again with
    | some n => s2.ownerRestart x b st n
    | none => if (k.r st).notOpen then s2.ownerRestart x b st x.me.node else s2.resendAll x b st

/-- First non-finite event of a bucket, combined by Table 5.4. -/
def firstNf (l : List DieRec) : Option DieRec :=
  (l.filter (·.nonfin)).foldl (fun a r => match a with
    | none => some r
    | some y => if r.die < y.die then some r else a) none

/-- The non-finite event of a bucket: that of its stage 1 range, else that of its stage 2 range (R117; log entry 95). -/
def Bucket.withNf (k : Bucket) : Bucket :=
  let nf := k.r1.nf <|> k.r2.nf
  { k with
    nonfin := nf.isSome
    nfNode := match nf with | some y => y.node | none => 0
    nfOff := match nf with | some y => y.offset | none => 0 }

/-- The FINISH of a range has completed on all six dies (R286, R287). -/
def State.rangeFinished (s : State) (x : Ex) (b st : Nat) (recs : List DieRec) : State :=
  match s.bucket b with
  | none => s
  | some k =>
    if recs.any fun r => r.status == 7 then
      (s.modRange b st fun r => { r with phase := .finished, dies := [] }).ownerRestart x b st x.me.node
    else if !recOk recs then s
    else
      let s1 := s.modBucket b fun k =>
        let k := k.setR st { k.r st with phase := .finished, dies := [], nf := firstNf recs }
        if st = x.last then k.withNf else k
      match (k.r st).again with
      | some n => s1.ownerRestart x b st n
      | none => s1

/-- The CLOSE of a range has completed on all six dies. -/
def State.rangeClosed (s : State) (x : Ex) (b st : Nat) : State :=
  s.modRange b st fun r => if (x.hmPeers st).isEmpty then r.reopen else { r with phase := .waiting, dies := [] }

/-- One die's record of a range command; the sixth completes the command. -/
def State.rangeRecord (s : State) (b st : Nat) (ph : RPhase) (y : DieRec)
    (f : State → List DieRec → State) : State :=
  match s.bucket b with
  | none => s
  | some k =>
    let r := k.r st
    if r.phase != ph then s
    else if r.recs.length < 5 then s.modRange b st fun r => { r with recs := r.recs ++ [y] }
    else f (s.modRange b st fun r => { r with recs := [] }) (r.recs ++ [y])

/-! ## RETRACT, RESEND, CLEAN and NOTOPEN -/

/-- The buckets of the step in hand, or of the one halted, have sealed: all of a step do so together (R291). -/
def Seq.hasSealed (q : Seq) : Bool := q.applied && !q.skipped

/-- An owner receives RETRACT for one bucket of the running step. -/
def State.retractOne (s : State) (x : Ex) (b : Nat) (node : BitVec 16) : State :=
  match s.bucket b with
  | none => s
  | some k =>
    (s.setBucket b { k with retracts := satAdd 16 k.retracts 1 }).ownerRestart x b
      (if x.stages.contains (x.stageOf node) then x.stageOf node else x.last) node

/-- RETRACT from a contributor (R298): of an earlier step or a sealed bucket it is a late detection (R304), on a halted member
too. -/
def State.retractFrom (s : State) (node : BitVec 16) (tag : Nat) (step : Word) : State :=
  match s.ex with
  | none => s
  | some x =>
    let now := BitVec.ofNat 32 s.stepNo
    if !(s.inStep || s.seqState == SQ.halted) || !x.isPeer node then s
    else if (step ≠ now ∧ (now - step).toNat < 2 ^ 31) ∨ (step = now ∧ s.seq.hasSealed) then
      s.lateDetection step (if tag = 0xFFFF then none else some tag)
    else if step ≠ now ∨ !s.inStep then s
    else
      let s1 := (s.modSeq fun q => { q with retracts := q.retracts + 1 }).event EV.retract tag
      (if tag = 0xFFFF then s.seq.buckets.map (·.1) else [tag]).foldl (fun s b => s.retractOne x b node) s1

/-- A packet of the exchange concerns a step that this device has still to begin: a later one, or the first of a run whose
member barrier it has not left. -/
def State.ahead (s : State) (step : Word) : Bool :=
  let now := BitVec.ofNat 32 s.stepNo
  if step = now then s.isRunning && s.seq.barrier.isSome else decide ((step - now).toNat < 2 ^ 31)

/-- The part that a RESEND asks for: it is due at the epoch given (R299). -/
def Bucket.asked (x : Ex) (node : BitVec 16) (ep : Nat) (k : Bucket) : Bucket :=
  k.setPart { st := x.stageOf node, dst := node, clean := false, epoch := ep, due := true }

/-- A CLEAN of a contributor is noted (R287). -/
def RangeSt.noteClean (node : BitVec 16) (r : RangeSt) : RangeSt :=
  { r with clean := if r.clean.contains node then r.clean else r.clean ++ [node] }

/-- RESEND from an owner (R299): the part goes out again at the epoch given, once it is there; one for a step that has still
to begin is kept, the latest of a bucket and owner. -/
def State.resendFrom (s : State) (node : BitVec 16) (tag : Nat) (step : Word) (ep : Nat) : State :=
  match s.ex with
  | none => s
  | some x =>
    if !x.isPeer node then s
    else if s.ahead step then s.modSeq fun q => { q with
      asked := q.asked.filter (fun e => !(e.1 == step && e.2.1 == tag && e.2.2.1 == node)) ++ [(step, tag, node, ep)] }
    else if s.inStep && step == BitVec.ofNat 32 s.stepNo then s.modBucket tag (Bucket.asked x node ep)
    else s

/-- CLEAN from a contributor (R287); one for a step that has still to begin is kept. -/
def State.cleanFrom (s : State) (node : BitVec 16) (tag : Nat) (step : Word) : State :=
  match s.ex with
  | none => s
  | some x =>
    if !x.isPeer node then s
    else if s.ahead step then s.modSeq fun q => { q with early := q.early ++ [(step, tag, node)] }
    else if s.inStep && step == BitVec.ofNat 32 s.stepNo then s.modRange tag (x.stageOf node) (RangeSt.noteClean node)
    else s

/-- SEQ is told of a NOTOPEN discard (R285): an open range is cleared now, any other once it is open. -/
def State.seqNotOpen (s : State) (va : Nat) : State :=
  match s.ex with
  | none => s
  | some x =>
    if !s.inStep then s
    else s.eachBucket fun s b =>
      match s.bucket b, x.p.entry b with
      | some k, some e => x.stages.foldl (fun s st =>
          let r := k.r st
          if decide (x.dst e st ≤ va ∧ va < x.dst e st + x.partLen e st) then
            match r.phase with
            | .open_ => (s.event EV.notopen b).ownerRestart x b st x.me.node
            | _ => s.modRange b st fun r => { r with notOpen := true }
          else s) s
      | _, _ => s

/-! ## What a full bucket does next -/

/-- One part of a bucket that is to be sent now: never sent, or asked for again. -/
def Ex.partDue (x : Ex) (k : Bucket) (st : Nat) : Option (BitVec 16 × Nat × Nat) :=
  (x.peers st).findSome? fun n => match k.part st n.1 with
    | none => some (n.1, n.2, 0)
    | some p => if p.due then some (n.1, n.2, p.epoch) else none

/-- The next thing the exchange does for a stage of a bucket whose source is there. -/
def State.stageRule (s : State) (x : Ex) (e : BucketEnt) (b st : Nat) (k : Bucket) : Option State :=
  if !s.srcReady x k b st then none
  else if (k.r st).phase == .closed then some (s.openRange x e b st k)
  else if (k.r st).phase == .open_ && (k.r st).selfDue then
    let y := s.selfContribute x e b st
    some (if y.2 then y.1.checkCount x b st else y.1.seqFault retHeld)
  else match x.partDue k st with
    | none => none
    | some (n, i, ep) =>
      let y := s.sendPart x e b st n i ep
      some (if y.2 then y.1 else y.1.seqFault retHeld)

/-- The next thing the exchange does for a bucket. -/
def State.bucketRule (s : State) (x : Ex) (b : Nat) : Option State :=
  match s.bucket b, x.p.entry b with
  | some k, some e =>
    if s.seq.applied || !s.bucketFull x.p b then none
    else if k.st == .idle then some (s.setBucket b { k with st := .filling })
    else if (k.st == .filling || k.st == .refilling) && x.stageDone k x.last then some (s.setBucket b { k with st := .complete })
    else x.stages.findSome? fun st => s.stageRule x e b st k
  | _, _ => none

end Sys2Proof.Machine
end

