-- ==== Sys2Proof/Machine/Passes.lean ====
section
/-! DEFINITION. The pass pipeline of SEQ: the data ring and input slots (R315), the order of passes (R23), launching items
behind their gates (R29, R311), and completion counters (R308). -/

namespace Sys2Proof.Machine

/-! ## The data ring (R315) -/

/-- SEQ waits for data: DATAWAIT is raised once per wait. -/
def State.dataWait (s : State) : State :=
  (s.event EV.datawait (s.seq.drHead % 2 ^ 32)).modSeq fun q => { q with dataWait := true }

/-- Take the next data ring entry into the next input slot. -/
def State.fetchInput (s : State) (p : Prog) : State :=
  if (s.reg .SEQ_DRTAIL 0 0).toNat = s.seq.drHead % 2 ^ 32 then s.dataWait
  else
    match s.readWords agentSeq (p.dring + 32 * (s.seq.drHead % 2 ^ (p.drlog + 4))) 4 with
    | (s1, .error _) => s1.dataWait
    | (s1, .ok w) =>
      let bytes := dbits (nth 0 w 1) 63 32
      if dbits (nth 0 w 1) 31 0 ≠ s1.seq.seqNum % 2 ^ 32 ∨ bytes % 256 ≠ 0 ∨ p.slotb < bytes then
        s1.halt HC.baddata (BitVec.ofNat 16 s1.node)
      else
        match s1.read agentSeq (dbits (nth 0 w 0) 47 0) bytes with
        | (s2, .error _) => s2.dataWait
        | (s2, .ok d) =>
          let slot := (if s2.seq.half then p.nmb else 0) + s2.seq.slotsIn
          (s2.put agentSeq (p.inbuf + slot * p.slotb) d).modSeq fun q => { q with
            drHead := (q.drHead + 1) % 2 ^ 64, seqNum := q.seqNum + 1, slotsIn := q.slotsIn + 1 }

/-- The passes in hand lack an input and SEQ does not wait for data. -/
def Seq.wantsInput (q : Seq) (p : Prog) : Bool := !q.dataWait && decide (q.slotsIn < p.nmb)

/-! ## Launching (R308, R311) -/

/-- Items of a pass list for one stream, each with its gates and those of the gate-only entries directly before it. -/
def passItems (st : Nat) : List PassEnt → List Nat → List (Nat × Nat × List Nat)
  | [], _ => []
  | e :: r, g =>
    let g' := match e.gate with | some b => g ++ [b] | none => g
    if e.item = 0 then passItems st r g'
    else if e.stream = st then (e.core, e.item, g') :: passItems st r []
    else passItems st r []

/-- A counter over items to launch: for each die and for each core the number of its items. -/
def counterOf (id : Nat) (use : CntUse) (cores : List Nat) : Counter :=
  { id := id, use := use, status := 0
    left := ((List.range 4).map fun d => (d, (cores.filter fun c => dieOfCore c == d).length, 0)).filter fun e => e.2.1 != 0
    cores := cores.eraseDups.map fun c => (c, (cores.filter (· == c)).length) }

/-- SEQ sets items out for launching under a new counter. -/
def State.setOut (s : State) (use : CntUse) (st : Nat) (items : List (Nat × Nat × List Nat)) (arg : Nat) (rep : Bool) : State :=
  s.modSeq fun q => { q with
    counters := q.counters ++ [counterOf q.nextCnt use (items.map (·.1))]
    nextCnt := (q.nextCnt + 1) % 65536
    toLaunch := q.toLaunch ++ items.map fun i =>
      { stream := st, core := i.1, item := i.2.1, gates := i.2.2, cnt := q.nextCnt, arg := arg, replace := rep } }

/-- The step to which the passes in hand belong, counted from the first step of the run. -/
def Seq.passStep (q : Seq) : Nat := q.stepsRun + (if q.ahead then 1 else 0)

/-- The number of the step to which the passes in hand belong. -/
def State.passNo (s : State) : Word := BitVec.ofNat 32 (s.stepNo + (if s.seq.ahead then 1 else 0))

/-- A gate is open: in the first step of a run, and once its bucket is gathered for the step before (R29). -/
def State.gateOpen (s : State) (b : Nat) : Bool :=
  s.seq.passStep == 0 || (s.bucket b).isNone
    || (match Sparse.find s.seq.gateAt b with
        | some n => n == s.passNo - 1
        | none => false)

/-- An item can go to its core's ring, or fail at once: its gates are open, its core is not held back, and the ring has room
(R340, R347). -/
def State.launchable (s : State) (t : ToLaunch) : Bool :=
  t.gates.all s.gateOpen &&
    (!s.avail t.core || (!s.heldBack t.core && s.ringOn passRing (s.phys t.core) t.stream && !s.ringFull passRing (s.phys t.core) t.stream))

/-- A work item as SEQ launches it: its own ARG plus the microbatch's offset, or replaced; CNTID as SEQ's (R308, R311). -/
def itemWords (t : ToLaunch) (w : List DWord) : List DWord :=
  [nth 0 w 0, nth 0 w 1, if t.replace then BitVec.ofNat 64 t.arg else nth 0 w 2 + BitVec.ofNat 64 t.arg,
   BitVec.ofNat 64 ((nth 0 w 3).toNat / 2 ^ 16 * 2 ^ 16 + t.cnt)]

/-- Launch one item: copied into its core's pass ring; an item that cannot be read or written there, or whose core is
unavailable, completes with FAULT (R341). -/
def State.launchItem (s : State) (t : ToLaunch) : State :=
  let s := s.modSeq fun q => { q with toLaunch := q.toLaunch.erase t }
  if !s.avail t.core then s.itemStatus t.core t.cnt 0x07
  else
    match s.readWords agentSeq t.item 4 with
    | (s1, .error _) => s1.itemStatus t.core t.cnt 0x07
    | (s1, .ok w) =>
      match s1.ringPush passRing (s1.phys t.core) t.stream agentSeq false (itemWords t w) with
      | (s2, some _) => s2.itemStatus t.core t.cnt 0x07
      | (s2, none) => s2

/-! ## The order of passes (R23) -/

/-- Forward of the next microbatch may start: its input is there, the forward before it has completed, and so has backward
of the microbatch that is the depth earlier. -/
def Seq.mayStartF (q : Seq) (p : Prog) : Bool :=
  !q.resumeHold && decide (q.fStarted < p.nmb) && decide (q.fStarted < q.slotsIn) && q.fDone == q.fStarted
    && (decide (q.fStarted < p.depth) || q.bDone.contains (q.fStarted - p.depth))

/-- No sample that reads a registered source is pending: SEQ holds the release of the sources, which is the start of the next
forward pass (R127; log entry 96). -/
def State.sourcesFree (s : State) : Bool := s.blot.all (·.isEmpty)

/-- Backward of the next microbatch may start: its forward has completed, and the local gradient is zeroed (R283). -/
def Seq.backDue (q : Seq) (p : Prog) : Bool :=
  q.zeroLeft == 0 && decide (q.bStarted < p.nmb) && decide (q.bStarted < q.fDone)

/-- In recompute mode it begins with the microbatch's forward items, on the F-engine once more (R24, R124; log entry 99). -/
def Seq.mayRecompute (q : Seq) (p : Prog) : Bool := q.recompute && q.backDue p && q.rStarted == q.bStarted

/-- Its backward items follow, in recompute mode behind the recomputation. -/
def Seq.mayStartB (q : Seq) (p : Prog) : Bool := q.backDue p && (!q.recompute || decide (q.bStarted < q.rDone))

/-- Start the forward pass of the next microbatch; a pass without items completes at once. -/
def State.startF (s : State) (p : Prog) : State :=
  let i := s.seq.fStarted
  let items := passItems 0 p.pass []
  let s := s.modSeq fun q => { q with fStarted := i + 1 }
  if items.isEmpty then s.modSeq fun q => { q with fDone := i + 1 }
  else s.setOut (.pass i .f) 0 items (i * p.argStride) false

/-- Start the recomputation of the next microbatch: the same items with the same arguments as its forward pass. -/
def State.startR (s : State) (p : Prog) : State :=
  let i := s.seq.rStarted
  let items := passItems 0 p.pass []
  let s := s.modSeq fun q => { q with rStarted := i + 1 }
  if items.isEmpty then s.modSeq fun q => { q with rDone := i + 1 }
  else s.setOut (.recompute i) 0 items (i * p.argStride) false

/-- Start the backward pass of the next microbatch. -/
def State.startB (s : State) (p : Prog) : State :=
  let i := s.seq.bStarted
  let items := passItems 1 p.pass []
  let s := s.modSeq fun q => { q with bStarted := i + 1 }
  if items.isEmpty then s.modSeq fun q => { q with bDone := q.bDone ++ [i] }
  else s.setOut (.pass i .b) 1 items (i * p.argStride) false

/-- The next thing the pipeline does. -/
def State.passRule (s : State) (p : Prog) : Option State :=
  match s.seq.toLaunch.find? s.launchable with
  | some t => some (s.launchItem t)
  | none =>
    if s.seq.wantsInput p then some (s.fetchInput p)
    else if s.seq.mayStartF p && s.sourcesFree then some (s.startF p)
    else if s.seq.mayRecompute p then some (s.startR p)
    else if s.seq.mayStartB p then some (s.startB p)
    else if !s.seq.full && s.seq.bDone.length == p.nmb then
      some (s.modSeq fun q => { q with full := true, replaying := false })
    else none

/-- Every item of a pass, or of a recomputation, has completed with OK or EMPTY in the OR, or not; a FAULT has been handled
before. -/
def State.passDone (s : State) (use : CntUse) (status : Nat) : State :=
  let s := if status.testBit 1 then s.modSeq fun q => { q with notOk := true } else s
  match use with
  | .pass mb .f => s.modSeq fun q => { q with fDone := mb + 1 }
  | .pass mb _ => s.modSeq fun q => { q with bDone := q.bDone ++ [mb] }
  | .recompute mb => s.modSeq fun q => { q with rDone := mb + 1 }
  | .update _ => s

end Sys2Proof.Machine
end

