-- ==== Sys2Proof/Machine/Verdict.lean ====
section
/-! DEFINITION. The step verdict (R288 to R292), seal, update and all-gather (R293 to R295, R301), and the step boundary with
the loss-scale rules and the fall-back (R296, R105 to R116). -/

namespace Sys2Proof.Machine

/-! ## The verdict tree and its payload (R289, R290) -/

/-- The nodes whose UPs a member waits for: its children, and at the step leader the HM members (R305). -/
def Ex.upsFrom (x : Ex) : List (BitVec 16) :=
  x.p.children x.me.node ++
    (if x.p.stepLeader = x.me.node then (x.p.members.filter (·.hm)).map (·.node) else [])

/-- Where a member sends its UP; none at the step leader. -/
def Ex.upTo (x : Ex) : Option (BitVec 16) := if x.me.hm then some x.p.stepLeader else x.p.parent x.me.node

/-- The payload of Table 9.4. -/
def Verdict.bytes (v : Verdict) : List Byte :=
  toBytes 1 (b2n v.nonfin + 2 * b2n v.fault) ++ toBytes 1 v.lsexp ++ toBytes 2 v.round ++ toBytes 2 v.bucket
    ++ toBytes 2 v.owner.toNat ++ toBytes 4 v.members ++ List.replicate 4 0

def Verdict.ofBytes (l : List Byte) : Verdict :=
  let f := (l.getD 0 0).toNat
  { nonfin := f.testBit 0, fault := f.testBit 1, lsexp := (l.getD 1 0).toNat, round := Machine.ofBytes ((l.drop 2).take 2)
    bucket := Machine.ofBytes ((l.drop 4).take 2), owner := BitVec.ofNat 16 (Machine.ofBytes ((l.drop 6).take 2))
    members := Machine.ofBytes ((l.drop 8).take 4) }

/-- The verdict shows an LSEXP mismatch (R110): NONFIN without an owner (DEDUCED, log entry 93). -/
def Verdict.mismatch (v : Verdict) : Bool := v.nonfin && v.owner == 0xFFFF

/-- Combine two verdicts by Table 9.4; differing exponents make the result carry NONFIN (R110), in the form of `mismatch`. -/
def Verdict.join (a b : Verdict) : Verdict :=
  let mism := a.lsexp != b.lsexp || a.mismatch || b.mismatch
  let second := decide (b.bucket < a.bucket) || (b.bucket == a.bucket && !a.nonfin)
  { nonfin := a.nonfin || b.nonfin || mism
    fault := a.fault || b.fault
    lsexp := max a.lsexp b.lsexp
    round := a.round
    bucket := min a.bucket b.bucket
    owner := if mism then 0xFFFF else if second then b.owner else a.owner
    members := a.members + b.members }

/-- A SEAL with a verdict, to a member or to the hosts of an HM member; it is kept for a LOST notice (R302). -/
def State.sealMsg (s : State) (x : Ex) (dst : BitVec 16) (arg : Nat) (v : Verdict) : State :=
  let step := BitVec.ofNat 32 s.stepNo
  (s.modSeq fun q => { q with
    sentSeals := q.sentSeals.filter (fun e => !(e.1 == dst && e.2.1 == arg && e.2.2.1 == step)) ++ [(dst, arg, step, v)] }).control
      x.p PT.seal dst 0xFFFF arg v.bytes s.stepNo (ofBytes (v.bytes.take 4))

/-! ## Entering and combining (R288, R289, R292) -/

/-- Every bucket that the device owns is complete, and every part it sends is CLEAN (R288); every item of the step has
completed too (log entry 92). -/
def State.mayEnter (s : State) (x : Ex) : Bool :=
  s.seq.full && !s.seq.ahead && !s.seq.ckptBusy && !s.seq.entered && !s.seq.applied && !s.seq.notOk
    && s.seq.owedFault.isNone && s.seq.buckets.all fun e =>
      e.2.st == .complete && x.stages.all fun st => (x.peers st).all fun n =>
        match e.2.part st n.1 with
        | some p => p.clean && !p.due
        | none => false

/-- The buckets whose NONFIN counts: owned and not frozen (R288, R301). -/
def State.nonfinBuckets (s : State) (x : Ex) : List Nat :=
  (s.seq.buckets.filter fun e => e.2.nonfin && !(match x.p.entry e.1 with | some y => y.frozen | none => true)).map (·.1)

/-- The member enters the round with its own contribution. -/
def State.enterVerdict (s : State) (x : Ex) : State :=
  let nf := s.nonfinBuckets x
  s.modSeq fun q => { q with
    entered := true
    own := some { nonfin := !nf.isEmpty, fault := q.faultFlag, lsexp := s.fld F.NUM_LSCALE_LSEXP, round := q.round % 65536
                  bucket := nf.headD 0xFFFF, owner := if nf.isEmpty then 0xFFFF else x.me.node, members := 1 } }

/-- The UP of a node for the step and round in hand. -/
def State.upOf (s : State) (n : BitVec 16) : Option Verdict :=
  (s.seq.ups.find? fun u => u.1 == BitVec.ofNat 32 s.stepNo && u.2.1 == s.seq.round % 65536 && u.2.2.1 == n).map (·.2.2.2)

/-- The combined verdict, once the member has entered and every awaited UP is there. -/
def State.combined (s : State) (x : Ex) : Option Verdict :=
  match s.seq.own with
  | none => none
  | some v =>
    if x.upsFrom.all fun n => (s.upOf n).isSome then
      some (x.upsFrom.foldl (fun a n => match s.upOf n with | some u => a.join u | none => a) v)
    else none

/-! ## Outcomes (R291) -/

/-- The step's loss: its loss words summed in ascending microbatch order, each sum rounded by RNE; a word that cannot be
read counts as NaN (R316). -/
def State.stepLoss (s : State) (p : Prog) : State × Word :=
  let one (s : State) (i : Nat) : State × Word :=
    match s.read agentSeq (p.loss + 4 * i) 4 with
    | (s1, .ok b) => (s1, BitVec.ofNat 32 (ofBytes b))
    | (s1, .error _) => (s1, w32Nan)
  (List.range (p.nmb - 1)).foldl (fun a i => let y := one a.1 (i + 1); (y.1, (w32Add a.2 y.2).1)) (one s 0)

/-- LOSSES takes the loss of the step in hand. -/
def State.keepLoss (s : State) (p : Prog) : State :=
  let y := s.stepLoss p
  y.1.modSeq fun q => { q with losses := Sparse.put q.losses (s.stepNo % 64) (y.2, BitVec.ofNat 32 s.stepNo) }

/-- A bucket counts as gathered for the step (R29, R295). -/
def State.openGate (s : State) (b : Nat) (step : Word) : State :=
  s.modSeq fun q => { q with
    gateAt := Sparse.put q.gateAt b step
    gatherIn := q.gatherIn.filter fun e => !(e.1 == b && e.2.1 == step.toNat % 2 ^ 28) }

/-- A bucket that has been committed and whose G − 1 GATHERED are there is gathered (R295). -/
def State.checkGathered (s : State) (x : Ex) (b : Nat) : State :=
  match Sparse.find s.seq.commitAt b with
  | none => s
  | some n =>
    if Sparse.find s.seq.gateAt b = some n then s
    else if x.others.all fun m => s.seq.gatherIn.contains (b, n.toNat % 2 ^ 28, m) then s.openGate b n
    else s

/-- A shift map nibble (R113): even tiles in bits [3:0]. -/
def nibbleOf (l : List Byte) (t : Nat) : Nat := (l.getD (t / 2) 0).toNat / 16 ^ (t % 2) % 16

/-- Tiles of the owned slice, and the VA of the shift map behind the flag map (R477, Table 9.2). -/
def Ex.mapTiles (x : Ex) (e : BucketEnt) : Nat := x.slice e / 2048
def Ex.shiftVa (x : Ex) (e : BucketEnt) : Nat := e.maps + 4 * ((x.mapTiles e + 31) / 32)

/-- Rewrite every shift of an owned slice. -/
def State.mapShifts (s : State) (x : Ex) (e : BucketEnt) (f : Nat → Nat → Nat) : State :=
  match s.read agentSeq (x.shiftVa e) ((x.mapTiles e + 1) / 2) with
  | (s1, .error _) => s1
  | (s1, .ok l) => s1.put agentSeq (x.shiftVa e)
      ((List.range l.length).map fun i => BitVec.ofNat 8 (f (2 * i) (nibbleOf l (2 * i)) + 16 * f (2 * i + 1) (nibbleOf l (2 * i + 1))))

/-- Ids of the buckets of the device's own shard. -/
def Ex.ownIds (x : Ex) : List Nat := (x.p.buckets.zipIdx.filter fun e => e.1.shard == x.me.shard).map (·.2)

/-- Do something for each bucket of the own shard, with its entry. -/
def State.eachOwn (s : State) (x : Ex) (f : State → BucketEnt → State) : State :=
  x.ownIds.foldl (fun s b => match x.p.entry b with
    | some e => f s e
    | none => s) s

def State.allShifts (s : State) (x : Ex) (f : Nat → Nat) : State := s.eachOwn x fun s e => s.mapShifts x e fun _ v => f v

/-- The flag maps of the own buckets are cleared (R113). -/
def State.clearFlagMaps (s : State) (x : Ex) : State :=
  s.eachOwn x fun s e => s.put agentSeq e.maps (List.replicate (4 * ((x.mapTiles e + 31) / 32)) 0)

/-- Steps of the window of R112 that were skipped under R107; a WINDOW of 0 acts as 1 (log entry 95). -/
def State.windowSkips (s : State) : Nat :=
  ((s.seq.skipWindow.drop (s.seq.skipWindow.length - max 1 (s.fld F.NUM_FBCTL_WINDOW))).filter id).length

/-- The fall-back is in force while FORCE is 1 or it has been entered of itself (R112): on entry FBENTER is raised and every
shift is 0 and every flag map clear (R113). -/
def State.settleFallBack (s : State) : State :=
  let now := s.flag F.NUM_FBCTL_FORCE || s.seq.fbAuto
  let s := if now && !s.fallBack then (match s.ex with
      | some x => ((s.event EV.fbenter s.windowSkips).allShifts x (fun _ => 0)).clearFlagMaps x
      | none => s)
    else s
  s.setFld F.NUM_FBSTAT_ACTIVE (b2n now)

/-- The flagged gradient tiles of an owned slice: every shift of one rises by one, and SHIFTMAX is raised at 15 (R114). -/
def State.flagTiles (s : State) (x : Ex) (e : BucketEnt) (b : Nat) : State × Nat :=
  match s.read agentSeq e.maps ((x.mapTiles e + 7) / 8), (s.read agentSeq (x.shiftVa e) ((x.mapTiles e + 1) / 2)).2 with
  | (s1, .ok fm), .ok sm =>
    let hit (t : Nat) : Bool := decide (t < x.mapTiles e) && (fm.getD (t / 8) 0).toNat.testBit (t % 8)
    let ts := (List.range (x.mapTiles e)).filter hit
    let s2 := s1.mapShifts x e fun t v => if hit t then min (v + 1) 15 else v
    ((ts.filter fun t => nibbleOf sm t == 15).foldl (fun s _ => s.event EV.shiftmax b) s2, ts.length)
  | (s1, _), _ => (s1, 0)

/-- The passes of the next step, from its first microbatch. -/
def Seq.nextPasses (q : Seq) : Seq :=
  { q.rewind with half := !q.half, slotsIn := q.slotsAhead, slotsAhead := 0, dataWait := false }

/-- The result skips the step (R107, R110): nothing seals, held data is discarded, GRAD is zeroed. -/
def State.skipStep (s : State) (x : Ex) (v : Verdict) (mismatch : Bool) : State :=
  let s := s.eachBucket fun s b =>
    (s.modBucket b fun k => { k with st := .skipped, parts := [] }).openGate b (BitVec.ofNat 32 s.stepNo)
  (s.zeroGrads x).modSeq fun q => { q with
    skipped := true, mismatch := mismatch, maxExp := v.lsexp, flaggedNow := 0
    nonfinSeal := v.nonfin && (v.bucket != 0xFFFF || v.owner != 0xFFFF) }

/-- The result seals every bucket (R291, R293): under the fall-back the flagged tiles are counted and shifted (R114), in a
frozen bucket too (R301). -/
def State.sealStep (s : State) (x : Ex) (v : Verdict) : State :=
  let s := s.modSeq fun q => { q with skipped := false, mismatch := false, flaggedNow := 0, nonfinSeal := v.nonfin }
  let s := s.eachBucket fun s b =>
    match x.p.entry b with
    | none => s
    | some e =>
      let y := if s.fallBack then s.flagTiles x e b else (s, 0)
      let s := y.1.modSeq fun q => { q with flaggedNow := q.flaggedNow + y.2 }
      let s := s.modBucket b fun k => { k with st := .sealed, flagged := y.2, phase := .queued }
      if e.frozen then s.openGate b (BitVec.ofNat 32 s.stepNo) else s
  (s.zeroGrads x).writeStatus

/-- The next step may begin its passes behind the updates: neither PAUSE nor the last of NSTEPS steps; CONTINUE runs as many
again. -/
def Seq.goesAhead (q : Seq) (p : Prog) : Bool := !q.pauseReq && (p.nsteps == 0 || (q.stepsRun + 1) % p.nsteps != 0)

/-- The member applies a released result (R291). With a FAULT result the announcements of replays that began in earlier rounds end
(R300). The passes of the next step are in hand from here on (R29; log entry 111). -/
def State.applyVerdict (s : State) (x : Ex) (v : Verdict) : State :=
  let s := s.setReg .SEQ_VERDICT 0 0
    (BitVec.ofNat 32 (v.round % 65536 * 2 ^ 16 + v.lsexp % 256 * 2 ^ 8 + 2 * b2n v.fault + b2n v.nonfin))
  if s.seq.faultFlag && !v.fault then s.lateDetection (BitVec.ofNat 32 s.stepNo) none
  else if v.fault then s.modSeq fun q => { q with
    announce := q.announce.filter fun e => e.2 == q.round, round := q.round + 1, entered := false, own := none, upSent := none, released := false, faultFlag := false }
  else
    let mine := match s.seq.own with | some o => o.lsexp | none => v.lsexp
    let mism := v.lsexp != mine || v.mismatch
    let s := (s.modSeq fun q => { q with announce := [] }).keepLoss x.p
    let s := if mism || (v.nonfin && !s.fallBack) then s.skipStep x v mism else s.sealStep x v
    let s := s.modSeq fun q => { q with applied := true }
    if s.seq.goesAhead x.p then s.modSeq fun q => { q.nextPasses with ahead := true, recompute := x.p.recomp } else s

/-- Send a DOWN to every node that reported here, and apply it (R289). -/
def State.releaseDown (s : State) (x : Ex) (v : Verdict) : State :=
  let s := s.modSeq fun q => { q with released := true }
  (x.upsFrom.foldl (fun s n => s.sealMsg x n 3 v) s).applyVerdict x v

/-- The next thing the verdict does: entry, an UP or its amendment, the release. -/
def State.verdictRule (s : State) (x : Ex) : Option State :=
  if s.mayEnter x then some (s.enterVerdict x)
  else if !s.seq.entered || s.seq.applied then none
  else match s.combined x with
    | none => none
    | some v =>
      match x.upTo with
      | none => if !s.seq.released && v.members == x.p.members.length then some (s.releaseDown x v) else none
      | some n =>
        if s.seq.upSent = some v then none else some ((s.modSeq fun q => { q with upSent := some v }).sealMsg x n 2 v)

/-! ## Update and commit (R293, R294, R301) -/

/-- SOFF: where the new state lies in a staging area (R294). -/
def stageOff (slice : Nat) : Nat := (0x1000 + slice / 2 + slice / 128 + 0xFFFF) / 0x10000 * 0x10000

/-- The update block (Table 9.18). -/
def State.updateBlock (s : State) (x : Ex) (e : BucketEnt) (b stage : Nat) : List Byte :=
  toBytes 8 (b * 2 ^ 52 + e.state) ++ toBytes 8 (s.fld F.NUM_LSCALE_LSEXP * 2 ^ 50 + b2n s.fallBack * 2 ^ 49 + e.rslice)
    ++ toBytes 8 (e.state64 * 2 ^ 48 + stage) ++ toBytes 8 e.maps ++ toBytes 8 e.ww ++ toBytes 8 e.wwsp
    ++ toBytes 8 (x.p.sched + 64 * (s.stepNo % max 1 x.p.nsched)) ++ toBytes 8 (s.stepNo % 2 ^ 32 * 2 ^ 32 + x.slice e)

/-- One entry of a pass or update list (R311). -/
def passEntry (w : List DWord) : PassEnt :=
  { stream := dbits (nth 0 w 0) 63 62, core := dbits (nth 0 w 0) 61 56, item := dbits (nth 0 w 0) 47 0
    gate := if dbit (nth 0 w 1) 63 then some (dbits (nth 0 w 1) 59 48) else none }

/-- 16-byte entries of a list. -/
def passEntries : Nat → List DWord → List PassEnt
  | 0, _ => []
  | k + 1, w => passEntry w :: passEntries k (w.drop 2)

/-- An update or commit that failed is done again from `ph`; the third failure halts with UPDFAULT (R293). -/
def State.updFail (s : State) (x : Ex) (b : Nat) (ph : UpdPhase) : State :=
  match s.bucket b with
  | none => s
  | some k =>
    if 2 ≤ k.fails then s.halt HC.updfault x.me.node
    else s.setBucket b { k with fails := k.fails + 1, phase := ph, recs := [] }

/-- The bucket is frozen: no copy, no all-gather; it counts as gathered (R301). -/
def State.freezeBucket (s : State) (b : Nat) : State :=
  ((s.modBucket b fun k => { k with st := .frozen, frozenUpd := true, phase := .done, staging := none, recs := [] }).event
    EV.frozen b).openGate b (BitVec.ofNat 32 s.stepNo)

/-- Issue the commit copy into STATE, then the one of the slice of WW with its scale-plane entries (R293). -/
def State.commitCopy (s : State) (x : Ex) (e : BucketEnt) (b stage : Nat) (first : Bool) : State :=
  let n := x.slice e
  let s := s.modBucket b fun k => { k with phase := if first then .copyState else .copyWw, recs := [] }
  if first then
    s.seqMse (mseWords 0x05 3 3 0 (16 * e.state64) (stage + stageOff n) e.state noAddr noAddr 0 true) (.copyState b)
  else
    s.seqMse (mseWords 0x05 0 0 0 (n / 2048) (stage + 0x1000) (e.ww + x.idx * (n / 2)) (stage + 0x1000 + n / 2)
      (e.wwsp + x.idx * (n / 128)) 0 true) (.copyWw b)

/-- VA of a bucket's staging area. -/
def Ex.stageVa (x : Ex) (i : Nat) : Nat := x.p.stage + i * x.p.stageb

/-- The events that the kernel status byte of a bucket calls for once its update list has run: PRECDIAG for DIAG (R139),
UPDNONFIN for NONFIN (R120; log entry 77). -/
def State.kernelEvents (s : State) (id : Nat) : State :=
  match s.seq.prog with
  | none => s
  | some p =>
    match s.read agentSeq (p.bstat + 32 * id + 5) 1 with
    | (s1, .ok [k]) =>
      let s2 := if k.getLsbD 1 then s1.event EV.precdiag id else s1
      if k.getLsbD 2 then s2.event EV.updnonfin id else s2
    | (s1, _) => s1

/-- Every item of an update list has completed; the OR of their statuses. -/
def State.updateDone (s : State) (x : Ex) (b status : Nat) : State :=
  match s.bucket b, x.p.entry b with
  | some k, some e =>
    if k.phase != .updating then s
    else if status.testBit 3 || (e.frozen && !status.testBit 2 && !status.testBit 1) then (s.kernelEvents b).freezeBucket b
    else if status.testBit 1 then s.updFail x b .queued
    else ((s.kernelEvents b).setBucket b { k with fails := 0 }).commitCopy x e b (x.stageVa (k.staging.getD 0)) true
  | _, _ => s

/-- Start a bucket's update: its staging area, the update block, the update list (R293). -/
def State.startUpdate (s : State) (x : Ex) (e : BucketEnt) (b area : Nat) : State :=
  let stage := x.stageVa area
  let s := s.modBucket b fun k => { k with staging := some area, phase := .updating, recs := [] }
  match s.write agentSeq false stage (s.updateBlock x e b stage) with
  | (s1, some _) => s1.updFail x b .queued
  | (s1, none) =>
    match s1.readWords agentSeq e.uitems (2 * e.nuitem) with
    | (s2, .error _) => s2.updFail x b .queued
    | (s2, .ok w) =>
      let items := (passEntries e.nuitem w).filter fun i => i.item != 0
      if items.isEmpty then s2.updateDone x b 0
      else s2.setOut (.update b) 2 (items.map fun i => (i.core, i.item, [])) stage true

/-- A free staging area of the pool. -/
def State.freeArea (s : State) (x : Ex) : Option Nat :=
  (List.range x.p.nstage).find? fun i => s.seq.buckets.all fun e => e.2.staging != some i

/-- The next update that can start: sealed buckets in ascending id, each with a staging area. -/
def State.updateRule (s : State) (x : Ex) : Option State :=
  match s.seq.buckets.find? fun e => e.2.phase == .queued with
  | none => none
  | some k =>
    match x.p.entry k.1, (match k.2.staging with | some a => some a | none => s.freeArea x) with
    | some e, some a => some (s.startUpdate x e k.1 a)
    | _, _ => none

/-- The DMA descriptor of an all-gather write: the owned slice of WW with its scale plane to one member (R295). -/
def gatherDesc (me node : BitVec 16) (ww sp tiles : Nat) : List DWord :=
  let cols := Nat.gcd tiles 32768
  let ga (n : BitVec 16) (va : Nat) : DWord := BitVec.ofNat 64 (n.toNat * 2 ^ 48 + va)
  [BitVec.ofNat 64 (2 * 2 ^ 56 + tiles / cols % 65536 * 2 ^ 32 + cols * 2 ^ 16), ga me ww, ga node ww, 0, ga me sp, ga node sp,
   BitVec.allOnes 64, 0]

/-- The DMA descriptor that copies `len` bytes to another member (Table 5.7). -/
def linearDesc (me node : BitVec 16) (src dst len : Nat) : List DWord :=
  [BitVec.ofNat 64 (1 * 2 ^ 56), BitVec.ofNat 64 (me.toNat * 2 ^ 48 + src), BitVec.ofNat 64 (node.toNat * 2 ^ 48 + dst),
   BitVec.ofNat 64 (len * 2 ^ 32), 0, 0, BitVec.allOnes 64, 0]

/-- SEQ's own DMA channel (a host-die channel). -/
def seqChannel : Nat := 15

/-- Where the own slice of a bucket's working weights lies: F8 takes half its bytes, B16 all (R121; log entry 97). -/
def Ex.wwVa (x : Ex) (e : BucketEnt) (wide : Bool) : Nat := e.ww + x.idx * (if wide then x.slice e else x.slice e / 2)

/-- SEQ hands a descriptor of its own to its channel. -/
def State.seqDma (s : State) (w : List DWord) (t : SeqTag) : State :=
  s.modDma seqChannel fun d => { d with seqQ := d.seqQ ++ [(w, .seq t)] }

/-- SEQ hands one write of the all-gather to its channel: the slice of the weights, with its scale plane where they are F8. -/
def State.gatherTo (s : State) (x : Ex) (e : BucketEnt) (b : Nat) (n : BitVec 16) (wide : Bool) : State :=
  let sl := x.slice e
  let va := x.wwVa e wide
  s.seqDma (if wide then linearDesc x.me.node n va va sl
    else gatherDesc x.me.node n va (e.wwsp + x.idx * (sl / 128)) (sl / 2048)) (.gather b n)

/-- Under the fall-back the shift map goes to the member beside the slice (R115, R295), as a write of its own whose bytes
need no alignment, to the VA that it has here (log entry 98). -/
def State.shiftsTo (s : State) (x : Ex) (e : BucketEnt) (b : Nat) (n : BitVec 16) : State :=
  s.seqDma (linearDesc x.me.node n (x.shiftVa e) (x.shiftVa e) ((x.mapTiles e + 1) / 2)) (.shifts b n)

/-- SEQ gives the owned slice of a bucket to every other member of the group (R295). -/
def State.gatherOut (s : State) (x : Ex) (e : BucketEnt) (b : Nat) (step : Word) (wide : Bool) : State :=
  x.others.foldl (fun s n =>
    let s := s.gatherTo x e b n wide
    let s := if s.fallBack then s.shiftsTo x e b n else s
    s.modSeq fun q => { q with
      gathers := q.gathers ++ [{ bucket := b, step := step, node := n, fails := 0, left := 1 + b2n s.fallBack, wide := wide }] }) s

/-- Every commit copy has completed OK: the bucket is committed and goes out to the other members. -/
def State.commit (s : State) (x : Ex) (e : BucketEnt) (b : Nat) : State :=
  let n := BitVec.ofNat 32 s.stepNo
  let s := s.modBucket b fun k => { k with st := .committed, phase := .done, staging := none, recs := [] }
  let s := s.modSeq fun q => { q with commitAt := Sparse.put q.commitAt b n }
  (s.gatherOut x e b n false).checkGathered x b

/-- One die's record of a commit copy; the sixth decides. -/
def State.copyRecord (s : State) (x : Ex) (b : Nat) (first : Bool) (y : DieRec) : State :=
  match s.bucket b, x.p.entry b with
  | some k, some e =>
    let ph : UpdPhase := if first then .copyState else .copyWw
    if k.phase != ph then s
    else if k.recs.length < 5 then s.modBucket b fun k => { k with recs := k.recs ++ [y] }
    else
      let rs := k.recs ++ [y]
      if first && rs.any fun r => r.status == 0x0B then s.freezeBucket b
      else if !recOk rs then
        let s1 := s.updFail x b ph
        if s1.isRunning then s1.commitCopy x e b (x.stageVa (k.staging.getD 0)) first else s1
      else if first then s.commitCopy x e b (x.stageVa (k.staging.getD 0)) false
      else s.commit x e b
  | _, _ => s

/-- A write of the all-gather has completed: behind the last one its member is told, and one that failed is issued again
(R295). `shifts`: the write of the shift map. -/
def State.gatherDone (s : State) (b : Nat) (n : BitVec 16) (shifts : Bool) (status : Nat) : State :=
  match s.ex, s.seq.gathers.find? fun g => g.bucket == b && g.node == n with
  | some x, some g =>
    let upd (h : GatherWrite) : State := s.modSeq fun q => { q with gathers := q.gathers.map fun y => if y = g then h else y }
    if status = 0 then
      if 1 < g.left then upd { g with left := g.left - 1 }
      else (s.modSeq fun q => { q with gathers := q.gathers.erase g }).message msgGathered n (g.step.toNat % 2 ^ 28 * 2 ^ 12 + b)
    else if 2 ≤ g.fails then s.halt HC.updfault x.me.node
    else match x.p.entry b with
      | none => s
      | some e =>
        let s1 := upd { g with fails := g.fails + 1 }
        if shifts then s1.shiftsTo x e b n else s1.gatherTo x e b n g.wide
  | _, _ => s

/-! ## The step boundary (R296) -/

/-- SEQ reads and clears every NUM.CRUSH (R105). -/
def State.takeCrush (s : State) : State :=
  let c := (List.range 8).map fun i => s.reg .NUM_CRUSH i 0
  (List.range 8).foldl (fun s i => s.setReg .NUM_CRUSH i 0 0) (s.modSeq fun q => { q with crush := c })

/-- Registers written while the step ran take effect (R111). -/
def State.applyPending (s : State) : State :=
  let put (s : State) (r : Reg) (v : Option Word) : State := match v with
    | none => s
    | some w => s.setReg r 0 0 (r.written (s.reg r 0 0) w)
  let s := put (put (put s .NUM_LSCALE s.seq.pendLscale) .NUM_LSGROW s.seq.pendLsgrow) .NUM_FBCTL s.seq.pendFbctl
  s.modSeq fun q => { q with pendLscale := none, pendLsgrow := none, pendFbctl := none }

def clampTo (lo hi v : Nat) : Nat := max lo (min hi v)

/-- Set LSEXP within LSMIN and LSMAX. -/
def State.setLsexp (s : State) (v : Nat) : State :=
  s.setFld F.NUM_LSCALE_LSEXP (clampTo (s.fld F.NUM_LSCALE_LSMIN) (s.fld F.NUM_LSCALE_LSMAX) v)

/-- The loss scale behind a step that sealed (R108, R116). The step was clean where its result carried no NONFIN: every
member decides by the same verdict (R110; log entry 95). -/
def State.sealedScale (s : State) (x : Ex) : State :=
  let s := s.modSeq fun q => { q with floorSkips := 0 }
  if s.seq.nonfinSeal then (s.setFld F.NUM_LSSTAT_CLEAN 0).setLsexp (s.fld F.NUM_LSCALE_LSEXP)
  else
    let clean := satAdd 16 (s.fld F.NUM_LSSTAT_CLEAN) 1
    let grow := s.fld F.NUM_LSGROW_GROW
    let e := s.fld F.NUM_LSCALE_LSEXP
    if grow = 0 ∨ clean < grow then (s.setFld F.NUM_LSSTAT_CLEAN clean).setLsexp e
    else
      let s := s.setFld F.NUM_LSSTAT_CLEAN 0
      if e < s.fld F.NUM_LSCALE_LSMAX then
        let s := s.setLsexp (e + 1)
        let s := s.event EV.lsgrow (s.fld F.NUM_LSCALE_LSEXP)
        if s.fallBack then s.allShifts x (· - 1) else s
      else s.setLsexp e

/-- A skip at LSMIN is counted and raises LSFLOOR; one above it ends the row of them (R109). -/
def State.floorSkip (s : State) : State :=
  if s.fld F.NUM_LSCALE_LSEXP = s.fld F.NUM_LSCALE_LSMIN then
    let n := s.seq.floorSkips + 1
    (s.modSeq fun q => { q with floorSkips := n }).event EV.lsfloor n
  else s.modSeq fun q => { q with floorSkips := 0 }

/-- The loss scale behind a skipped step (R107, R109, R110). -/
def State.skippedScale (s : State) : State :=
  let s := ((s.count F.NUM_LSSTAT_SKIPS 1).setFld F.NUM_LSSTAT_CLEAN 0).floorSkip
  let s := if s.seq.mismatch then (s.event EV.scalemis s.seq.maxExp).setLsexp (s.seq.maxExp - 1)
    else s.setLsexp (s.fld F.NUM_LSCALE_LSEXP - 1)
  s.event EV.skip (s.fld F.NUM_LSCALE_LSEXP)

/-- Entering and leaving the fall-back (R112, R113): the window and the row of unflagged steps count by the verdict
(log entry 95). -/
def State.fallBackRules (s : State) : State :=
  let w := s.seq.skipWindow ++ [s.seq.skipped && !s.seq.mismatch]
  let s := s.modSeq fun q => { q with skipWindow := w.drop (w.length - 255) }
  let s :=
    if s.seq.fbAuto then
      let hold := if s.seq.nonfinSeal then 0 else s.seq.fbHold + 1
      let s := s.modSeq fun q => { q with fbSteps := q.fbSteps + 1, fbHold := hold }
      if s.fld F.NUM_FBCTL_HOLD ≤ hold then (s.modSeq fun q => { q with fbAuto := false }).event EV.fbexit s.seq.fbSteps else s
    else if s.flag F.NUM_FBCTL_AUTO && decide (s.fld F.NUM_FBCTL_LIMIT < s.windowSkips) then
      s.modSeq fun q => { q with fbAuto := true, fbSteps := 0, fbHold := 0 }
    else s
  s.settleFallBack.setFld F.NUM_FBSTAT_FLAGGED (min s.seq.flaggedNow 65535)

/-! ## The blotter's evaluation (R128, R129) -/

/-- The samples of class `c` in bins `lo` to `hi - 1` of its histogram. -/
def State.binSum (s : State) (c lo hi : Nat) : Nat :=
  ((List.range (hi - lo)).map fun b => s.fld F.NUM_BLHIST_COUNT c (lo + b)).sum

/-- One class at a step boundary: where it is not promoted, its threshold exponent is not 0 and it holds enough samples, it
exceeds where more than 1 % of them lie in the bins below its threshold; its bins are cleared (R128). A class that exceeds
raises BLOTTER, and where PROMOTE says so it is promoted to B16 (R129). -/
def State.evaluateClass (s : State) (c : Nat) : State :=
  let t := s.fld F.NUM_BLTHR_THR / 16 ^ c % 16
  let n := s.binSum c 0 32
  if (s.fld F.NUM_CLASSFMT_B16).testBit c ∨ t = 0 ∨ n < 2 ^ s.fld F.NUM_BLCTL_MINSAMP then s
  else
    let exceeds := decide (n < 100 * s.binSum c 0 t)
    let s := (List.range 32).foldl (fun s b => s.setFld F.NUM_BLHIST_COUNT 0 c b) s
    if !exceeds then s
    else
      let s := s.event EV.blotter c
      if (s.fld F.NUM_BLCTL_PROMOTE).testBit c then
        (s.setFld F.NUM_CLASSFMT_B16 (s.fld F.NUM_CLASSFMT_B16 ||| 2 ^ c)).event EV.promote c
      else s

/-- All eight classes in turn. -/
def State.evaluateBlotter (s : State) : State := (List.range 8).foldl State.evaluateClass s

/-- A bucket as the next step begins: a discard told since its range was finished concerns the next step's range (R285). -/
def Bucket.next (k : Option Bucket) : Bucket :=
  let f := Bucket.fresh
  match k with
  | some k => { f with r1 := { f.r1 with notOpen := k.r1.notOpen }, r2 := { f.r2 with notOpen := k.r2.notOpen } }
  | none => f

/-- The buckets of the device's shard as a step begins, with their records; CLEANs and RESENDs that came
early take their place. -/
def State.freshBuckets (s : State) (x : Ex) (step : Word) : State :=
  let old := s.seq.buckets
  let s := s.modSeq fun q => { q with buckets := [] }
  let s := x.ownIds.foldl (fun s b => (s.setBucket b (Bucket.next (Sparse.find old b))).clearKstat b) s
  let es := s.seq.early.filter fun e => e.1 == step
  let as := s.seq.asked.filter fun e => e.1 == step
  let s := s.modSeq fun q => { q with
    early := q.early.filter (fun e => e.1 != step), asked := q.asked.filter fun e => e.1 != step }
  let s := es.foldl (fun s e => s.modRange e.2.1 (x.stageOf e.2.2) (RangeSt.noteClean e.2.2)) s
  as.foldl (fun s e => s.modBucket e.2.1 (Bucket.asked x e.2.2.1 e.2.2.2)) s

/-- A step begins: its number, its buckets and its verdict, with the flag maps cleared under the fall-back (R113); its passes
are in hand already or begin now. Its mode is that of R24. -/
def State.beginStep (s : State) (x : Ex) (step : Word) : State :=
  let s := s.setReg .SEQ_STEP 0 0 step
  let s := s.modSeq fun q => { q with
    entered := false, own := none, applied := false, round := 0, upSent := none, released := false
    faultFlag := false, replays := 0, replaying := false, announce := [], haltSent := none
    skipped := false, mismatch := false, flaggedNow := 0, nonfinSeal := false, retracts := 0, lostCtl := []
    sentSeals := q.sentSeals.filter fun e => (step - e.2.2.1).toNat < 2
    ups := q.ups.filter fun u => (u.1 - step).toNat < 2 ^ 31
    recompute := q.firstStep || x.p.recomp, ahead := false }
  let s := if s.fallBack then s.clearFlagMaps x else s
  (s.freshBuckets x step).writeStatus

/-- Every bucket of the step has come to its end. -/
def State.stepOver (s : State) : Bool :=
  s.seq.applied && s.seq.buckets.all fun e => e.2.st == .committed || e.2.st == .frozen || e.2.st == .skipped

end Sys2Proof.Machine
end

