-- ==== Sys2Proof/Machine/Checkpoint.lean ====
section
/-! DEFINITION. Checkpoints (R318, R319): what SEQ writes at a boundary, and what RESUME reads and restores. -/

namespace Sys2Proof.Machine

/-- One tensor record: KIND, FMT, OFFSET within STATE, bytes (Table 9.15). -/
structure CkPart where
  kind : Nat
  fmt : Nat
  off : Nat
  len : Nat
deriving DecidableEq, Repr

/-- The parts of an owned slice's state of `n` bytes for `np` parameters: the B16 master high parts, the carries, one B16
moment slot or two as far as `n` holds them, and Gram blocks in the whole 64 KiB units behind (DESIGN CHOICE, log entry
22: the step program does not describe the layout). -/
def stateParts (np n : Nat) : List CkPart :=
  if n < 3 * np then [⟨1, 2, 0, n / 256 * 256⟩]
  else
    let used := if 7 * np ≤ n then 7 * np else if 5 * np ≤ n then 5 * np else 3 * np
    let gram := (n - used) / 65536 * 65536
    [⟨1, 2, 0, 2 * np⟩, ⟨2, 15, 2 * np, np⟩]
      ++ (if 5 * np ≤ n then [⟨3, 2, 3 * np, 2 * np⟩] else [])
      ++ (if 7 * np ≤ n then [⟨4, 2, 5 * np, 2 * np⟩] else [])
      ++ (if gram = 0 then [] else [⟨5, 3, n - gram, gram⟩])

/-- Parameters of an owned slice. -/
def Ex.params (x : Ex) (e : BucketEnt) : Nat := x.slice e / 2

/-- Bytes filled with zeros to a multiple of 256. -/
def padTo256 (l : List Byte) : List Byte := l ++ List.replicate ((256 - l.length % 256) % 256) 0

/-- The CRC of a record covers bytes 0x00 to 0x17 and the payload (Table 9.15). -/
def ckCrc (h payload : List Byte) : Nat := crc32c (h.take 24 ++ payload)

/-- A record header (Table 9.15). -/
def ckHeader (tensor : Word) (kind fmt b off n crc : Nat) : List Byte :=
  toBytes 8 (kind * 2 ^ 56 + fmt * 2 ^ 52 + b * 2 ^ 40) ++ toBytes 8 (tensor.toNat * 2 ^ 32) ++ toBytes 8 off ++ toBytes 8 (n * 2 ^ 32 + crc)

/-- A whole record of a tensor. -/
def ckRecord (tensor : Word) (kind fmt b off : Nat) (payload : List Byte) : List Byte :=
  ckHeader tensor kind fmt b off payload.length (ckCrc (ckHeader tensor kind fmt b off payload.length 0) payload) ++ payload

/-- A whole record; which tensor id it carries the spec does not say: a free value (log entry 22). -/
def ckBytes (kind fmt b off : Nat) (payload : List Byte) : List Byte := ckRecord (Config.ckTensor b kind) kind fmt b off payload

/-- The records of one bucket; none where its state cannot be read. -/
def State.bucketRecords (s : State) (x : Ex) (e : BucketEnt) (b : Nat) : State × Option (List (List Byte)) :=
  let ps := stateParts (x.params e) (65536 * e.state64)
  let step (a : State × Option (List (List Byte))) (p : CkPart) : State × Option (List (List Byte)) :=
    match a.2, a.1.read agentSeq (e.state + p.off) p.len with
    | some l, (s1, .ok d) => (s1, some (l ++ [ckBytes p.kind p.fmt b p.off d]))
    | _, (s1, _) => (s1, none)
  let r := ps.foldl step (s, some [])
  if !s.fallBack then r
  else match r.2, r.1.read agentSeq (x.shiftVa e) ((x.mapTiles e + 1) / 2) with
    | some l, (s1, .ok d) => (s1, some (l ++ [ckBytes 6 15 b 0 (padTo256 d)]))
    | _, (s1, _) => (s1, none)

/-- Data ring entries consumed by the steps that a checkpoint covers: those taken since belong to the step that it names
next (R318; log entry 84). -/
def Seq.committedHead (q : Seq) : Nat := (q.drHead + 2 ^ 64 - q.slotsIn - q.slotsAhead) % 2 ^ 64

/-- The checkpoint header (Table 9.14). -/
def State.ckHead (s : State) (x : Ex) (records : Nat) : List Byte :=
  let h := toBytes 8 (0x434B5054 * 2 ^ 32 + 2 ^ 16) ++ toBytes 8 s.stepNo
    ++ toBytes 8 (x.me.node.toNat * 2 ^ 48 + x.p.members.findIdx (fun m => m == x.me) * 2 ^ 32 + records)
    ++ toBytes 8 (s.fld F.NUM_LSSTAT_CLEAN * 2 ^ 48 + s.fld F.NUM_LSSTAT_SKIPS * 2 ^ 32 + s.fld F.NUM_LSCALE_LSEXP * 2 ^ 24
        + b2n s.fallBack * 2 ^ 16 + min s.seq.fbHold 65535)
    ++ toBytes 4 (s.reg .NUM_STSEEDLO 0 0).toNat ++ toBytes 4 (s.reg .NUM_STSEEDHI 0 0).toNat
    ++ toBytes 8 s.seq.committedHead ++ toBytes 8 (x.p.hcrc.toNat * 2 ^ 32) ++ List.replicate 64 0
  h ++ toBytes 8 (crc32c h)

/-- The records of a checkpoint: those of every own bucket; none where a state cannot be read. -/
def State.ckRecords (s : State) (x : Ex) : State × Option (List (List Byte)) :=
  s.seq.buckets.foldl (fun (a : State × Option (List (List Byte))) e =>
    match a.2, x.p.entry e.1 with
    | some l, some y => match a.1.bucketRecords x y e.1 with
      | (s1, some k) => (s1, some (l ++ k))
      | (s1, none) => (s1, none)
    | _, _ => (a.1, none)) (s, some [])

/-- The trailer behind records. -/
def ckTrailer (l : List (List Byte)) : List Byte := ckBytes 0xFF 0 0 l.length []

/-- The block that CKADDR names (R320). -/
structure NvmeBlock where
  sq : Nat
  cq : Nat
  sqBell : Nat
  cqBell : Nat
  depth : Nat
  ns : Nat
  lba : Nat
  lbas : Nat
deriving DecidableEq, Repr

def State.nvmeBlock (s : State) (p : Prog) : State × Option NvmeBlock :=
  match s.readWords agentSeq p.ckAddr 8 with
  | (s1, .error _) => (s1, none)
  | (s1, .ok w) =>
    (s1, some { sq := (nth 0 w 0).toNat, cq := (nth 0 w 1).toNat, sqBell := (nth 0 w 2).toNat, cqBell := (nth 0 w 3).toNat
                depth := dbits (nth 0 w 4) 63 48 + 1, ns := dbits (nth 0 w 4) 31 0, lba := (nth 0 w 5).toNat
                lbas := (nth 0 w 6).toNat })

/-- A command that SEQ gives the queue pair: a Write of whole LBAs from one on, or a Flush. -/
inductive NvmeCmd where
  | write (lba : Nat) (data : List Byte)
  | flush
deriving DecidableEq, Repr

/-- A submission queue entry (PRESUMED: its layout is NVM Express's; log entry 78): opcode, command id, namespace, PRPs, first LBA
and blocks less one. -/
def nvmeEntry (opc cid ns prp1 prp2 lba nlb : Nat) : List Byte :=
  toBytes 4 (opc + cid * 2 ^ 16) ++ toBytes 4 ns ++ List.replicate 16 0 ++ toBytes 8 prp1 ++ toBytes 8 prp2
    ++ toBytes 8 lba ++ toBytes 4 nlb ++ List.replicate 12 0

/-- The bus address of a page in BAR4 of the port behind whose window a VA lies; which page SEQ uses is a free value (R320). -/
def State.prpPage (s : State) (va : Nat) : Nat :=
  let x := s.port (if va < 0xC00000000000 then 0 else 1)
  (nth 0 x.bars 5).toNat * 2 ^ 32 + (nth 0 x.bars 4).toNat / 16 * 16 + Config.pick s.free % 2 ^ (x.bar4Log - 12) * 4096

/-- The entry of a command: a Write's PRPs are a page and a PRP list in BAR4. -/
def State.nvmeWords (s : State) (k : NvmeBlock) (c : NvmeCmd) : State × List Byte :=
  let cid := s.seq.nvmeTail
  match c with
  | .write lba d =>
    (s.drawn.drawn.emit (.nvmeWrite k.sq k.cq k.ns lba d),
     nvmeEntry 1 cid k.ns (s.prpPage k.sq) (s.drawn.prpPage k.sq) lba (d.length / 4096 - 1))
  | .flush => (s.emit (.nvmeFlush k.sq k.cq k.ns), nvmeEntry 0 cid k.ns 0 0 0 0)

/-- SEQ rings a doorbell; false where its VA cannot be written. -/
def State.nvmeBell (s : State) (va i : Nat) : State × Bool :=
  match s.write agentSeq false va (toBytes 4 i) with
  | (s1, none) => (s1.emit (.nvmeBell va i), true)
  | (s1, some _) => (s1, false)

/-- SEQ puts commands into the submission queue and rings its tail doorbell; false where a VA cannot be written. -/
def State.nvmeSubmit (s : State) (k : NvmeBlock) : List NvmeCmd → State × Bool
  | [] => s.nvmeBell k.sqBell s.seq.nvmeTail
  | c :: l =>
    let y := s.nvmeWords k c
    match y.1.write agentSeq false (k.sq + 64 * s.seq.nvmeTail) y.2 with
    | (s1, some _) => (s1, false)
    | (s1, none) => (s1.modSeq fun q => { q with nvmeTail := (q.nvmeTail + 1) % k.depth }).nvmeSubmit k l

/-- SEQ takes the completions of every command it has given out and rings the head doorbell of the completion queue; false where
the block that CKADDR names, or the doorbell, is out of reach. -/
def State.nvmeReap (s : State) (x : Ex) : State × Bool :=
  match s.nvmeBlock x.p with
  | (s1, none) => (s1, false)
  | (s1, some k) =>
    if s1.seq.nvmeHead = s1.seq.nvmeTail then (s1, true)
    else (s1.modSeq fun q => { q with nvmeHead := q.nvmeTail }).nvmeBell k.cqBell s1.seq.nvmeTail

/-- Writes of an image from an LBA on, each of at most 65,536 blocks. -/
def nvmeWrites : Nat → Nat → List Byte → List NvmeCmd
  | 0, _, _ => []
  | n + 1, lba, l => if l.isEmpty then [] else .write lba (l.take (65536 * 4096)) :: nvmeWrites n (lba + 65536) (l.drop (65536 * 4096))

/-- A checkpoint as whole LBAs of 4,096 bytes. -/
def State.ckImage (s : State) (x : Ex) (l : List (List Byte)) : List Byte :=
  let image := s.ckHead x l.length ++ l.flatten ++ ckTrailer l
  image ++ List.replicate ((4096 - image.length % 4096) % 4096) 0

/-- With CKTGT = 1 a checkpoint begins with a Write of every LBA but the first, which holds the header, and a Flush (R318,
R320; log entry 78); false where the block or a state is unreadable or the LBAs do not hold the checkpoint. -/
def State.nvmeBegin (s : State) (x : Ex) : State × Bool :=
  match s.nvmeBlock x.p with
  | (s1, none) => (s1, false)
  | (s1, some k) => match s1.ckRecords x with
    | (s2, none) => (s2, false)
    | (s2, some l) =>
      let img := s2.ckImage x l
      if 4096 * k.lbas < img.length then (s2, false)
      else s2.nvmeSubmit k (nvmeWrites img.length (k.lba + 1) (img.drop 4096) ++ [.flush])

/-- A checkpoint begins: SEQ holds the verdict entry until its last write has completed (R318). -/
def State.startCheckpoint (s : State) (x : Ex) : State :=
  let y := if x.p.ckTgt = 1 then s.nvmeBegin x else (s, true)
  y.1.modSeq fun q => { q with ckptBusy := true, ckptBad := !y.2, ckptHead := false }

/-- Behind the Flush comes the Write of the LBA with the header; false where it cannot be given out. -/
def State.nvmeHeader (s : State) (x : Ex) : State × Bool :=
  match s.nvmeBlock x.p with
  | (s1, none) => (s1, false)
  | (s1, some k) => match s1.ckRecords x with
    | (s2, none) => (s2, false)
    | (s2, some l) => s2.nvmeSubmit k [.write k.lba ((s2.ckImage x l).take 4096)]

/-- The records of a checkpoint to memory are written, its trailer and last its header; true where every write was performed. -/
def State.saveCheckpoint (s : State) (x : Ex) : State × Bool :=
  match s.ckRecords x with
  | (s1, none) => (s1, false)
  | (s1, some l) =>
    match s1.write agentSeq false (x.p.ckAddr + 128) (l.flatten ++ ckTrailer l) with
    | (s2, some _) => (s2, false)
    | (s2, none) =>
      match s2.write agentSeq false x.p.ckAddr (s2.ckHead x l.length) with
      | (s3, some _) => (s3, false)
      | (s3, none) => (s3, true)

/-! ## RESUME -/

/-- A record as read: bucket, KIND, OFFSET, payload. -/
structure CkRead where
  kind : Nat
  bucket : Nat
  off : Nat
  data : List Byte
deriving DecidableEq, Repr

/-- Read records from a VA on, up to the trailer; none where one is unreadable or a CRC fails. -/
def State.readRecords (s : State) : Nat → Nat → State × Option (List CkRead)
  | 0, _ => (s, none)
  | k + 1, va =>
    match s.read agentSeq va 32 with
    | (s1, .error _) => (s1, none)
    | (s1, .ok h) =>
      let w := toWords 4 h
      let n := dbits (nth 0 w 3) 63 32
      match s1.read agentSeq (va + 32) n with
      | (s2, .error _) => (s2, none)
      | (s2, .ok d) =>
        if ckCrc h d ≠ dbits (nth 0 w 3) 31 0 then (s2, none)
        else
          let r : CkRead := ⟨dbits (nth 0 w 0) 63 56, dbits (nth 0 w 0) 51 40, (nth 0 w 2).toNat, d⟩
          if r.kind = 0xFF then (s2, some [r])
          else match s2.readRecords k (va + 32 + n) with
            | (s3, some l) => (s3, some (r :: l))
            | (s3, none) => (s3, none)

/-- A checkpoint read and checked: its header's words and its records; none where RESUME refuses it with CKPT (R319). -/
def State.readCheckpoint (s : State) (x : Ex) (va : Nat) : State × Option (List DWord × List CkRead) :=
  match s.read agentSeq va 128 with
  | (s1, .error _) => (s1, none)
  | (s1, .ok h) =>
    let w := toWords 16 h
    if dbits (nth 0 w 0) 63 32 ≠ 0x434B5054 ∨ dbits (nth 0 w 0) 31 16 ≠ 1 ∨ dbits (nth 0 w 15) 31 0 ≠ crc32c (h.take 0x78)
        ∨ dbits (nth 0 w 6) 63 32 ≠ x.p.hcrc.toNat ∨ dbits (nth 0 w 2) 63 48 ≠ x.me.node.toNat then (s1, none)
    else
      let n := dbits (nth 0 w 2) 31 0
      match s1.readRecords (n + 1) (va + 128) with
      | (s2, none) => (s2, none)
      | (s2, some l) =>
        match l.getLast? with
        | some t => if t.kind = 0xFF ∧ t.off = n ∧ l.length = n + 1 then (s2, some (w, l.dropLast)) else (s2, none)
        | none => (s2, none)

/-- One record goes back where it belongs. -/
def State.restoreRecord (s : State) (x : Ex) (r : CkRead) : State :=
  match x.p.entry r.bucket with
  | none => s
  | some e =>
    if r.kind = 6 then s.put agentSeq (x.shiftVa e) (r.data.take ((x.mapTiles e + 1) / 2))
    else s.put agentSeq (e.state + r.off) r.data

/-- The master weight hi + c × u (R118). -/
def masterNum (hi : Nat) (c : Byte) : Num :=
  let ex := hi / 512 % 64
  let k : Int := (if ex = 0 then -39 else (ex : Int) - 40) - 8
  let cv := signed 8 c.toNat
  ((b16Val (BitVec.ofNat 16 hi)).add (.fin (decide (cv < 0)) cv.natAbs k)).1

/-- Encode one tile of 1,024 values into F8 with coarse scale 1.0 (R56, R121): codes and exponent bytes; padding outside `edge`
gets zero codes (R46). -/
def encodeTileF8 (edge : Nat × Nat) (xs : List Num) : List Byte × List Byte :=
  let num (i : Nat) : Option (Num × Rnd) :=
    if i / 32 < edge.1 ∧ i % 32 < edge.2 then some (xs.getD i (.fin false 0 0), .rne) else none
  let bs := (List.range 16).map fun j => encodeBlock false 0x3F800000
    ((List.range 64).map fun i => num ((j / 4 * 8 + i / 8) * 32 + j % 4 * 8 + i % 8))
  ((List.range 1024).map fun i => match bs[i / 32 / 8 * 4 + i % 32 / 8]? with
    | some y => y.codes.getD (i / 32 % 8 * 8 + i % 8) 0
    | none => 0, bs.map (·.ex))

/-- The class of weights is promoted to B16: class 0 in the reference programs (R104, R121; log entry 97). -/
def State.weightsWide (s : State) : Bool := (s.fld F.NUM_CLASSFMT_B16).testBit 0

/-- Write the F8 codes and the scale plane of an owned slice. -/
def State.putF8 (s : State) (x : Ex) (e : BucketEnt) (xs : List Num) : State :=
  let ts := (List.range (xs.length / 1024)).map fun t =>
    encodeTileF8 (Config.edge (x.wwVa e false + 1024 * t)) ((xs.drop (1024 * t)).take 1024)
  (s.put agentSeq (x.wwVa e false) (ts.flatMap (·.1))).put agentSeq (e.wwsp + x.idx * (x.slice e / 128)) (ts.flatMap (·.2))

/-- Encode the working weights of an owned slice from its masters, write them and give them to the group (R318, R121). -/
def State.encodeWeights (s : State) (x : Ex) (e : BucketEnt) (b : Nat) (step : Word) : State :=
  let np := x.params e
  match s.read agentSeq e.state (2 * np), (s.read agentSeq (e.state + 2 * np) np).2 with
  | (s1, .ok hi), .ok c =>
    let xs := ((codesOf np 2 hi).zip c).map fun v => masterNum v.1 v.2
    let wide := s1.weightsWide
    let s2 := if wide then s1.put agentSeq (x.wwVa e true) (xs.flatMap fun v => toBytes 2 (toB16 .rne v).1.toNat)
      else s1.putF8 x e xs
    let s3 := s2.modSeq fun q => { q with commitAt := Sparse.put q.commitAt b step }
    (s3.gatherOut x e b step wide).checkGathered x b
  | (s1, _), _ => s1

/-- Every working weight of the owned slices, before the first step that RESUME runs. -/
def State.encodeAll (s : State) (x : Ex) : State :=
  s.eachBucket fun s b => match x.p.entry b with
    | some e => s.encodeWeights x e b (BitVec.ofNat 32 s.stepNo - 1)
    | none => s

end Sys2Proof.Machine
end

