-- ==== Sys2Proof/Machine/Queues.lean ====
section
/-! DEFINITION. What the queue pairs' descriptors share (spec/12): their checks (Table 12.8, R399), the order in which they
start (R388, R389), and how they finish. -/

namespace Sys2Proof.Machine

/-! ## A descriptor's fields (Table 12.3) -/

def descOp (w : List DWord) : Nat := dbits (nth 0 w 0) 63 56
def descOrder (w : List DWord) : Bool := dbit (nth 0 w 0) 55
def descSb (w : List DWord) : Bool := dbit (nth 0 w 0) 54
def descTag (w : List DWord) : Nat := dbits (nth 0 w 0) 31 0

def zeroWords (w : List DWord) (l : List Nat) : Bool := l.all fun i => nth 0 w i == 0

/-- Check 2 of Table 12.8: a non-zero RSVD field, DIES or RING zero, MARK ADDR misaligned. -/
def descMalformed (abi : Nat) (w : List DWord) : Bool :=
  let w0 := nth 0 w 0
  match descOp w with
  | 0 => dbits w0 53 32 != 0
  | 1 =>
    if abi = 2 then
      dbits w0 52 32 != 0 || dbits (nth 0 w 2) 63 48 != 0 || dbits (nth 0 w 3) 31 0 != 0 || !zeroWords w [4, 5, 6, 7]
    else dbits w0 44 32 != 0 || !zeroWords w [6, 7]
  | 2 => dbits w0 45 32 != 0 || !zeroWords w [2, 3, 4, 5, 6, 7] || dbits w0 53 48 == 0 || dbits w0 47 46 == 0
  | 3 => dbits w0 53 40 != 0 || !zeroWords w [4, 5, 6, 7] || (dbits w0 39 32 != 0x0A && !zeroWords w [2, 3])
  | _ => dbits w0 53 32 != 0 || !zeroWords w [3, 4, 5, 6, 7] || dbits (nth 0 w 1) 2 0 != 0

/-- The status of Table 12.8 with which a descriptor completes at once; none where it passes the checks. -/
def State.descCheck (s : State) (abi : Nat) (w : List DWord) : Option Nat :=
  if 4 < descOp w ∨ (abi = 2 ∧ descOp w = 2) then some 0x10
  else if descMalformed abi w then some 0x02
  else if s.safe && descOp w == 2 then some 0x0D
  else none

/-! ## Starting and finishing -/

/-- Entries of a ring by its log2. -/
def State.sqSize (s : State) (p q : Nat) : Nat := 2 ^ s.fld F.HIF_QCTL_SQLOG p q
def State.cqSize (s : State) (p q : Nat) : Nat := 2 ^ s.fld F.HIF_QCTL_CQLOG p q

/-- The completion ring is full (R389). -/
def State.cqFull (s : State) (p q : Nat) : Bool :=
  let x := s.pair p q
  (x.cqTail + 1) % s.cqSize p q == x.cqHead

/-- The fetched descriptor `i` of a pair (by its fetch number), where it may start now: earlier ones have started, and for
ORDER and MARK have completed; the completion ring has room. -/
def State.startable (s : State) (p q i : Nat) : Option Fetched :=
  let x := s.pair p q
  match x.fetched.find? fun f => f.id == i with
  | none => none
  | some f =>
    let earlier := x.fetched.filter fun g => decide (g.id < i)
    if f.started || !earlier.all (·.started) || ((descOrder f.words || descOp f.words == 4) && !earlier.isEmpty) || s.cqFull p q
        || !s.powered then none
    else some f

def State.modFetched (s : State) (p q i : Nat) (f : Fetched → Fetched) : State :=
  s.modPair p q fun x => { x with fetched := x.fetched.map fun y => if y.id = i then f y else y }

/-- A descriptor starts. -/
def State.started (s : State) (p q i : Nat) : State := s.modFetched p q i fun f => { f with started := true }

/-- A descriptor has finished and holds its result until its entry is written. -/
def State.finished (s : State) (p q i status : Nat) (flags : BitVec 4) (val cnt : Word) : State :=
  s.modFetched p q i fun f => { f with started := true, finished := true, status := status, flags := flags, val := val, cnt := cnt }

/-- Start descriptor `i` of a pair where it has an OP: it finishes at once where a check of Table 12.8 fails. -/
def State.startDesc (s : State) (p q i op : Nat) (f : State → Fetched → State) : State :=
  match s.startable p q i with
  | none => s
  | some d =>
    if descOp d.words ≠ op then s
    else match s.descCheck (s.pair p q).abi d.words with
      | some st => s.finished p q i st 0 0 0
      | none => f (s.started p q i) d

/-- The read-back of a pair's MARK returns (R261, R262). -/
def State.markRead (s : State) (p q status : Nat) (pf other : Bool) : State :=
  match (s.pair p q).fetched.find? fun f => f.started && !f.finished && descOp f.words == 4 with
  | some f => s.finished p q f.id (if status ≠ 0 then 0x07 else if pf then 0x0B else if other then 0x05 else 0) 0 0 0
  | none => s

end Sys2Proof.Machine
end

