-- ==== Sys2Proof/Machine/SeqPump.lean ====
section
/-! DEFINITION. SEQ as a whole: the member barrier (R306), the rules by which it goes on, what reaches it from the dies and
from other members, and the beginning and end of a run (R313). -/

namespace Sys2Proof.Machine

/-! ## The boundary of a step (R296) -/

/-- The boundary of a step (R296): snapshot and crush counts, loss-scale rules, the blotter's evaluation
(log entry 76), status block, a checkpoint due; then the
next step, or PAUSED. -/
def State.boundary (s : State) (x : Ex) : State :=
  let n := s.stepNo
  let next := BitVec.ofNat 32 (n + 1)
  let y := s.snapshotFlags
  let s := (y.2.modSeq fun q => { q with flags := y.1 }).takeCrush
  let s := s.applyPending
  let s := if s.seq.skipped then s.skippedScale else s.sealedScale x
  let s := s.fallBackRules.evaluateBlotter
  let stall := s.seq.skipped && decide (16 ≤ s.seq.floorSkips)
  let s := if stall then (s.modSeq fun q => { q with floorSkips := 0 }).event EV.numstall n else s
  let s := s.writeStatus
  let due := s.seq.ckptReq || (x.p.ckEvery != 0 && (n + 1) % x.p.ckEvery == 0)
  let stop := !s.seq.goesAhead x.p
  let s := s.modSeq fun q => { q with
    ckptReq := false, firstStep := false, stepsRun := q.stepsRun + 1 }
  let s := s.modSeq fun q => if q.ahead then q else q.nextPasses
  let s := s.boundaryTest.beginStep x next
  let s := if due then s.startCheckpoint x else s
  if stall then s.halt HC.numstall x.me.node
  else if stop then ((s.setSeqState SQ.paused).modSeq fun q => { q with pauseReq := false }).writeStatus
  else s

/-! ## The member barrier (R306) -/

/-- The barrier's id: the low byte of the first step (DESIGN CHOICE, log entry 23). -/
def State.barrierPacket (s : State) (dst : BitVec 16) (arg : Nat) : Packet :=
  { Packet.blank PT.barrier dst.toNat s.node with tag := BitVec.ofNat 16 (s.stepNo % 256), addr := ctlAddr s.stepNo arg }

/-- The run proper begins: the first step, behind RESUME with the working weights encoded and gathered (R24, R318). -/
def State.runBegins (s : State) (x : Ex) (u : BarUse) : State :=
  let s := s.modSeq fun q => { q.rewind with
    barrier := none, barArrived := [], barSent := false, firstStep := true, zeroLeft := 0, dataWait := false }
  let s := s.beginStep x (BitVec.ofNat 32 s.stepNo)
  match u with
  | .start => s
  | .retry => s.zeroGrads x
  | .resume => ((s.zeroGrads x).modSeq fun q => { q with resumeHold := !q.buckets.isEmpty }).encodeAll x

/-- The next thing the barrier does: ARRIVE to the parent, or RELEASE down the tree. An HM member is not in the tree. -/
def State.barrierRule (s : State) (x : Ex) (u : BarUse) : Option State :=
  let kids := x.p.children x.me.node
  if x.me.hm then some (s.runBegins x u)
  else if s.seq.barSent || !kids.all s.seq.barArrived.contains then none
  else match x.p.parent x.me.node with
    | some n => some ((s.modSeq fun q => { q with barSent := true }).send (s.barrierPacket n 1))
    | none => some ((kids.foldl (fun s n => s.send (s.barrierPacket n 2)) s).runBegins x u)

/-! ## Rules -/

/-- Every own bucket is gathered for the step before the one in hand. -/
def State.weightsThere (s : State) : Bool :=
  s.seq.buckets.all fun e => Sparse.find s.seq.gateAt e.1 == some (BitVec.ofNat 32 s.stepNo - 1)

/-- The next thing a running step does: its passes, its buckets, its verdict, its updates, its boundary. -/
def State.runRule (s : State) (x : Ex) : Option State :=
  if s.seq.resumeHold && s.weightsThere then some (s.modSeq fun q => { q with resumeHold := false })
  else match s.passRule x.p with
    | some t => some t
    | none => match s.seq.buckets.findSome? fun e => s.bucketRule x e.1 with
      | some t => some t
      | none => match s.verdictRule x with
        | some t => some t
        | none => match s.updateRule x with
          | some t => some t
          | none => if s.stepOver then some (s.boundary x) else none

/-- The next thing SEQ does of itself while it runs; none where it waits. A fault of the passes in hand that is owed comes
first, once their step has begun (R297). -/
def State.seqRule (s : State) : Option State :=
  if !s.isRunning then none
  else match s.ex with
    | none => none
    | some x => match s.seq.barrier, s.seq.owedFault with
      | some u, _ => s.barrierRule x u
      | none, some r =>
        if s.seq.applied then s.runRule x else some ((s.modSeq fun q => { q with owedFault := none }).seqFault r)
      | none, none => s.runRule x

/-- SEQ goes on as far as it can. -/
def State.pumpN : Nat → State → State
  | 0, s => s
  | k + 1, s => match s.seqRule with
    | none => s
    | some t => t.pumpN k

/-- A bound on what SEQ does within one command; what is left it does at the next one. -/
def pumpBound : Nat := 65536

/-- A contribution of this device to an owner for a bucket waits for credit on a link (R251). -/
def State.contribQueued (s : State) (x : Ex) (dst : BitVec 16) (b : Nat) : Bool :=
  match x.p.entry b with
  | none => false
  | some e => s.net.links.any fun l => l.outQ.any fun p =>
      p.ptype == PT.contrib && p.dst == dst && p.src.toNat == s.node && x.stages.any fun st =>
        decide (x.dst e st ≤ 16 * p.addr.toNat ∧ 16 * p.addr.toNat < x.dst e st + x.partLen e st)

/-- STOPs whose contributions have all left are answered with DRAINED (R305). -/
def State.answerStops (s : State) : State :=
  match s.ex with
  | none => s
  | some x => s.seq.stops.foldl (fun s t =>
      if s.contribQueued x t.1 t.2.1 then s
      else (s.modSeq fun q => { q with stops := q.stops.erase t }).hmRecord x.p
        (0xF1 * 2 ^ 56 + t.2.1 % 4096 * 2 ^ 44 + t.2.2.toNat) (s.node * 2 ^ 48 + t.1.toNat * 2 ^ 32)) s

/-- SEQ's own writes may have met the last free entry of the error ring: the device is then in the safe state (R332). -/
def State.pump (s : State) : State :=
  if s.saf.overflow && !s.safe then s.enterSafe 0x11
  else if s.isRunning then (s.pumpN pumpBound).answerStops
  else s

/-! ## Records of SEQ's MSE commands -/

/-- The words of the FILL that zeroes a bucket's gradient. -/
def zeroWords_ (e : BucketEnt) : List DWord := mseWords 0x04 0 2 0 (e.size / 2048) 0 e.grad noAddr noAddr 0 false

/-- A die gives SEQ the record of a command with a tag. -/
def State.seqMseRecord (s : State) (t : SeqTag) (y : DieRec) : State :=
  match s.ex with
  | none => s
  | some x =>
    if !s.inStep then s
    else match t with
      | .openR b st => s.rangeRecord b st .opening y fun s l => s.rangeOpened x b st l
      | .clearR b st => s.rangeRecord b st .clearing y fun s _ => s.rangeCleared x b st
      | .finishR b st => s.rangeRecord b st .finishing y fun s l => s.rangeFinished x b st l
      | .closeR b st => s.rangeRecord b st .closing y fun s _ => s.rangeClosed x b st
      | .zero b =>
        if y.status = 0 ∨ y.status = 1 then s.modSeq fun q => { q with zeroLeft := q.zeroLeft - 1 }
        else match x.p.entry b with
          | some e => s.seqMseOne y.die (zeroWords_ e) (.zero b)
          | none => s
      | .copyState b => s.copyRecord x b true y
      | .copyWw b => s.copyRecord x b false y
      | .gather _ _ | .shifts _ _ => s

/-! ## Completion counters (R308) -/

/-- An increment of a die reaches SEQ; a FAULT in its OR is acted on at once. -/
def State.counterStep (s : State) (x : Ex) (k : Counter) (die status : Nat) : State :=
  let left := k.left.filter fun e => e.1 != die
  let st := k.status ||| status
  let s := s.modSeq fun q => { q with
    counters := if left.isEmpty then q.counters.erase k
      else q.counters.map fun c => if c = k then { k with left := left, status := st } else c }
  match k.use with
  | .update b => if left.isEmpty then s.updateDone x b st else s
  | use =>
    if status.testBit 2 then s.seqFault retCompute
    else if left.isEmpty then s.passDone use st
    else s

/-! ## Verdict, messages and losses -/

/-- An UP of a child, or of an HM member (R289); one of another round is discarded. -/
def State.upFrom (s : State) (n : BitVec 16) (step : Word) (v : Verdict) : State :=
  if s.seq.prog.isNone || ((BitVec.ofNat 32 s.stepNo) == step && v.round != s.seq.round % 65536) then s
  else s.modSeq fun q => { q with
    ups := (step, v.round, n, v) :: q.ups.filter fun u => !(u.1 == step && u.2.1 == v.round && u.2.2.1 == n) }

/-- The released verdict from the parent. -/
def State.downFrom (s : State) (n : BitVec 16) (step : Word) (v : Verdict) : State :=
  match s.ex with
  | none => s
  | some x =>
    if s.isRunning && x.upTo == some n && BitVec.ofNat 32 s.stepNo == step && v.round == s.seq.round % 65536
        && s.seq.entered && !s.seq.applied then s.releaseDown x v
    else s

/-- The UP of a member amended after its entry (R292): it carries FAULT. -/
def Seq.amend (q : Seq) : Seq :=
  if q.entered && !q.applied then { q with faultFlag := true, own := q.own.map fun v => { v with fault := true } } else q

/-- REPLAYING reaches a member of the replica: it replays, from the start again where a member has faulted anew. The step
leader hears of each fault itself; another member that has replayed in the step already cannot tell such a message from the one
repeated every 500 ms, so whether it starts again is a free choice (R300; log entry 100). -/
def State.replayOrder (s : State) (x : Ex) (leader : Bool) : State :=
  if s.seq.applied then s
  else if leader || s.seq.replays == 0 then s.replayHere x retCompute
  else if Config.choice s.free then s.drawn.replayHere x retCompute
  else s.drawn

/-- REPLAYING (R300): it goes down the tree, the step leader keeps announcing it, and a member of the replica replays. -/
def State.replayingFrom (s : State) (n : BitVec 16) (replica : BitVec 16) : State :=
  match s.ex with
  | none => s
  | some x =>
    let leader := x.p.stepLeader == x.me.node
    if !s.isRunning || !(leader || x.p.parent x.me.node == some n) then s
    else
      let s := if leader then (if s.seq.applied then s else s.announceReplay x replica)
        else s.messageDown x.p msgReplaying replica.toNat
      if replica == x.me.replica then s.replayOrder x leader else s

/-- HALTSTEP (R303): the step leader sends it down the tree, and every member halts. -/
def State.haltstepFrom (s : State) (n : BitVec 16) (arg : Nat) : State :=
  match s.ex with
  | none => s
  | some x =>
    let leader := x.p.stepLeader == x.me.node
    let now := some (BitVec.ofNat 32 s.stepNo)
    let s := if (leader || x.p.parent x.me.node == some n) && s.seq.haltSent != now then
        (s.messageDown x.p msgHaltstep arg).modSeq fun q => { q with haltSent := now }
      else s
    s.haltHere (arg % 256) (BitVec.ofNat 16 (arg / 256))

/-- GATHERED (R295). -/
def State.gatheredFrom (s : State) (n : BitVec 16) (arg : Nat) : State :=
  match s.ex with
  | none => s
  | some x =>
    let e := (arg % 4096, arg / 4096 % 2 ^ 28, n)
    (s.modSeq fun q => { q with gatherIn := if q.gatherIn.contains e then q.gatherIn else q.gatherIn ++ [e] }).checkGathered x (arg % 4096)

/-- The own part that a lost contribution belongs to: bucket and stage. -/
def State.partOf (s : State) (x : Ex) (p : Packet) : Option (Nat × Part) :=
  s.seq.buckets.findSome? fun e =>
    match x.p.entry e.1 with
    | none => none
    | some y => (e.2.parts.find? fun t =>
        t.dst == p.dst && decide (x.dst y t.st ≤ 16 * p.addr.toNat ∧ 16 * p.addr.toNat < x.dst y t.st + x.partLen y t.st)).map
          fun t => (e.1, t)

/-- The payload of a control packet sent once more (R302): the verdict it carried; of a RESEND, the epoch as it now stands. -/
def State.ctlPayload (s : State) (x : Ex) (p : Packet) : List Byte :=
  if p.ptype = PT.seal then
    match s.seq.sentSeals.find? fun e => e.1 == p.dst && e.2.1 == p.arg && e.2.2.1 == p.step with
    | some e => if p.arg = 1 then [] else e.2.2.2.bytes
    | none => []
  else if p.ptype = PT.resend then
    match s.bucket p.tag.toNat with
    | some k =>
      let r := k.r (x.stageOf p.dst)
      toBytes 2 r.epoch ++ toBytes 2 r.retractor.toNat ++ List.replicate 12 0
    | none => List.replicate 16 0
  else []

/-- A LOST notice for a contribution or a control packet of SEQ's (R302). -/
def State.seqLost (s : State) (p : Packet) : State :=
  match s.ex with
  | none => s
  | some x =>
    if p.ptype = PT.contrib then
      if !s.inStep then s
      else match s.partOf x p with
      | none => s
      | some (b, t) => match s.bucket b with
        | none => s
        | some k =>
          if s.seq.applied then s
          else if k.lost.contains t.dst then s.halt HC.linkloss t.dst
          else
            let s := s.setBucket b { k.setPart { t with clean := false } with lost := k.lost ++ [t.dst] }
            (s.modSeq Seq.amend).control x.p PT.retract t.dst b 1 [] s.stepNo 0
    else if p.ptype = PT.seal ∨ p.ptype = PT.retract ∨ p.ptype = PT.resend ∨ p.ptype = PT.barrier ∨ p.ptype = PT.message then
      let key := (BitVec.ofNat 64 (p.ptype.toNat * 2 ^ 32 + p.dst.toNat * 2 ^ 16 + p.tag.toNat), BitVec.ofNat 64 p.addr.toNat)
      if s.seq.lostCtl.contains key then s.halt HC.linkloss p.dst
      else
        let pay := s.ctlPayload x p
        (s.modSeq fun q => { q with lostCtl := q.lostCtl ++ [key] }).send
          { p with hops := 0, via := 0, nm := false, gsel := 0, len := BitVec.ofNat 6 (pay.length / 16), payload := pay }
    else s

/-! ## The beginning and the end of a run (R313) -/

/-- SEQ leaves what it had in hand: it takes its commands back from ring 0 of the dies where they have not started (log entry
101), the ranges it opened are closed, and a checkpoint under way has failed (R318). -/
def State.leaveRun (s : State) : State :=
  let s := if s.seq.ckptBusy then s.event EV.ckptfail s.stepNo else s
  let drop (s : State) (k : Nat) : State :=
    let s := s.seqTakeBack k
    let s := s.modMse k fun m => { m with
      done := m.done.filter fun e => match e.2.issuer with | .seq _ => false | _ => true }
    if (s.mse k).done.isEmpty then s.setFld F.MSE_STAT_RBUSY 0 k else s
  let s := (List.range 6).foldl drop s
  let s := s.modDma seqChannel fun d => { d with seqQ := [] }
  let s := match s.ex with
    | none => s
    | some x => s.eachBucket fun s b => match s.bucket b, x.p.entry b with
      | some k, some e => x.stages.foldl (fun s st =>
          match (k.r st).phase with
          | .closed | .finished | .waiting => s
          | _ => s.seqMse (mseWords 0x13 0 0 0 0 0 (x.dst e st) noAddr noAddr 0 false) (.closeR b st)) s
      | _, _ => s
  s.modSeq fun q => { q.rewind with
    buckets := [], zeroLeft := 0, gathers := [], barrier := none, barSent := false, announce := [], stops := [], ckptBusy := false, ckptHead := false
    ckptReq := false, pauseReq := false, resumeHold := false, entered := false, own := none, applied := false }

/-- The input slots of the halted step: where the passes in hand are those of the step after it, its inputs are in the
other half of the input area, and the slots taken since then wait for their step (R315). -/
def Seq.heldInputs (q : Seq) (p : Prog) : Seq :=
  if q.ahead then { q with half := !q.half, slotsAhead := q.slotsIn, slotsIn := p.nmb } else q

/-- A gate or commit of the halted step is taken back. -/
def beforeStep (n : Word) (l : List (Nat × Word)) : List (Nat × Word) := l.map fun e => if e.2 = n then (e.1, n - 1) else e

/-- SEQ leaves a halted step to run it again: it keeps the step's inputs and what it still owes the other members for the
step before, and nothing counts as gathered for the halted step (R29, R295, R313; log entry 83). -/
def State.leaveForRetry (s : State) (p : Prog) : State :=
  let n := BitVec.ofNat 32 s.stepNo
  let owed := s.seq.gathers.filter fun g => g.step != n
  let wanted (t : Issuer) : Bool := match t with
    | .seq (.gather b m) | .seq (.shifts b m) => owed.any fun g => g.bucket == b && g.node == m
    | _ => false
  let t := (s.modSeq fun q => q.heldInputs p).leaveRun
  let t := t.modDma seqChannel fun d => { d with seqQ := (s.dma seqChannel).seqQ.filter fun e => wanted e.2 }
  t.modSeq fun q => { q with
    gathers := owed, gateAt := beforeStep n q.gateAt, commitAt := beforeStep n q.commitAt
    gatherIn := q.gatherIn.filter fun e => e.2.1 != n.toNat % 2 ^ 28 }

/-- A run begins behind the member barrier: RUNNING at once, every core's instruction cache invalid (R204; a RESUME and a
RETRY too, log entry 15). -/
def State.enterRun (s : State) (u : BarUse) (step : Word) : State :=
  let s := { s with cores := s.cores.map fun (k : Core) => { k with icache := [] } }
  let s := (s.setSeqState SQ.running).setFld F.SEQ_STATE_CAUSE 0
  let s := s.setReg .SEQ_STEP 0 0 step
  (s.modSeq fun q => { q with
    barrier := some u, barSent := false, cnode := 0, resumeHold := q.resumeHold || u == .resume }).writeStatus

end Sys2Proof.Machine
end

