-- ==== Sys2Proof/Machine/Blotter.lean ====
section
/-! DEFINITION. The disagreement of a narrow result with its wide reference (R126, R128), and rounding modes by their code
(Table 2.11). -/

namespace Sys2Proof.Machine

/-- The rounding mode of a code, with the stipple bits of SR. -/
def rndOf (code u : Nat) : Rnd :=
  match code with
  | 0 => .rne
  | 1 => .ro
  | 2 => .rtz
  | _ => .sr u

/-- floor(−log2 (x / y)) of two positive magnitudes, from 0 to 31. -/
def ratioBin (x y : Nat × Int) : Nat :=
  (((List.range 32).filter fun (b : Nat) => !magLt y.1 y.2 x.1 (x.2 + b)).getLast?).getD 0

/-- Magnitude of a finite number. -/
def Num.mag : Num → Nat × Int
  | .fin _ m e => (m, e)
  | _ => (0, 0)

/-- The bin of the largest |D − w| / max(|w|, f) over a tile, f being 2^-10 of the largest |w| or 2^-126; none where any D
or w is not finite. -/
def disagreement (ds ws : List Num) : Option Nat :=
  if (ds ++ ws).any fun x => !x.isFin then none
  else
    let top := ws.foldl (fun a w => magMax a w.mag) (0, 0)
    let f : Nat × Int := if top.1 = 0 then (1, -126) else (top.1, top.2 - 10)
    some (((ds.zip ws).map fun p =>
      let diff := (p.1.add p.2.neg).1.mag
      if diff.1 = 0 then 31 else ratioBin diff (magMax p.2.mag f)).foldl min 31)

end Sys2Proof.Machine
end

