-- ==== Sys2Proof/Machine/Matrix.lean ====
section
/-! DEFINITION. The matrix engines (spec/03): descriptor checks (Table 3.6), operands in the skewed layout (R71, R168), the
arithmetic of R73 to R76 and R84, banks (R97), checking and recomputation (R87 to R93), records (R99), sampling (R125). -/

namespace Sys2Proof.Machine

/-! ## Tile descriptors (Table 3.5) -/

/-- The fields of a tile descriptor. -/
structure TileDesc where
  op : Nat
  afmt : Nat
  bfmt : Nat
  cfmt : Nat
  dfmt : Nat
  rnd : Nat
  bank : Bool
  accm : Bool
  drain : Bool
  part : Nat
  batch : Nat
  stream : Nat
  m : Nat
  n : Nat
  k : Nat
  tensor : Word
  draw : Word
  alpha : Word
  beta : Word
  acoarse : Word
  bcoarse : Word
  a : Nat
  b : Nat
  c : Nat
  d : Nat
  asp : Nat
  bsp : Nat
  cpl : Nat
  rsvd : Bool
deriving DecidableEq, Repr

def readDesc (w : List DWord) : TileDesc :=
  let f (i hi lo : Nat) : Nat := dbits (nth 0 w i) hi lo
  { op := f 0 63 56, afmt := f 0 55 52, bfmt := f 0 51 48, cfmt := f 0 47 44, dfmt := f 0 43 40, rnd := f 0 39 38
    bank := f 0 37 37 == 1, accm := f 0 36 36 == 1, drain := f 0 35 35 == 1, part := f 0 34 32, batch := f 0 31 16 + 1
    stream := f 0 15 0, m := f 1 63 48, n := f 1 47 32, k := f 1 31 16
    tensor := BitVec.ofNat 32 (f 2 63 32), draw := BitVec.ofNat 32 (f 2 31 0)
    alpha := BitVec.ofNat 32 (f 3 63 32), beta := BitVec.ofNat 32 (f 3 31 0)
    acoarse := BitVec.ofNat 32 (f 4 63 32), bcoarse := BitVec.ofNat 32 (f 4 31 0)
    a := 512 * f 5 63 49, b := 512 * f 5 48 34, c := 512 * f 5 33 19, d := 512 * f 5 18 4
    asp := f 6 63 48, bsp := f 6 47 32, cpl := 16 * f 6 31 12
    rsvd := f 1 15 0 != 0 || f 5 3 0 != 0 || f 6 11 0 != 0 }

/-! ## Formats, tiles and the skewed layout (R44, R168) -/

/-- Bytes of an element row of a tile in a format of Table 3.7. -/
def fmtRow (f : Nat) : Nat :=
  match f with
  | 0 => 32 | 1 => 16 | 2 => 64 | _ => 128

def fmtTile (f : Nat) : Nat := 32 * fmtRow f

def isNarrow (f : Nat) : Bool := f == 0 || f == 1

/-- Tiles that cover `n` rows or columns. -/
def tilesOf (n : Nat) : Nat := (n + 31) / 32

/-- The address of byte `b` of row `x` of a strip whose rows have `rb` bytes. Where `rb` is no multiple of 32 the whole
32-byte units rotate and the last half stays (log entry 20). -/
def skewAddr (strip rb x b : Nat) : Nat :=
  let u := rb / 32
  if 32 * u ≤ b then strip + x * rb + b else strip + x * rb + (b / 32 + x) % u * 32 + b % 32

/-- The code of element `y` of a row whose bytes a function gives. -/
def codeAt (f y : Nat) (byte : Nat → Byte) : Nat :=
  match f with
  | 0 => (byte y).toNat
  | 1 => (byte (y / 2)).toNat / 16 ^ (y % 2) % 16
  | 2 => (byte (2 * y)).toNat + 256 * (byte (2 * y + 1)).toNat
  | _ => ofBytes ((List.range 4).map fun i => byte (4 * y + i))

/-- The stored code of element (r, y) of a skewed operand of `tc` tiles per tile row. -/
def State.skewCode (s : State) (c f base tc r y : Nat) : Nat :=
  let strip := base + r / 32 * tc * fmtTile f
  codeAt f y fun b => s.localByte c (skewAddr strip (tc * fmtRow f) (r % 32) b)

/-- The stored code of element (r, y) of a plain tensor (R11). -/
def State.plainCode (s : State) (c f base tc r y : Nat) : Nat :=
  let t := base + (r / 32 * tc + y / 32) * fmtTile f
  codeAt f (y % 32) fun b => s.localByte c (t + r % 32 * fmtRow f + b)

/-- Place of an exponent byte in a scale plane (R45). -/
def expAddr (base tc r y : Nat) : Nat := base + 16 * (r / 32 * tc + y / 32) + 4 * (r % 32 / 8) + y % 32 / 8

/-- The value of an operand element without its coarse scale; none where it belongs to no formed product (R73). -/
def operandNum (f code : Nat) (ex : Byte) : Option Num :=
  match f with
  | 2 => some (b16Val (BitVec.ofNat 16 code))
  | 0 => if ex = 0 then none else some (scaled ex (f8Val (BitVec.ofNat 8 code)))
  | _ => if ex = 0 then none else some (scaled ex (h4Val code))

/-- The value of a wide element. -/
def wideNum (f code : Nat) : Num := if f = 2 then b16Val (BitVec.ofNat 16 code) else w32Val (BitVec.ofNat 32 code)

/-! ## Shapes (Table 3.4, R81, R82) -/

def blockShape (part : Nat) (e : Eng) : Nat × Nat :=
  match part with
  | 0 => (128, match e with | .f => 256 | .b => 512)
  | 1 => (128, 128)
  | 2 => (32, 128)
  | _ => (32, 32)

/-- Sub-engines of a partition mode. -/
def subEngines (part : Nat) (e : Eng) : Nat :=
  let sh := blockShape part e
  (128 / sh.1) * ((match e with | .f => 256 | .b => 512) / sh.2)

/-- Output blocks of one entry, and block columns. -/
def TileDesc.blockCols (d : TileDesc) (e : Eng) : Nat := (d.n + (blockShape d.part e).2 - 1) / (blockShape d.part e).2
def TileDesc.perEntry (d : TileDesc) (e : Eng) : Nat :=
  (d.m + (blockShape d.part e).1 - 1) / (blockShape d.part e).1 * d.blockCols e

/-- Tiles of the operands and of D in one entry. -/
def TileDesc.aTiles (d : TileDesc) : Nat := tilesOf d.m * tilesOf d.k
def TileDesc.bTiles (d : TileDesc) : Nat := tilesOf d.k * tilesOf d.n
def TileDesc.dTiles (d : TileDesc) : Nat := tilesOf d.m * tilesOf d.n

/-! ## Checks (Table 3.6) -/

/-- β is a zero. -/
def TileDesc.noC (d : TileDesc) : Bool := d.beta.toNat % 2 ^ 31 == 0

def w32Finite (w : Word) : Bool := (w32Val w).isFin

/-- The record of the bank that an accumulating descriptor names matches it. -/
def TileDesc.bankOk (d : TileDesc) (x : Bank) : Bool :=
  !x.invalid && x.record == some { part := d.part, m := d.m, n := d.n, batchM1 := d.batch - 1 }

/-- Check 1. -/
def TileDesc.malformed (d : TileDesc) (bank : Bank) : Bool :=
  decide (2 < d.afmt) || decide (2 < d.bfmt) || ((d.afmt == 2) != (d.bfmt == 2))
    || (decide (0 < d.k) && ((isNarrow d.afmt && d.asp == 0xFFFF) || (isNarrow d.bfmt && d.bsp == 0xFFFF)))
    || (d.drain && !d.noC && d.cfmt != 2 && d.cfmt != 3)
    || (d.drain && d.dfmt != 2 && d.dfmt != 3)
    || (d.drain && d.dfmt == 3 && d.rnd != 0)
    || decide (3 < d.part) || (!d.drain && d.k % 32 != 0) || (d.accm && !d.bankOk bank)

/-- The coarse scale of an operand: 1.0 for B16 (R75). -/
def TileDesc.coarseA (d : TileDesc) : Word := if d.afmt = 2 then 0x3F800000 else d.acoarse
def TileDesc.coarseB (d : TileDesc) : Word := if d.bfmt = 2 then 0x3F800000 else d.bcoarse

/-- A product outside the normal range of W32, taken exactly (log entry 21). -/
def outsideNormal (x : Num) : Bool :=
  match x with
  | .fin _ m e => magLt m e 1 (-126) || !magLt m e 1 128 || magLt (2 ^ 24 - 1) 104 m e
  | _ => true

/-- Check 2. -/
def TileDesc.badScale (d : TileDesc) : Bool :=
  !coarseOk d.coarseA || !coarseOk d.coarseB
    || outsideNormal ((w32Val d.coarseA).mul (w32Val d.coarseB)).1
    || (d.drain && (!w32Finite d.alpha || !w32Finite d.beta))

/-- A region: first byte, bytes, and what it must be aligned to. -/
structure Region where
  lo : Nat
  n : Nat
  align : Nat
deriving DecidableEq, Repr

/-- The operand regions read, C, and the D written (R96). -/
def TileDesc.srcRegions (d : TileDesc) : List Region :=
  if d.k = 0 then []
  else
    [⟨d.a, d.batch * d.aTiles * fmtTile d.afmt, fmtTile d.afmt⟩, ⟨d.b, d.batch * d.bTiles * fmtTile d.bfmt, fmtTile d.bfmt⟩]
      ++ (if isNarrow d.afmt then [⟨256 * d.asp, 16 * d.batch * d.aTiles, 256⟩] else [])
      ++ (if isNarrow d.bfmt then [⟨256 * d.bsp, 16 * d.batch * d.bTiles, 256⟩] else [])

def TileDesc.cRegion (d : TileDesc) : List Region :=
  if d.drain && !d.noC then [⟨d.c, d.batch * d.dTiles * fmtTile d.cfmt, fmtTile d.cfmt⟩] else []

def TileDesc.dRegion (d : TileDesc) : List Region :=
  if d.drain then [⟨d.d, d.batch * d.dTiles * fmtTile d.dfmt, fmtTile d.dfmt⟩] else []

/-- A region lies wholly in local memory or wholly in the tile buffers (R71). -/
def Region.inside (r : Region) : Bool :=
  if r.lo < 0x800000 then decide (r.lo + r.n ≤ 0x800000) else decide (r.lo + r.n ≤ 0xA00000)

def Region.meets (a b : Region) : Bool := decide (a.lo < b.lo + b.n ∧ b.lo < a.lo + a.n)

/-- The first status of Table 3.6 that applies to an MMA descriptor; 0 where it executes. -/
def TileDesc.check (d : TileDesc) (bank : Bank) : Nat :=
  let all := d.srcRegions ++ d.cRegion ++ d.dRegion
  if d.op != 1 || d.rsvd || d.malformed bank then 0x02
  else if d.badScale then 0x03
  else if d.m = 0 ∨ d.n = 0 then 0x01
  else if all.any fun r => r.lo % r.align != 0 then 0x04
  else if all.any fun r => !r.inside then 0x05
  else if d.dRegion.any fun x => (d.srcRegions.any fun r => r.meets x)
      || d.cRegion.any fun r => r.meets x && !(r.lo == x.lo && r.n == x.n) then 0x06
  else 0

/-- The completion record's address lies in one of the windows (R96). -/
def TileDesc.cplOk (d : TileDesc) : Bool := decide (d.cpl < 0xA00000)

/-! ## Arithmetic (R73 to R76, R84) -/

/-- The exact sum of the products formed in a chunk; −0 only where every one of them is −0 (R74). -/
def chunkSum (ps : List (Num × Num)) : Num × Flags :=
  let r := ps.foldl (fun (a : Option Num × Flags) p =>
    let x := p.1.mul p.2
    match a.1 with
    | none => (some x.1, a.2 ||| x.2)
    | some y => let z := y.add x.1; (some z.1, a.2 ||| x.2 ||| z.2)) (none, 0)
  (r.1.getD (.fin false 0 0), r.2)

/-- The products formed for element (i, j) of entry b in chunk `ch`. -/
def State.chunkPairs (s : State) (c : Nat) (d : TileDesc) (b i j ch : Nat) : List (Num × Num) :=
  let ka := tilesOf d.k
  let nb := tilesOf d.n
  let abase := d.a + b * d.aTiles * fmtTile d.afmt
  let bbase := d.b + b * d.bTiles * fmtTile d.bfmt
  let asp := 256 * d.asp + 16 * b * d.aTiles
  let bsp := 256 * d.bsp + 16 * b * d.bTiles
  ((List.range 32).map (32 * ch + ·)).filterMap fun k =>
    if d.k ≤ k then none
    else
      let ea := if isNarrow d.afmt then s.localByte c (expAddr asp ka i k) else 1
      let eb := if isNarrow d.bfmt then s.localByte c (expAddr bsp nb k j) else 1
      match operandNum d.afmt (s.skewCode c d.afmt abase ka i k) ea, operandNum d.bfmt (s.skewCode c d.bfmt bbase nb k j) eb with
      | some x, some y => some (x, y)
      | _, _ => none

/-- The accumulator of an element after every chunk, from what it starts with (R74). -/
def State.accumulate (s : State) (c : Nat) (d : TileDesc) (b i j : Nat) (start : Word) : Word × Flags :=
  (List.range (tilesOf d.k)).foldl (fun (a : Word × Flags) ch =>
    let x := chunkSum (s.chunkPairs c d b i j ch)
    let r := toW32 .rne x.1
    let y := w32Add a.1 r.1
    (y.1, a.2 ||| x.2 ||| r.2 ||| y.2)) (start, 0)

/-- cp of R75, with its flags. -/
def TileDesc.cp (d : TileDesc) : Word × Flags := w32Mul d.coarseA d.coarseB

/-- Stage 2: v = RNE(α × r + β × C), or RNE(α × r) where β = 0. -/
def TileDesc.stage2 (d : TileDesc) (r : Word) (cv : Num) : Word × Flags :=
  let p := (w32Val d.alpha).mul (w32Val r)
  if d.noC then
    let y := toW32 .rne p.1
    (y.1, p.2 ||| y.2)
  else
    let q := (w32Val d.beta).mul cv
    let x := p.1.add q.1
    let y := toW32 .rne x.1
    (y.1, p.2 ||| q.2 ||| x.2 ||| y.2)

/-- Element index for SR (R94). -/
def TileDesc.srIndex (d : TileDesc) (b i j : Nat) : Nat := b * d.m * d.n + i * d.n + j

/-- The drain of one element (R75): the code of D and its flags. -/
def State.drainElem (s : State) (c : Nat) (d : TileDesc) (b i j : Nat) (acc : Word) : Nat × Flags :=
  let cv := wideNum d.cfmt (s.plainCode c d.cfmt (d.c + b * d.dTiles * fmtTile d.cfmt) (tilesOf d.n) i j)
  let r := w32Mul acc d.cp.1
  let v := d.stage2 r.1 cv
  if d.dfmt = 3 then (v.1.toNat, r.2 ||| v.2)
  else
    let u := if d.rnd = 3 then srBits (s.stippleAt d.stream d.tensor d.draw (d.srIndex b i j)) else 0
    let h := narrow (rndOf d.rnd u) v.1
    (h.1.toNat, r.2 ||| v.2 ||| h.2)

/-- The element of a product with K = 0 that starts afresh and drains: β × C, one rounding; a copy where β = 1 and the
formats agree; +0 where β = 0 (R84). -/
def State.betaC (s : State) (c : Nat) (d : TileDesc) (b i j : Nat) : Nat × Flags :=
  if d.noC then (0, 0)
  else
    let code := s.plainCode c d.cfmt (d.c + b * d.dTiles * fmtTile d.cfmt) (tilesOf d.n) i j
    if d.beta = 0x3F800000 ∧ d.cfmt = d.dfmt then (code, 0)
    else
      let x := (w32Val d.beta).mul (wideNum d.cfmt code)
      if d.dfmt = 3 then
        let y := toW32 .rne x.1
        (y.1.toNat, x.2 ||| y.2)
      else
        let y := toB16 .rne x.1
        (y.1.toNat, x.2 ||| y.2)

/-- Place of element (i, j) of entry b of D, and its bytes. -/
def TileDesc.dAddr (d : TileDesc) (b i j : Nat) : Nat :=
  d.d + b * d.dTiles * fmtTile d.dfmt + (i / 32 * tilesOf d.n + j / 32) * fmtTile d.dfmt + i % 32 * fmtRow d.dfmt
    + j % 32 * (fmtRow d.dfmt / 32)

def TileDesc.dBytes (d : TileDesc) (b i j code : Nat) : List (Nat × Byte) :=
  (toBytes (fmtRow d.dfmt / 32) code).zipIdx.map fun e => (d.dAddr b i j + e.2, e.1)

def accKey (b i j : Nat) : Nat := (b * 2 ^ 16 + i) * 2 ^ 16 + j

/-- Rows and columns of M × N in output block `blk` of the descriptor, with its entry. -/
def TileDesc.blockElems (d : TileDesc) (e : Eng) (blk : Nat) : Nat × List (Nat × Nat) :=
  let sh := blockShape d.part e
  let x := blk % d.perEntry e
  let r0 := x / d.blockCols e * sh.1
  let c0 := x % d.blockCols e * sh.2
  (blk / d.perEntry e,
   (List.range (min sh.1 (d.m - r0))).flatMap fun i => (List.range (min sh.2 (d.n - c0))).map fun j => (r0 + i, c0 + j))

/-- One output block: what it writes of D, its flags, and the accumulators it leaves in an undrained bank. -/
def State.mmaBlock (s : State) (c : Nat) (e : Eng) (d : TileDesc) (old : Sparse Word) (blk : Nat) : DBlock × Sparse Word :=
  let x := d.blockElems e blk
  x.2.foldl (fun (a : DBlock × Sparse Word) ij =>
    if d.k = 0 ∧ !d.accm ∧ d.drain then
      let y := s.betaC c d x.1 ij.1 ij.2
      (⟨a.1.flags ||| y.2, a.1.bytes ++ d.dBytes x.1 ij.1 ij.2 y.1⟩, a.2)
    else
      let key := accKey x.1 ij.1 ij.2
      let acc := s.accumulate c d x.1 ij.1 ij.2 (if d.accm then Sparse.get 0 old key else 0)
      if d.drain then
        let y := s.drainElem c d x.1 ij.1 ij.2 acc.1
        (⟨a.1.flags ||| acc.2 ||| y.2, a.1.bytes ++ d.dBytes x.1 ij.1 ij.2 y.1⟩, a.2)
      else (⟨a.1.flags ||| acc.2, a.1.bytes⟩, Sparse.set 0 a.2 key acc.1)) (⟨0, []⟩, [])

/-- 8 × 8 block pairs not formed in one entry (R85). -/
def State.skippedPairs (s : State) (c : Nat) (d : TileDesc) (b : Nat) : Nat :=
  let asp := 256 * d.asp + 16 * b * d.aTiles
  let bsp := 256 * d.bsp + 16 * b * d.bTiles
  ((List.range ((d.m + 7) / 8)).map fun i => ((List.range ((d.k + 7) / 8)).map fun k =>
    ((List.range ((d.n + 7) / 8)).filter fun j =>
      (isNarrow d.afmt && s.localByte c (expAddr asp (tilesOf d.k) (8 * i) (8 * k)) == 0)
        || (isNarrow d.bfmt && s.localByte c (expAddr bsp (tilesOf d.n) (8 * k) (8 * j)) == 0)).length).sum).sum

/-! ## Banks and the taking of a descriptor (R97, R98) -/

def Engine.bank (x : Engine) (b : Bool) : Bank := if b then x.bank1 else x.bank0
def Engine.setBank (x : Engine) (b : Bool) (k : Bank) : Engine := if b then { x with bank1 := k } else { x with bank0 := k }
def Engine.setCopy (x : Engine) (b : Bool) (k : Bank) : Engine := if b then { x with copy1 := k } else { x with copy0 := k }

/-- The descriptor that an engine may take now: the head of its queue, where nothing holds the engine. -/
def State.takes (s : State) (c : Nat) (e : Eng) : Option QDesc :=
  let x := s.eng c e
  if !s.coreRuns c || x.failing || !x.recomp.isEmpty then none
  else match x.queue with
    | d :: _ => if d.taken then none else some d
    | [] => none

/-- Replace the head of an engine's queue. -/
def State.setHead (s : State) (c : Nat) (e : Eng) (d : QDesc) : State :=
  s.modEng c e fun x => { x with queue := d :: x.queue.tail, up := true }

/-- The head leaves the queue; its group counts one outstanding descriptor less (R224). -/
def State.popHead (s : State) (c : Nat) (e : Eng) (g : Nat) (bad : Bool) : State :=
  let s := s.modEng c e fun x => { x with queue := x.queue.tail, failing := x.failing && !x.queue.tail.isEmpty }
  (s.descDone c g bad).wakeTissue c

/-! ## The blotter (R125 to R127) -/

/-- The registered B16 sources of a tensor id, where both are given. -/
def State.blotSources (s : State) (id : Word) : Option (Nat × Nat) :=
  match s.seq.prog with
  | none => none
  | some p => match p.tensors.find? fun t => t.id == id with
    | none => none
    | some t =>
      if t.srcA = BitVec.allOnes 64 ∨ t.srcB = BitVec.allOnes 64 then none
      else some (dbits t.srcA 47 0, dbits t.srcB 47 0)

/-- The class of a tensor id (R104). -/
def classOf (id : Word) : Nat := id.toNat / 2 ^ 29

/-- The descriptor is eligible for sampling. -/
def State.eligible (s : State) (d : TileDesc) : Bool :=
  (s.fld F.NUM_BLCTL_ENABLE).testBit (classOf d.tensor) && (isNarrow d.afmt || isNarrow d.bfmt) && d.noC && d.drain
    && (s.blotSources d.tensor).isSome

/-- Bits of the draw that must be zero: BLCTL.K from 6 to 20. -/
def State.blotK (s : State) : Nat := max 6 (min 20 (s.fld F.NUM_BLCTL_K))

/-- Tile t of entry b is sampled. -/
def State.sampled (s : State) (d : TileDesc) (b t : Nat) : Bool :=
  (s.stippleAt 0xFFFF d.tensor (BitVec.ofNat 32 s.stepNo) (b * d.dTiles + t)).x0.toNat % 2 ^ s.blotK == 0

/-- A B16 element of a plain tensor given as bytes. -/
def plainB16 (bytes : List Byte) (tc r y : Nat) : Word :=
  let o := (r / 32 * tc + y / 32) * 2048 + (r % 32 * 32 + y % 32) * 2
  (widen (BitVec.ofNat 16 (ofBytes ((bytes.drop o).take 2)))).1

/-- The wide reference of an element: fma for k ascending, then α (R126). -/
def wideRef (d : TileDesc) (a b : List Byte) (i j : Nat) : Num :=
  let acc := (List.range d.k).foldl (fun acc k =>
    (w32Fma (plainB16 a (tilesOf d.k) i k) (plainB16 b (tilesOf d.n) k j) acc).1) (0 : Word)
  w32Val (w32Mul d.alpha acc).1

/-- What the check unit will find in tile t of entry b, D having been written in `s`; none where a source is unreadable
(log entry 59). -/
def State.blotSample (s : State) (c : Nat) (d : TileDesc) (src : Nat × Nat) (b t : Nat) : Option BlotSample :=
  match (s.read c (src.1 + b * d.aTiles * 2048) (d.aTiles * 2048)).2, (s.read c (src.2 + b * d.bTiles * 2048) (d.bTiles * 2048)).2 with
  | .ok a, .ok bb =>
    let r0 := t / tilesOf d.n * 32
    let c0 := t % tilesOf d.n * 32
    let ijs := (List.range (min 32 (d.m - r0))).flatMap fun i => (List.range (min 32 (d.n - c0))).map fun j => (r0 + i, c0 + j)
    let ds := ijs.map fun ij =>
      wideNum d.dfmt (s.plainCode c d.dfmt (d.d + b * d.dTiles * fmtTile d.dfmt) (tilesOf d.n) ij.1 ij.2)
    let ws := ijs.map fun ij => wideRef d a bb ij.1 ij.2
    match disagreement ds ws with
    | some bin => some ⟨classOf d.tensor, bin, false⟩
    | none => some ⟨classOf d.tensor, 0, true⟩
  | _, _ => none

/-- A sample enters the queue of its cluster's check unit, or is dropped (R127). -/
def State.queueSample (s : State) (cl : Nat) (x : BlotSample) : State :=
  if (nth [] s.blot cl).length < 8 then { s with blot := s.blot.modify cl fun l => l ++ [x] }
  else s.count F.NUM_BLSTAT_DROPPED 1 x.cls

def State.sampleTiles (s done : State) (c : Nat) (d : TileDesc) (src : Nat × Nat) : State :=
  (List.range d.batch).foldl (fun s b => (List.range d.dTiles).foldl (fun s t =>
    if s.sampled d b t then
      match done.blotSample c d src b t with
      | some x => s.queueSample (c / 4) x
      | none => s
    else s) s) s

/-- Local bytes written. -/
def State.putLocal (s : State) (c : Nat) (l : List (Nat × Byte)) : State := l.foldl (fun s e => s.setLocalByte c e.1 e.2) s

/-! ## MMA and NOP -/

/-- What an MMA descriptor that executes leaves in its engine: its banks, and its blocks to become visible. A bank left
undrained keeps an accumulator for each element of each entry (log entry 91). -/
def State.runMma (s : State) (c : Nat) (e : Eng) (q : QDesc) (d : TileDesc) : State :=
  if d.k = 0 && !d.drain then s.setHead c e { q with taken := true }
  else
    let bank := (s.eng c e).bank d.bank
    let outs := (List.range (d.batch * d.perEntry e)).map fun blk => s.mmaBlock c e d bank.acc blk
    let kept := outs.foldl (fun m o => o.2.foldl (fun m x => Sparse.put m x.1 x.2) m) ([] : Sparse Word)
    let new : Bank := if d.drain then Bank.reset
      else { invalid := false, record := some ⟨d.part, d.m, d.n, d.batch - 1⟩, acc := kept }
    let skipped := if d.k = 0 then 0 else ((List.range d.batch).map fun b => s.skippedPairs c d b).sum
    let cpFlags : Flags := if d.drain && !(d.k == 0 && !d.accm) then d.cp.2 else 0
    let s1 := s.modEng c e fun x => (x.setCopy d.bank bank).setBank d.bank new
    let s2 := s1.setHead c e { q with
      taken := true, flags := cpFlags, skipped := min skipped 0xFFFFFFFF, blocks := outs.map (·.1) }
    match s.blotSources d.tensor with
    | some src => if s.eligible d then s2.sampleTiles (s.putLocal c (outs.flatMap fun o => o.1.bytes)) c d src else s2
    | none => s2

/-- One operand of an entry as the cells read it: its format, its first byte and its scale plane's, the tiles of one tile row, and
its rows and columns that take part. -/
structure Operand where
  fmt : Nat
  base : Nat
  plane : Nat
  tileCols : Nat
  rows : Nat
  cols : Nat
deriving DecidableEq, Repr

def TileDesc.opA (d : TileDesc) (b : Nat) : Operand :=
  ⟨d.afmt, d.a + b * d.aTiles * fmtTile d.afmt, 256 * d.asp + 16 * b * d.aTiles, tilesOf d.k, d.m, d.k⟩

def TileDesc.opB (d : TileDesc) (b : Nat) : Operand :=
  ⟨d.bfmt, d.b + b * d.bTiles * fmtTile d.bfmt, 256 * d.bsp + 16 * b * d.bTiles, tilesOf d.n, d.k, d.n⟩

/-- The rows and columns of 8 × 8 blocks that take part. -/
def Operand.blocks (o : Operand) : List (Nat × Nat) :=
  (List.range ((o.rows + 7) / 8)).flatMap fun i => (List.range ((o.cols + 7) / 8)).map fun j => (i, j)

/-- Place of the exponent byte of a block. -/
def Operand.expAt (o : Operand) (i j : Nat) : Nat := expAddr o.plane o.tileCols (8 * i) (8 * j)

/-- A block pairs: it has no exponent byte, or one that is not 0x00 (R73). -/
def State.pairs (s : State) (c : Nat) (o : Operand) (i j : Nat) : Bool :=
  !isNarrow o.fmt || s.localByte c (o.expAt i j) != 0

/-- The bytes of a block that take part, a row at a time: its elements lie in one 32-byte unit of the row (R71). -/
def Operand.spans (o : Operand) (i j : Nat) : List (Nat × Nat) :=
  (List.range (min 8 (o.rows - 8 * i))).map fun r =>
    let row := 8 * i + r
    (skewAddr (o.base + row / 32 * o.tileCols * fmtTile o.fmt) (o.tileCols * fmtRow o.fmt) (row % 32) (j * (fmtRow o.fmt / 4)),
      (min 8 (o.cols - 8 * j) * fmtRow o.fmt + 31) / 32)

/-- Every exponent byte of the blocks that take part. -/
def Operand.expSpans (o : Operand) : List (Nat × Nat) :=
  if isNarrow o.fmt then o.blocks.map fun x => (o.expAt x.1 x.2, 1) else []

/-- The local bytes that entry b of an MMA reads. Masked rows and columns draw no operand traffic, nor does a block that is in
no pair formed (R79, R85); C is read where the drain adds it (R75, R84). -/
def State.traffic (s : State) (c : Nat) (d : TileDesc) (b : Nat) : List (Nat × Nat) :=
  let x := d.opA b
  let y := d.opB b
  let formedA := x.blocks.filter fun p => s.pairs c x p.1 p.2 && (List.range ((d.n + 7) / 8)).any fun j => s.pairs c y p.2 j
  let formedB := y.blocks.filter fun p => s.pairs c y p.1 p.2 && (List.range ((d.m + 7) / 8)).any fun i => s.pairs c x i p.1
  let cRows := if d.drain && !d.noC then (List.range d.m).flatMap fun i => (List.range (tilesOf d.n)).map fun t =>
      (d.c + (b * d.dTiles + i / 32 * tilesOf d.n + t) * fmtTile d.cfmt + i % 32 * fmtRow d.cfmt,
        min 32 (d.n - 32 * t) * (fmtRow d.cfmt / 32))
    else []
  x.expSpans ++ y.expSpans ++ formedA.flatMap (fun p => x.spans p.1 p.2) ++ formedB.flatMap (fun p => y.spans p.1 p.2) ++ cRows

/-- A descriptor that passes its checks reads its operands: it computes where ECC delivers them, and completes FAULT and leaves
its bank invalid where it does not (R93); a word that fails again takes the slot out of service (R323, Table 10.6). -/
def State.readAndRun (s : State) (c : Nat) (e : Eng) (q : QDesc) (d : TileDesc) : State :=
  let y := s.meetWords c ((List.range d.batch).flatMap (s.traffic c d))
  if y.2.2 then y.1
  else if y.2.1 then y.1.runMma c e q d
  else (y.1.modEng c e fun x => x.setBank d.bank Bank.spoiled).setHead c e { q with taken := true, status := 0x07 }

/-- MMA: the engine takes the descriptor at the head of its queue, checks it and computes it. -/
def execMma (c : Nat) (e : Eng) (s : State) : Host.Outcome State Fault Refusal :=
  answer (isCore c) s fun s =>
    match s.takes c e with
    | none => s
    | some q =>
      let d := readDesc q.words
      if d.op = 0 then s
      else if !d.cplOk then s.popHead c e q.group true
      else
        let st := d.check ((s.eng c e).bank d.bank)
        if st = 0 then s.readAndRun c e q d else s.setHead c e { q with taken := true, status := st }

/-- TILE_NOP: a NOP descriptor is checked for RSVD fields and completes OK. -/
def execTileNop (c : Nat) (e : Eng) (s : State) : Host.Outcome State Fault Refusal :=
  answer (isCore c) s fun s =>
    match s.takes c e with
    | none => s
    | some q =>
      let d := readDesc q.words
      if d.op ≠ 0 then s
      else if !d.cplOk then s.popHead c e q.group true
      else s.setHead c e { q with taken := true, status := if d.rsvd then 0x02 else 0 }

/-! ## Completion (R99) -/

/-- Flags of a descriptor's blocks and of its coarse product. -/
def QDesc.allFlags (q : QDesc) : Flags := q.blocks.foldl (fun a b => a ||| b.flags) q.flags

/-- D becomes visible and the flags are raised. -/
def State.flushBlocks (s : State) (c : Nat) (e : Eng) (q : QDesc) : State :=
  (s.putLocal c (q.blocks.flatMap (·.bytes))).raiseEng c e q.allFlags

/-- Write the completion record (Table 3.8). -/
def State.descRecord (s : State) (c : Nat) (q : QDesc) : State :=
  let d := readDesc q.words
  s.setLocalBytes c d.cpl (toBytes 8 (nth 0 q.words 7).toNat
    ++ toBytes 8 (q.status % 256 * 2 ^ 56 + q.allFlags.toNat * 2 ^ 52 + min q.recomp 65535 * 2 ^ 32 + q.skipped))

/-- DESCRIPTOR_COMPLETE: D, then the flags, then the record; the item of a descriptor that failed fails. -/
def execDescriptorComplete (c : Nat) (e : Eng) (s : State) : Host.Outcome State Fault Refusal :=
  answer (isCore c) s fun s =>
    let x := s.eng c e
    match x.queue with
    | [] => s
    | q :: _ =>
      if !s.diesUp || (s.core c).moving.isSome || !x.recomp.isEmpty || !(q.taken || x.failing) then s
      else
        let d := readDesc q.words
        let q1 := if x.failing then { q with status := 0x07 } else q
        if !d.cplOk then s.popHead c e q.group true
        else
          let s1 := if q1.status = 0 then s.flushBlocks c e q1 else s
          let s2 := s1.descRecord c q1
          let s3 := match (if q1.status = 0x07 then s2.itemOfGroup c q.group else none) with
            | some id => s2.failItem c id
            | none => s2
          s3.popHead c e q.group false

/-- ENGINE_IDLE: the queue has stayed empty for IDLE × 16 hs and the columns ramp down; IDLE 0 disables this (R86). -/
def execEngineIdle (c : Nat) (e : Eng) (s : State) : Host.Outcome State Fault Refusal :=
  answer (isCore c) s fun s =>
    if (s.eng c e).queue.isEmpty && s.fld F.CORE_MXCTL_IDLE (s.phys c) != 0 then
      s.modEng c e fun x => { x with up := false }
    else s

/-- BLOTTER_SAMPLE_COMPLETE: the oldest sample of a check unit is binned, or counted as non-finite (R126, R128); the
counts saturate (log entry 95). -/
def execBlotterSampleComplete (cl : Nat) (s : State) : Host.Outcome State Fault Refusal :=
  answer (isCluster cl) s fun s =>
    match nth [] s.blot cl with
    | [] => s
    | x :: r =>
      if !s.diesUp then s
      else
        let s1 := { s with blot := s.blot.set cl r }
        if x.nonfin then s1.count F.NUM_BLSTAT_NONFIN 1 x.cls else s1.count F.NUM_BLHIST_COUNT 1 x.cls x.bin

/-! ## Checking and recomputation (R87 to R93) -/

/-- The physical column of a row that has been retired; none where its spare is free. -/
def Slot.retiredCol (x : Slot) (e : Eng) (row : Nat) : Option Nat :=
  match e with
  | .b => nth none x.bRet row
  | .f => match nth none x.fRet (row / 2) with
    | some (r, col) => if r = row % 2 then some col else none
    | none => none

/-- The spare that serves a row is used, for the row or for the other of its pair (R92). -/
def Slot.spareUsed (x : Slot) (e : Eng) (row : Nat) : Bool :=
  match e with
  | .b => (nth none x.bRet row).isSome
  | .f => (nth none x.fRet (row / 2)).isSome

def nibCols (e : Eng) : Nat := match e with | .f => 8 | .b => 16

/-- The logical column that a physical place of a row serves; the last place is the row's spare (R92). -/
def Slot.logicalCol (x : Slot) (e : Eng) (row p : Nat) : Option Nat :=
  match x.retiredCol e row with
  | none => if p < nibCols e then some p else none
  | some r => if p = r then none else if p < r then some p else some (p - 1)

/-- UNIT of a physical nib (Table 10.3). -/
def nibUnit (e : Eng) (row p : Nat) : Nat :=
  match e with
  | .f => if p < 8 then 8 * row + p else 0x20 + row / 2
  | .b => if p < 16 then 0x40 + 16 * row + p else 0x80 + row

/-- The first row and column of M × N that a nib computes in an output block, where it takes part in it (R81). -/
def TileDesc.nibOrigin (d : TileDesc) (e : Eng) (blk row col : Nat) : Option (Nat × Nat × Nat) :=
  let sh := blockShape d.part e
  let rh := sh.1 / 32
  let cw := sh.2 / 32
  let b := blk / d.perEntry e
  let x := blk % d.perEntry e
  let i := x / d.blockCols e * sh.1 + 32 * (row % rh)
  let j := x % d.blockCols e * sh.2 + 32 * (col % cw)
  if row / rh * (nibCols e / cw) + col / cw = b % subEngines d.part e ∧ blk < d.batch * d.perEntry e ∧ i < d.m ∧ j < d.n
  then some (b, i, j) else none

/-- Codes packed as stored: H4 two to a byte, B16 two bytes each. -/
def packCodes (f : Nat) (l : List Nat) : List Byte :=
  match f with
  | 0 => l.map (BitVec.ofNat 8 ·)
  | 1 => (List.range (l.length / 2)).map fun i => BitVec.ofNat 8 (nth 0 l (2 * i) + 16 * nth 0 l (2 * i + 1))
  | _ => l.flatMap (toBytes 2 ·)

/-- The operands fed to a nib in a chunk (R90); none where K = 0. -/
def State.nibOperands (s : State) (c : Nat) (d : TileDesc) (b i0 j0 ch : Nat) : List Byte :=
  let ka := tilesOf d.k
  let nb := tilesOf d.n
  let abase := d.a + b * d.aTiles * fmtTile d.afmt
  let bbase := d.b + b * d.bTiles * fmtTile d.bfmt
  let ks := (List.range 32).map (32 * ch + ·)
  let rows := (List.range 32).flatMap fun x => packCodes d.afmt (ks.map fun k =>
    if d.m ≤ i0 + x ∨ d.k ≤ k then 0 else s.skewCode c d.afmt abase ka (i0 + x) k)
  let cols := (List.range 32).flatMap fun y => packCodes d.bfmt (ks.map fun k =>
    if d.n ≤ j0 + y ∨ d.k ≤ k then 0 else s.skewCode c d.bfmt bbase nb k (j0 + y))
  let ae := if isNarrow d.afmt then s.localBytes c (256 * d.asp + 16 * (b * d.aTiles + i0 / 32 * ka + ch)) 16 else []
  let be := if isNarrow d.bfmt then s.localBytes c (256 * d.bsp + 16 * (b * d.bTiles + ch * nb + j0 / 32)) 16 else []
  if d.k = 0 then [] else rows ++ cols ++ ae ++ be

/-- The record of a nib fault. -/
def State.nibRecord (s : State) (c : Nat) (e : Eng) (r : Recomp) (cls level : Nat) : State :=
  s.record { source := if r.mis.residue then 0x02 else 0x01, cls := cls, level := level
             loc := s.coreLoc c (nibUnit e r.mis.row r.mis.col), ophash := r.crc.toNat, opcode := 0x01
             opdetail := r.mis.chunk, rowmask := r.mis.rowMask.toNat, colmask := r.mis.colMask.toNat }

/-- The sub-engine that computes an output block (R82). -/
def TileDesc.subOf (d : TileDesc) (e : Eng) (blk : Nat) : Nat := blk / d.perEntry e % subEngines d.part e

/-- The blocks before the failing one stay written, and those of the other sub-engines are written: a fault in a nib affects
only the entries of its sub-engine (R81). The block in progress is not, and the record will say FAULT (R93). -/
def State.faultHead (s : State) (c : Nat) (e : Eng) (blk : Nat) : State :=
  match (s.eng c e).queue with
  | [] => s
  | q :: _ =>
    let d := readDesc q.words
    let kept := q.blocks.zipIdx.filter fun x => decide (x.2 < blk) || d.subOf e x.2 != d.subOf e blk
    let q1 := { q with blocks := kept.map (·.1) }
    (s.flushBlocks c e q1).setHead c e { q1 with status := 0x07, flags := q1.allFlags, blocks := [] }

/-- An escalation by R93 or R329: to the engine, or to the core. -/
def State.escalate (s : State) (c : Nat) (e : Eng) (r : Recomp) (core : Bool) : State :=
  let s := (s.faultHead c e r.mis.block).count F.CORE_MXCHK_ESC 1 (s.phys c)
  if core || (s.eng c e).failing then
    let n := s.coreLevel c
    let s := s.nibRecord c e r (if n = 4 then RC.fatal else RC.recovered) n
    let s := match (s.eng c e).queue with
      | q :: _ => s.descRecord c q
      | [] => s
    s.coreError c (if r.mis.residue then 0x02 else 0x01)
  else (s.nibRecord c e r RC.recovered 1).engineFail c e

/-- The chunks of a descriptor in which a nib can mismatch: those it forms; a product with K = 0 that drains a kept bank
forms none, and its drain can meet a residue mismatch, reported with chunk 0 (R75, R84, R88). -/
def TileDesc.chunkOk (d : TileDesc) (m : NibMismatch) : Bool :=
  if d.k = 0 then m.residue && m.chunk == 0 && d.accm && d.drain else decide (m.chunk < tilesOf d.k)

/-- CHUNK_MISMATCH: a nib of the block in progress mismatches and its tile is recomputed. A second mismatch of a nib under
recomputation, and one in an engine that is being handled, escalates (R329). -/
def execChunkMismatch (c : Nat) (e : Eng) (m : NibMismatch) (s : State) : Host.Outcome State Fault Refusal :=
  answer (isCore c && m.ok e) s fun s =>
    let x := s.eng c e
    match x.queue with
    | [] => s
    | q :: _ =>
      let d := readDesc q.words
      match (s.slot (s.phys c)).logicalCol e m.row m.col with
      | none => s
      | some col =>
        match d.nibOrigin e m.block m.row col with
        | none => s
        | some o =>
          if !s.diesUp || !q.taken || q.status ≠ 0 || d.op ≠ 1 || !d.chunkOk m then s
          else
            let r : Recomp := ⟨m, m.col, BitVec.ofNat 32 (crc32c (s.nibOperands c d o.1 o.2.1 o.2.2 m.chunk))⟩
            if x.recomp.any fun y => y.mis.row == m.row && y.mis.col == m.col then s.escalate c e r false
            else s.modEng c e fun x => { x with recomp := x.recomp ++ [r] }

/-- MXNMAP's field for a retired nib (Table 3.14). -/
def nibField (e : Eng) (row : Nat) : Field :=
  match e with
  | .f => if row < 2 then F.CORE_MXNMAP_FS0 else F.CORE_MXNMAP_FS1
  | .b => match row with
    | 0 => F.CORE_MXNMAP_BS0
    | 1 => F.CORE_MXNMAP_BS1
    | 2 => F.CORE_MXNMAP_BS2
    | _ => F.CORE_MXNMAP_BS3

/-- A nib of a slot is retired and its row's spare mapped in (R92). -/
def State.retireNib (s : State) (p : Nat) (e : Eng) (row col : Nat) : State :=
  let s := s.modSlot p fun x => match e with
    | .b => { x with bRet := x.bRet.set row (some col) }
    | .f => { x with fRet := x.fRet.set (row / 2) (some (row % 2, col)) }
  let s := match e with
    | .b => s.setFld (nibField .b row) (16 + col % 16) p
    | .f => s.setFld (nibField .f row) (16 + row % 2 * 8 + col % 8) p
  (s.count (match e with | .f => F.CORE_MXCHK_FRET | .b => F.CORE_MXCHK_BRET) 1 p).cellarChanged

/-- The head's count of recomputed output blocks. -/
def State.recomputed (s : State) (c : Nat) (e : Eng) (n : Nat) : State :=
  s.modEng c e fun x => { x with
    queue := match x.queue with
      | q :: r => { q with recomp := q.recomp + n } :: r
      | [] => []
    recomp := x.recomp.tail }

/-- RECOMPUTATION_COMPLETE: clean, the fault was transient; with the same signature it is permanent and the nib is retired,
or the core escalates where the row's spare is used; otherwise the engine escalates. A permanent mismatch counts 2 in the
record's RECOMP, whether or not the block restarts (Table 3.8). -/
def execRecomputationComplete (c : Nat) (e : Eng) (r : RecompResult) (s : State) : Host.Outcome State Fault Refusal :=
  answer (isCore c) s fun s =>
    match (s.eng c e).recomp with
    | [] => s
    | y :: _ =>
      if !s.diesUp then s
      else
        let p := s.phys c
        let used := (s.slot p).spareUsed e y.mis.row
        let remap (s : State) : State := (s.nibRecord c e y RC.spared 0).retireNib p e y.mis.row y.mis.col
        match r with
        | .clean => ((s.count F.CORE_MXCHK_TRANS 1 p).nibRecord c e y RC.corrected 0).recomputed c e 1
        | .same => if used then (s.recomputed c e 2).escalate c e y true else (remap s).recomputed c e 2
        | .different => s.escalate c e y false
        | .restartFails =>
          if used then (s.recomputed c e 2).escalate c e y true else ((remap s).recomputed c e 2).escalate c e y false

end Sys2Proof.Machine
end

