-- ==== Sys2Proof/Machine/Tiles.lean ====
section
/-! DEFINITION. One 32 × 32 tile as codes and bytes (R11, R40, R44), its transpose (R159), and what the memory-side engines
do to one tile: the largest magnitude (R102), encoding (R56), widening (R43), filling (R158), binning (R160). -/

namespace Sys2Proof.Machine

/-! ## Codes and bytes -/

/-- Row and column of element `i` of a tile, and the byte of its block in a scale-plane entry (R45). -/
def blockOf (x y : Nat) : Nat := x / 8 * 4 + y / 8

/-- The code of element (x, y) of a tile held as bytes. -/
def tileCode (f : Nat) (b : List Byte) (x y : Nat) : Nat := codeAt f y fun j => b.getD (x * fmtRow f + j) 0

/-- The codes of a tile, row-major. -/
def tileCodes (f : Nat) (b : List Byte) : List Nat := (List.range 1024).map fun i => tileCode f b (i / 32) (i % 32)

/-- Pairs of H4 codes as bytes, the even element in bits [3:0] (R40). -/
def packH4 : List Nat → List Byte
  | a :: b :: r => BitVec.ofNat 8 (a % 16 + 16 * (b % 16)) :: packH4 r
  | [a] => [BitVec.ofNat 8 (a % 16)]
  | [] => []

/-- A tile as bytes, from its codes. -/
def codesToBytes (f : Nat) (cs : List Nat) : List Byte :=
  if f = 1 then packH4 cs else cs.flatMap fun c => toBytes (fmtRow f / 32) c

/-- A tile with element (x, y) moved to (y, x) (R159). -/
def transposeTile (f : Nat) (b : List Byte) : List Byte :=
  codesToBytes f ((List.range 1024).map fun i => tileCode f b (i % 32) (i / 32))

/-- A scale-plane entry with exponent byte 4br + bc moved to 4bc + br. -/
def transposeEntry (e : List Byte) : List Byte := (List.range 16).map fun i => e.getD (i % 4 * 4 + i / 4) 0

/-- Tile number `t` of a tensor of `cols` tiles per row and `rows` rows, in the transposed tensor. -/
def transposedIndex (rows cols t : Nat) : Nat := t % cols * rows + t / cols

/-- The values of a wide tile. -/
def wideTile (f : Nat) (b : List Byte) : List Num := (tileCodes f b).map (wideNum f)

/-! ## Operations on one tile -/

/-- The larger of two magnitude codes of W32. -/
def maxWord (a b : Word) : Word := if a.toNat < b.toNat then b else a

/-- The largest finite magnitude of a wide tile as W32, and its non-finite elements (R102). -/
def amaxTile (f : Nat) (b : List Byte) : Word × Nat :=
  let cs := tileCodes f b
  (amaxOf (cs.map fun c => if f = 2 then (elemB16 c).w else BitVec.ofNat 32 c),
   (cs.filter fun c => !(wideNum f c).isFin).length)

/-- A tile as encoded: its bytes, scale-plane entry, flags and crushed blocks (R56 to R59). -/
structure EncTile where
  bytes : List Byte
  entry : List Byte
  flags : Flags
  crushed : Nat
deriving DecidableEq, Repr

/-- Encode a wide tile into a narrow format, with the rounding mode of each element. `edge` gives the rows and columns of the
tile that lie inside the tensor: the rest is padding and gets zero codes (R46; log entry 90). -/
def encodeTile (edge : Nat × Nat) (sf df : Nat) (coarse : Word) (rnd : Nat → Rnd) (b : List Byte) : EncTile :=
  let r := recip coarse
  let elem (x y : Nat) : Option (Num × Rnd) :=
    if x < edge.1 ∧ y < edge.2 then some (wideNum sf (tileCode sf b x y), rnd (32 * x + y)) else none
  let bs := (List.range 16).map fun j => encodeBlock (df == 1) r
    ((List.range 64).map fun i => elem (j / 4 * 8 + i / 8) (j % 4 * 8 + i % 8))
  { bytes := codesToBytes df ((List.range 1024).map fun i =>
      match bs[blockOf (i / 32) (i % 32)]? with
      | some k => (k.codes.getD (i / 32 % 8 * 8 + i % 8) 0).toNat
      | none => 0)
    entry := bs.map (·.ex)
    flags := orFlagsAll (bs.map (·.flags))
    crushed := (bs.filter fun k => decide (k.nonzero < 2 * k.flushed)).length }

/-- The value of element (x, y) of a narrow tile, without its coarse scale (R41). -/
def narrowElem (f : Nat) (b entry : List Byte) (x y : Nat) : Num :=
  let c := tileCode f b x y
  scaled (entry.getD (blockOf x y) 0) (if f = 0 then f8Val (BitVec.ofNat 8 c) else h4Val c)

/-- Widen a narrow tile (R43). -/
def widenTile (sf df : Nat) (coarse : Word) (b entry : List Byte) : List Byte × Flags :=
  let es : List (Nat × Flags) := (List.range 1024).map fun i =>
    let x := narrowElem sf b entry (i / 32) (i % 32)
    if df = 2 then let h := widenB16 x coarse; (h.1.toNat, h.2) else let w := widenW32 x coarse; (w.1.toNat, w.2)
  (codesToBytes df (es.map (·.1)), orFlagsAll (es.map (·.2)))

/-- Round values into a wide tile. -/
def roundTile (df : Nat) (xs : List (Num × Rnd)) : List Byte × Flags :=
  let es : List (Nat × Flags) := xs.map fun p =>
    if df = 2 then let h := toB16 p.2 p.1; (h.1.toNat, h.2) else let w := toW32 p.2 p.1; (w.1.toNat, w.2)
  (codesToBytes df (es.map (·.1)), orFlagsAll (es.map (·.2)))

/-- floor(log2) of a magnitude that is not 0. -/
def floorLog2 (m : Nat × Int) : Int := m.2 + (Nat.log2 m.1 : Nat)

/-- The bin of an element in HIST mode 0 (R160). -/
def histBin (x : Num) : Nat :=
  if !x.isFin then 65
  else if x.isZero then 64
  else min 63 (max 0 (floorLog2 x.mag + 32)).toNat

end Sys2Proof.Machine
end

