-- ==== Sys2Proof/Machine/MseOps.lean ====
section
/-! DEFINITION. The MSE commands (spec/05 R143 to R161, R476, R477): checks, execution on one die, ranges, contributions and
completion records. -/

namespace Sys2Proof.Machine

/-! ## Commands (Table 5.1) -/

/-- The fields of an MSE command. -/
structure MseCmd where
  op : Nat
  sfmt : Nat
  dfmt : Nat
  rnd : Nat
  upd : Bool
  mode : Nat
  tiles : Nat
  tcols : Nat
  src : Nat
  stream : Nat
  dst : Nat
  ssp : Nat
  dsp : Nat
  coarse : Word
  value : Word
  tensor : Word
  draw : Word
  cpl : Nat
  /-- An RSVD field other than the TCOLS place is not zero. -/
  rsvd : Bool
deriving DecidableEq, Repr

def readMseCmd (w : List DWord) : MseCmd :=
  let f (i hi lo : Nat) : Nat := dbits (nth 0 w i) hi lo
  { op := f 0 63 56, sfmt := f 0 55 52, dfmt := f 0 51 48, rnd := f 0 47 46, upd := f 0 45 45 == 1, mode := f 0 39 32
    tiles := f 0 31 0, tcols := f 1 63 48, src := f 1 47 0, stream := f 2 63 48, dst := f 2 47 0, ssp := f 3 47 0
    dsp := f 4 47 0, coarse := BitVec.ofNat 32 (f 5 63 32), value := BitVec.ofNat 32 (f 5 31 0)
    tensor := BitVec.ofNat 32 (f 6 63 32), draw := BitVec.ofNat 32 (f 6 31 0), cpl := f 7 47 0
    rsvd := f 0 44 40 != 0 || f 3 63 48 != 0 || f 4 63 48 != 0 || f 7 63 48 != 0 }

def MO.nop : Nat := 0x00
def MO.amax : Nat := 0x01
def MO.encode : Nat := 0x02
def MO.widen : Nat := 0x03
def MO.fill : Nat := 0x04
def MO.copy : Nat := 0x05
def MO.hist : Nat := 0x06
def MO.openR : Nat := 0x10
def MO.clear : Nat := 0x11
def MO.finish : Nat := 0x12
def MO.close : Nat := 0x13

/-- Opcodes of Table 5.2. -/
def mseOps : List Nat := [0, 1, 2, 3, 4, 5, 6, 0x10, 0x11, 0x12, 0x13]

def MseCmd.transposes (c : MseCmd) : Bool := c.op == MO.copy && c.mode == 1
def isWide (f : Nat) : Bool := f == 2 || f == 3

/-- Formats that Table 5.2 allows the opcode. -/
def MseCmd.formatsOk (c : MseCmd) : Bool :=
  match c.op with
  | 1 => isWide c.sfmt
  | 2 => isWide c.sfmt && isNarrow c.dfmt
  | 3 => isNarrow c.sfmt && isWide c.dfmt
  | 4 => if c.mode = 0 then decide (c.dfmt ≤ 3) else isWide c.dfmt
  | 5 => decide (c.sfmt ≤ 3) && c.dfmt == c.sfmt
  | 6 => isWide c.sfmt
  | 0x10 => isWide c.dfmt && (c.mode == 0 || isWide c.sfmt)
  | _ => true

/-- MODE has no bit that the opcode does not define. -/
def MseCmd.modeOk (c : MseCmd) : Bool :=
  match c.op with
  | 4 => decide (c.mode ≤ 2)
  | 5 | 6 | 0x10 => decide (c.mode ≤ 1)
  | _ => c.mode == 0

/-- R151. -/
def MseCmd.rndOk (c : MseCmd) : Bool :=
  match c.op with
  | 2 => c.rnd != 1
  | 4 => if c.mode = 0 then c.rnd == 0 else c.rnd != 1 || c.dfmt == 2
  | _ => c.rnd == 0

/-- The opcode reads a source tensor, and writes a destination tensor or scale plane (R145, R160). -/
def MseCmd.hasSrc (c : MseCmd) : Bool :=
  match c.op with
  | 1 | 2 | 3 | 5 | 6 => true
  | 0x10 => c.mode == 1
  | _ => false

def MseCmd.hasDst (c : MseCmd) : Bool :=
  match c.op with
  | 2 | 3 | 4 | 5 | 0x10 => true
  | _ => false

/-- Source and destination scale planes that the command uses. -/
def MseCmd.usesSsp (c : MseCmd) : Bool := c.hasSrc && c.op != MO.openR && isNarrow c.sfmt
def MseCmd.usesDsp (c : MseCmd) : Bool := c.hasDst && c.op != MO.openR && isNarrow c.dfmt

/-- Check 1 (R150, Table 5.3). -/
def MseCmd.malformed (c : MseCmd) : Bool :=
  !mseOps.contains c.op || !c.formatsOk || !c.modeOk || !c.rndOk || c.rsvd || (c.tcols != 0 && !c.transposes)
    || (c.usesSsp && c.ssp == noAddr) || (c.usesDsp && c.dsp == noAddr)
    || (c.transposes && (c.tcols == 0 || c.tiles % c.tcols != 0))
    || (c.op == MO.openR && (decide (0x10000 ≤ c.draw.toNat) || c.draw.toNat == 0xFFFF))

/-- Check 2. -/
def MseCmd.badScale (c : MseCmd) : Bool :=
  ((c.op == MO.encode || c.op == MO.widen) && !coarseOk c.coarse)
    || (c.op == MO.fill && c.mode != 0 && !(w32Val c.value).isFin)

/-- An extent of the command: first byte, bytes, alignment, access, and whether it is a destination. -/
structure Extent where
  lo : Nat
  n : Nat
  align : Nat
  acc : Acc
  dest : Bool
deriving DecidableEq, Repr

/-- The second tensor of HIST mode 1 (R160). -/
def MseCmd.hasRef (c : MseCmd) : Bool := c.op == MO.hist && c.mode == 1

/-- Every extent of a tensor command, sources first. -/
def MseCmd.extents (c : MseCmd) : List Extent :=
  (if c.hasSrc then [⟨c.src, c.tiles * fmtTile c.sfmt, fmtTile c.sfmt, .read, false⟩] else [])
    ++ (if c.usesSsp then [⟨c.ssp, 16 * c.tiles, 256, .read, false⟩] else [])
    ++ (if c.hasRef then [⟨c.dst, c.tiles * fmtTile c.sfmt, fmtTile c.sfmt, .read, false⟩] else [])
    ++ (if c.hasDst then [⟨c.dst, c.tiles * fmtTile c.dfmt, fmtTile c.dfmt, .write, true⟩] else [])
    ++ (if c.usesDsp then [⟨c.dsp, 16 * c.tiles, 256, .write, true⟩] else [])

def Extent.meets (a b : Extent) : Bool := decide (a.lo < b.lo + b.n ∧ b.lo < a.lo + a.n)

/-- First VA behind the HBM window. -/
def hbmWindow : Nat := 0x100000000000

/-- The first VA of an extent that lies in the reserved range (Table 6.1). -/
def firstReserved (lo n : Nat) : Option Nat :=
  let va := max lo 0x100040000000
  if va < lo + n ∧ va < 0x800000000000 then some va else none

/-- Why an extent fails check 5: a CAUSE of Table 6.7 with its VA, or none recorded; `none` where it passes. -/
def State.extentBad (s : State) (x : Extent) : Option (Option (Nat × Nat)) :=
  if hbmWindow < x.lo + x.n then some ((firstReserved x.lo x.n).map fun va => (7, va))
  else (s.checkRange x.acc false x.lo x.n).map some

def State.dieOn (s : State) (k va : Nat) : Bool := s.dieOf va == some k

/-- The base and tile size by which tiles are homed (R145). -/
def MseCmd.homeBase (c : MseCmd) : Nat × Nat := if c.hasSrc then (c.src, fmtTile c.sfmt) else (c.dst, fmtTile c.dfmt)

/-- The tiles a die processes. -/
def State.tilesFor (s : State) (k : Nat) (c : MseCmd) : List Nat := s.homedTiles k c.homeBase.1 c.tiles c.homeBase.2

/-- Destination tile of a source tile. -/
def MseCmd.destTile (c : MseCmd) (t : Nat) : Nat := if c.transposes then transposedIndex (c.tiles / c.tcols) c.tcols t else t

/-- Everything that a die needs of one tile is homed on it. -/
def State.placed (s : State) (k : Nat) (c : MseCmd) (t : Nat) : Bool :=
  let d := c.destTile t
  (!c.hasSrc || s.dieOn k (c.src + t * fmtTile c.sfmt)) && (!c.usesSsp || s.dieOn k (c.ssp + 16 * t))
    && (!c.hasRef || s.dieOn k (c.dst + t * fmtTile c.sfmt))
    && (!c.hasDst || s.dieOn k (c.dst + d * fmtTile c.dfmt)) && (!c.usesDsp || s.dieOn k (c.dsp + 16 * d))

/-- Check 7: a transposing COPY needs every tile on the die (R159). -/
def State.misplaced (s : State) (k : Nat) (c : MseCmd) : Bool :=
  let ts := s.tilesFor k c
  (if c.transposes && !ts.isEmpty then List.range c.tiles else ts).any fun t => !s.placed k c t

/-- Check 8. -/
def State.mseFrozen (s : State) (c : MseCmd) : Bool :=
  c.upd && c.extents.any fun x => x.dest && (match s.checkRange .write true x.lo x.n with
    | some (5, _) => true
    | _ => false)

/-- Check 6: destinations against sources; OPEN against the ranges open on the die. -/
def State.overlaps (s : State) (k : Nat) (c : MseCmd) : Bool :=
  (c.extents.any fun d => d.dest && c.extents.any fun x => !x.dest && d.meets x)
    || (c.op == MO.openR && (s.mse k).ranges.any fun r =>
        decide (c.dst < r.dst + r.size ∧ r.dst < c.dst + c.tiles * fmtTile c.dfmt))

/-- Checks 1 to 8 of a tensor command: its status, and the failure to record; none where it executes. -/
def State.mseCheck (s : State) (k : Nat) (c : MseCmd) : Option (Nat × Option (Nat × Nat)) :=
  if c.malformed then some (0x02, none)
  else if c.op = MO.nop then none
  else if c.badScale then some (0x03, none)
  else if c.tiles = 0 then some (0x01, none)
  else if c.extents.any fun x => x.lo % x.align != 0 then some (0x04, none)
  else match c.extents.findSome? s.extentBad with
    | some f => some (0x05, f)
    | none =>
      if s.overlaps k c then some (0x06, none)
      else if s.misplaced k c then some (0x08, none)
      else if s.mseFrozen c then some (0x0B, none)
      else none

/-! ## Execution -/

/-- What a command gives for its record (Table 5.4). -/
structure MseRes where
  status : Nat
  value : Word
  count : Nat
  flags : Flags
  nonfin : Bool
  node : BitVec 16
  offset : Nat
deriving DecidableEq, Repr

def MseRes.of (status : Nat) : MseRes := ⟨status, 0, 0, 0, false, 0, 0⟩

/-- Status of a failed access: a frozen page gives FROZEN (R178), another failure of translation RANGE (R179), an uncorrectable
unit or a port FAULT. -/
def errStatus : MErr → Nat
  | .mmu 5 => 0x0B
  | .mmu _ => 0x05
  | _ => 0x07

/-- Write pieces one after the other, up to the first that fails. -/
def State.mseWrites (s : State) (k : Nat) (upd : Bool) (r : MseRes) : List (Nat × List Byte) → State × MseRes
  | [] => (s, r)
  | (va, b) :: l => match s.write (agentMse k) upd va b with
    | (s1, some e) => (s1, { r with status := errStatus e })
    | (s1, none) => s1.mseWrites k upd r l

/-- Read tile `t` of a tensor at a base. -/
def State.mseTile (s : State) (k base f t : Nat) : State × Except MErr (List Byte) :=
  s.read (agentMse k) (base + t * fmtTile f) (fmtTile f)

/-- Read a tile with its scale-plane entry, empty for a wide one. -/
def State.mseTileEntry (s : State) (k base f sp t : Nat) : State × Except MErr (List Byte × List Byte) :=
  match s.mseTile k base f t with
  | (s1, .error e) => (s1, .error e)
  | (s1, .ok b) =>
    if !isNarrow f then (s1, .ok (b, []))
    else match s1.read (agentMse k) (sp + 16 * t) 16 with
      | (s2, .error e) => (s2, .error e)
      | (s2, .ok x) => (s2, .ok (b, x))

/-- A tile of the destination with its entry where the format is narrow. -/
def MseCmd.output (c : MseCmd) (t : Nat) (b entry : List Byte) : List (Nat × List Byte) :=
  (c.dst + t * fmtTile c.dfmt, b) :: if isNarrow c.dfmt then [(c.dsp + 16 * t, entry)] else []

/-- The rounding mode of element `i` of tile `t` (R151). -/
def State.mseRnd (s : State) (c : MseCmd) (t i : Nat) : Rnd :=
  rndOf c.rnd (if c.rnd = 3 then srBits (s.stippleAt c.stream c.tensor c.draw (1024 * t + i)) else 0)

/-- The uniform value of an element (Table 4.4). -/
def State.uniform (s : State) (c : MseCmd) (t i : Nat) : Num :=
  .fin false ((s.stippleAt c.stream c.tensor c.draw (1024 * t + i)).x1.toNat / 256) (-24)

/-- The values that FILL modes 1 and 2 round (R158). -/
def State.fillValues (s : State) (c : MseCmd) (t : Nat) : List (Num × Rnd) :=
  (List.range 1024).map fun i =>
    (if c.mode = 1 then w32Val c.value else ((w32Val c.value).mul (s.uniform c t i)).1, s.mseRnd c t i)

/-- One tile of a command, after the result so far. -/
def State.mseTileOp (s : State) (k : Nat) (c : MseCmd) (r : MseRes) (t : Nat) : State × MseRes :=
  let out (s : State) (r : MseRes) (t : Nat) (b e : List Byte) : State × MseRes := s.mseWrites k c.upd r (c.output t b e)
  if c.op = MO.fill then
    if c.mode = 0 then out s { r with count := r.count + 1 } t (List.replicate (fmtTile c.dfmt) 0) (List.replicate 16 0)
    else
      let y := roundTile c.dfmt (s.fillValues c t)
      out s { r with count := r.count + 1, flags := r.flags ||| y.2 } t y.1 []
  else match s.mseTileEntry k c.src c.sfmt c.ssp t with
    | (s1, .error e) => (s1, { r with status := errStatus e })
    | (s1, .ok (b, e)) =>
      match c.op with
      | 1 =>
        let y := amaxTile c.sfmt b
        (s1, { r with value := maxWord r.value y.1, count := r.count + y.2 })
      | 2 =>
        let y := encodeTile (Config.edge (c.src + t * fmtTile c.sfmt)) c.sfmt c.dfmt c.coarse (s1.mseRnd c t) b
        out s1 { r with count := r.count + y.crushed, flags := r.flags ||| y.flags } t y.bytes y.entry
      | 3 =>
        let y := widenTile c.sfmt c.dfmt c.coarse b e
        out s1 { r with count := r.count + 1, flags := r.flags ||| y.2 } t y.1 []
      | 5 =>
        let d := c.destTile t
        if c.transposes then out s1 { r with count := r.count + 1 } d (transposeTile c.sfmt b) (transposeEntry e)
        else out s1 { r with count := r.count + 1 } d b e
      | _ =>
        let r := { r with count := r.count + 1 }
        if c.mode = 0 then
          ((wideTile c.sfmt b).foldl (fun s x => s.count F.MSE_HIST_COUNT 1 k (histBin x)) s1, r)
        else match s1.mseTile k c.dst c.sfmt t with
          | (s2, .error e) => (s2, { r with status := errStatus e })
          | (s2, .ok w) => match disagreement (wideTile c.sfmt b) (wideTile c.sfmt w) with
            | some bin => (s2.count F.MSE_HIST_COUNT 1 k bin, r)
            | none => (s2.count F.MSE_HIST_COUNT 1 k 65, r)

/-- The tiles of a die one after the other, up to the first that faults. -/
def State.mseTiles (s : State) (k : Nat) (c : MseCmd) (r : MseRes) : List Nat → State × MseRes
  | [] => (s, r)
  | t :: l =>
    let y := s.mseTileOp k c r t
    if y.2.status = 0 then y.1.mseTiles k c y.2 l else y

/-- A tensor command that passed its checks: flags and crush counts are visible before the record (R62, R105). -/
def State.mseTensor (s : State) (k : Nat) (c : MseCmd) : State × MseRes :=
  let y := s.mseTiles k c (MseRes.of 0) (s.tilesFor k c)
  let s := y.1.raiseMse k y.2.flags
  (if c.op = MO.encode then s.count F.NUM_CRUSH_COUNT y.2.count (c.tensor.toNat / 2 ^ 29) else s, y.2)

/-! ## Accumulation SRAM (Table 10.6) -/

/-- A granule of accumulation SRAM is mapped out: capacity shrinks by 4 KiB. -/
def State.loseGranule (s : State) (k : Nat) : State := s.setFld F.MSE_SRAM_FREE (s.fld F.MSE_SRAM_FREE k - 4) k

/-- The bucket that SEQ has opened a range for at a VA. -/
def State.rangeBucket (s : State) (va : Nat) : Option Nat :=
  match s.ex with
  | none => none
  | some x => (List.range s.seq.buckets.length).find? fun b => match s.bucket b, x.p.entry b with
    | some k, some e => x.stages.any fun st => x.dst e st == va && (k.r st).phase != .closed
    | _, _ => false

/-- A word of a die's accumulation SRAM in error is recorded, with the range in which it lies; one that fails again loses its
granule. The syndrome is a free value (log entry 14). -/
def State.mseWord (s : State) (k va : Nat) (corrected again : Bool) : State :=
  let cls := if again then RC.degraded else if corrected then RC.corrected else RC.recovered
  let s := (s.record { source := 0x05, cls := cls, level := 4, loc := mseLoc k, rowmask := Config.pick s.free
                       addr := va, bucket := (s.rangeBucket va).getD 0x1FFF }).drawn
  if again then s.loseGranule k else s

/-- A die reads accumulators of a range, `n` from element `lo` on: the words in error that it meets are recorded, and an uncorrectable
one poisons the range (R323). -/
def State.meetRange (s : State) (k : Nat) (r : ARange) (lo n : Nat) : State × ARange :=
  let met := r.bad.filter fun e => decide (lo < 2 * e.1 + 2 ∧ 2 * e.1 < lo + n)
  (met.foldl (fun s e => s.mseWord k r.dst e.2.corrected e.2.again) s,
   { r with bad := r.bad.filter (fun e => !met.contains e), poisoned := r.poisoned || met.any fun e => !e.2.corrected })

/-! ## Ranges (R154 to R157, R477) -/

/-- The SRAM of the ranges of a die grows or shrinks: MSE.SRAM shows it. -/
def State.showSram (s : State) (k free : Nat) : State :=
  (s.setFld F.MSE_SRAM_FREE free k).setFld F.MSE_SRAM_OPEN (s.mse k).ranges.length k

def State.sramFree (s : State) (k : Nat) : Nat := s.fld F.MSE_SRAM_FREE k

/-- KiB of the 47 MiB for ranges. -/
def sramKib : Nat := 48128

/-- OPEN reserves, zeroes and seeds (R154). -/
def State.openSeed (s : State) (k : Nat) (c : MseCmd) : List Nat → State × MseRes
  | [] => (s, MseRes.of 0)
  | t :: l => match s.mseTile k c.src c.sfmt t, (s.mse k).rangeNamed c.dst with
    | (s1, .error e), _ => (s1, MseRes.of (errStatus e))
    | (s1, .ok b), some r =>
      (s1.feed k r (c.dst + t * fmtTile c.dfmt) (BitVec.ofNat 16 s1.node)
        ((tileCodes c.sfmt b).map fun v => if c.sfmt = 2 then elemB16 v else elemW32 v) false).openSeed k c l
    | (s1, .ok _), none => (s1, MseRes.of 0)

def State.openHere (s : State) (k : Nat) (c : MseCmd) : State × MseRes :=
  let home := s.tilesFor k c
  let free := s.sramFree k - 4 * home.length
  let r : ARange := { dst := c.dst, tiles := c.tiles, dfmt := c.dfmt, home := home, epoch := c.draw.toNat, count := c.mode
                      acc := [], nf := none, flagged := [], poisoned := false, bad := [] }
  let s := (s.modMse k fun m => { m with ranges := m.ranges ++ [r] }).showSram k free
  if c.mode = 0 then (s, { MseRes.of 0 with count := home.length })
  else
    let before := s.reg .NUM_MFLAGS k 0
    let y := (s.setReg .NUM_MFLAGS k 0 0).openSeed k c home
    let f := BitVec.ofNat 4 (y.1.reg .NUM_MFLAGS k 0).toNat
    (y.1.setReg .NUM_MFLAGS k 0 (before ||| y.1.reg .NUM_MFLAGS k 0), { y.2 with count := home.length, flags := f })

/-- A range of a die is freed. -/
def State.freeRange (s : State) (k : Nat) (r : ARange) : State :=
  let free := s.sramFree k + 4 * r.home.length
  (s.modMse k fun m => m.dropRange r.dst).showSram k (min free sramKib)

/-- CLEAR (R154): every accumulator is +0, and no word of the range is uncorrectable any more (log entry 89). -/
def State.clearHere (s : State) (k : Nat) (r : ARange) : State :=
  s.modMse k fun m => m.setRange { r with acc := [], nf := none, count := 0, epoch := r.epoch + 1, flagged := [], poisoned := false, bad := [] }

/-- The bytes and flags of one tile of a finished range. -/
def ARange.tileOut (r : ARange) (t : Nat) : List Byte × Flags :=
  let es : List (Nat × Flags) := (List.range 1024).map fun i =>
    let w : Word := Sparse.get 0 r.acc (1024 * t + i)
    if r.dfmt = 2 then let h := narrow .rne w; (h.1.toNat, h.2) else (w.toNat, 0)
  (codesToBytes r.dfmt (es.map (·.1)), orFlagsAll (es.map (·.2)))

/-- One flag-map bit, by a 32-bit atomic or or and (R157). -/
def State.mapBit (s : State) (k dsp t : Nat) (v : Bool) (upd : Bool) (r : MseRes) : State × MseRes :=
  let va := dsp + 4 * (t / 32)
  match s.read (agentMse k) va 4 with
  | (s1, .error e) => (s1, { r with status := errStatus e })
  | (s1, .ok b) => s1.mseWrites k upd r [(va, toBytes 4 (withBit (ofBytes b) (t % 32) v))]

/-- FINISH writes the tiles homed on the die, each with its bit of the flag map. -/
def State.finishTiles (s : State) (k : Nat) (c : MseCmd) (x : ARange) (r : MseRes) : List Nat → State × MseRes
  | [] => (s, r)
  | t :: l =>
    let o := x.tileOut t
    let y := s.mseWrites k c.upd { r with flags := r.flags ||| o.2 } [(x.dst + 1024 * x.es * t, o.1)]
    if y.2.status ≠ 0 then y
    else
      let z := if c.dsp = noAddr then y else y.1.mapBit k c.dsp t (x.flagged.contains t) c.upd y.2
      if z.2.status ≠ 0 then z else z.1.finishTiles k c x z.2 l

/-- FINISH (R157): the SRAM is freed whatever comes of the writes. -/
def State.finishHere (s : State) (k : Nat) (c : MseCmd) (x : ARange) : State × MseRes :=
  let m := s.meetRange k x 0 (1024 * x.tiles)
  let s := m.1
  let x := m.2
  let r : MseRes := { MseRes.of (if x.poisoned then 0x07 else 0) with
    count := x.count, nonfin := x.nf.isSome
    node := match x.nf with | some y => y.1 | none => 0
    offset := match x.nf with | some y => y.2 | none => 0 }
  let y := if x.poisoned then (s, r) else s.finishTiles k c x r x.home
  ((y.1.raiseMse k y.2.flags).freeRange k x, y.2)

/-- A FINISH on behalf of the update stream whose range or map reaches a frozen page is refused whole (R178). -/
def State.finishFrozen (s : State) (c : MseCmd) (x : ARange) : Bool :=
  let frozen (va n : Nat) : Bool := match s.checkRange .write true va n with
    | some (5, _) => true
    | _ => false
  c.upd && (frozen x.dst x.size || (c.dsp != noAddr && frozen c.dsp (4 * ((x.tiles + 31) / 32))))

/-- CLEAR, FINISH and CLOSE with their checks (R477); the failure to record. COUNT of CLEAR and CLOSE is 0 (log entry 115). -/
def State.rangeCmd (s : State) (k : Nat) (c : MseCmd) : State × MseRes :=
  if c.malformed then (s, MseRes.of 0x02)
  else match (s.mse k).rangeNamed c.dst with
    | none => (s, MseRes.of 0x0A)
    | some x =>
      if c.op = MO.clear then (s.clearHere k x, MseRes.of 0)
      else if c.op = MO.close then (s.freeRange k x, MseRes.of 0)
      else if c.dsp ≠ noAddr ∧ c.dsp % 4 ≠ 0 then (s, MseRes.of 0x04)
      else
        let m : Extent := ⟨c.dsp, 4 * ((x.tiles + 31) / 32), 4, .atomic, true⟩
        match if c.dsp = noAddr then none else s.extentBad m with
        | some (some f) => (s.logFault (agentMse k) f.1 f.2, MseRes.of 0x05)
        | some none => (s, MseRes.of 0x05)
        | none => if s.finishFrozen c x then (s, MseRes.of 0x0B) else s.finishHere k c x

/-! ## Contributions (R155, R156) -/

/-- What becomes of a contribution packet at its target. -/
inductive Fed where
  /-- Its address fails translation (R261): refused. -/
  | refused
  /-- No range is open over it at its die: it stays in the input buffer of its link. -/
  | held (k : Nat)
  /-- Added or discarded, and its credits return. -/
  | done
deriving DecidableEq, Repr

/-- The MSE die that holds a VA by write translation, for a packet of a link; none where the walk is uncorrectable (R186), or
translation fails, which is logged. -/
def State.homeFor (s : State) (l va : Nat) : State × Option Nat :=
  match s.xlate .write false va with
  | .error e =>
    let w := s.readWalk e.2
    (if w.2 then w.1 else w.1.logFault (agentLink l) e.1 va, none)
  | .ok x =>
    let w := s.readWalk x.reads
    if w.2 then (w.1, none)
    else match x.place with
      | .hbm pa => (w.1, some ((w.1.place pa).1 / 2))
      | _ => (w.1.logFault (agentLink l) 7 va, none)

/-- A contribution packet reaches the MSE die holding its address. -/
def State.contribute (s : State) (l : Nat) (p : Packet) : State × Fed :=
  let va := 16 * p.addr.toNat
  match s.homeFor l va with
  | (s, none) => (s, .refused)
  | (s, some k) =>
    match (s.mse k).ranges.find? fun r => r.holds va with
    | none => (s, .held k)
    | some r =>
      if p.tag.toNat < r.epoch then (s.count F.MSE_EVENT_STALE 1 k, .done)
      else
        let es := wireElems p.x.toNat p.payload
        let m := s.meetRange k r ((va - r.dst) / r.es) es.length
        let s1 := m.1.feed k m.2 va p.src es p.pf
        (if p.pf then s1.seqCount k r.dst else s1, .done)

/-- The packets held at a die, once ranges have opened: those that now lie in one are added, and those that no longer
translate are refused (R261). -/
def State.feedHeld (s : State) (k : Nat) : State :=
  (s.mse k).held.foldl (fun s e =>
    let y := s.contribute e.1 e.2
    let done (t : State) : State := (t.modMse k fun m => { m with held := m.held.erase e }).unbuffer e.1 e.2
    match y.2 with
    | .held _ => y.1
    | .refused => done (y.1.refuse e.1)
    | .done => done y.1) s

/-! ## Results and appends of queue pairs (R392) -/

/-- The first status other than OK or EMPTY in ascending die order; EMPTY where every die gave it (R392). -/
def combineStatus (l : List (Nat × Nat)) : Nat :=
  match (List.range 6).findSome? fun k => (l.find? fun e => e.1 == k && e.2 != 0 && e.2 != 1).map (·.2) with
  | some st => st
  | none => if l.all fun e => e.2 == 1 then 1 else 0

/-- A die's result reaches the MSE descriptor of a queue pair (R392). -/
def State.queueResult (s : State) (p q i k : Nat) (st : Nat) (flags : BitVec 4) (value count : Word) : State :=
  s.modFetched p q i fun f =>
    let results := f.results ++ [(k, st)]
    let dies := f.dies.erase k
    { f with
      results := results, dies := dies, val := maxWord f.val value, cnt := f.cnt + count, flags := f.flags ||| flags
      finished := dies.isEmpty, status := combineStatus results }

/-- Status RINGOFF (Table 12.8). -/
def stRingOff : Nat := 0x11

/-- An append to an enabled ring of a die: the entry is written and its owner noted, or waits for a full ring; one that
cannot be written counts as FAULT for its die. -/
def State.mseAppend (s : State) (k r p q i : Nat) (w : List DWord) : State :=
  if !s.ringOn mseRing k r then s.queueResult p q i k stRingOff 0 0 0
  else if s.ringFull mseRing k r || (s.mse k).waitAppend.any fun e => e.1 == r then
    s.modMse k fun m => { m with waitAppend := m.waitAppend ++ [(r, w, .queue p q i)] }
  else
    let at_ := s.ringTail mseRing k r
    match s.ringPush mseRing k r (agentBar4 p) false w with
    | (s1, some _) => s1.queueResult p q i k 0x07 0 0 0
    | (s1, none) => s1.modMse k fun m => { m with owners := m.owners ++ [(r, at_, .queue p q i)] }

/-- A ring has moved on: the append that has waited longest for it goes in. -/
def State.retryAppend (s : State) (k r : Nat) : State :=
  match (s.mse k).waitAppend.find? fun e => e.1 == r with
  | some (x, w, .queue p q i) =>
    if s.ringFull mseRing k r then s
    else
      let l := (s.mse k).waitAppend
      let s1 := s.modMse k fun m => { m with waitAppend := l.filter fun y => y.1 != r }
      let s2 := s1.mseAppend k r p q i w
      s2.modMse k fun m => { m with waitAppend := l.erase (x, w, .queue p q i) }
  | _ => s

/-! ## Taking a command (R147, R148) -/

/-- The memory-side engines and DMA channels run; the safe state does not stop them (R330). -/
def State.mseRuns (s : State) : Bool := s.diesUp && decide (7 ≤ s.pwr.step)

/-- A ring has a command that the die can take; an OPEN that waits for space holds its ring. -/
def State.ringReady (s : State) (k r : Nat) : Bool :=
  let m := s.mse k
  !m.openWait.contains r && s.ringHas mseRing k r && !nth false m.stopped r

/-- The ring served next, from the one behind the ring served last. -/
def State.nextRing (s : State) (k : Nat) : Option Nat :=
  ((List.range 4).map fun i => ((s.mse k).turn + i) % 4).find? fun r => s.ringReady k r

/-- The command at the head of a ring, with its issuer. -/
def State.mseFetch (s : State) (k r : Nat) : State × Option (List DWord × Issuer) :=
  match s.ringRead mseRing k r (agentMse k) with
  | (s1, .error _) => (s1, none)
  | (s1, .ok w) =>
    let i := s1.ringHead mseRing k r
    (s1, some (w, match (s1.mse k).owners.find? fun o => o.1 == r && o.2.1 == i with
      | some o => o.2.2
      | none => .ring))

/-- The entry at the head of a ring is consumed; what waited for room in the ring goes in. -/
def State.msePop (s : State) (k r : Nat) : State :=
  let i := s.ringHead mseRing k r
  let s := s.modMse k fun m => { m with
    turn := (r + 1) % 4, openWait := m.openWait.filter (· != r)
    owners := m.owners.filter fun o => !(o.1 == r && o.2.1 == i) }
  let s := (s.ringPop mseRing k r).retryAppend k r
  if r = 0 then s.seqRetry k else s

/-- The completion record cannot be written at CPLADDR (R476): the CAUSE, with the VA. -/
def State.cplBad (s : State) (k : Nat) (cpl : Nat) : Option (Nat × Nat) :=
  let va := cpl + 16 * k
  if cpl = noAddr then none
  else if 0x100040000000 ≤ va + 15 then some (7, va)
  else s.checkRange .write false va 16

/-- The check of a completion address walks its entries first. -/
def State.cplCheck (s : State) (k cpl : Nat) : State × Option (Nat × Nat) :=
  let t := if cpl = noAddr then s else (s.walkRanges [(.write, cpl + 16 * k, 16)]).1
  (t, t.cplBad k cpl)

/-- The ranges that the checks of a command translate: the extents in the HBM window of one that reaches check 5, and the flag map
of a FINISH. -/
def State.checkedRanges (s : State) (k : Nat) (c : MseCmd) : List (Acc × Nat × Nat) :=
  if c.malformed || c.op == MO.nop || c.op == MO.clear || c.op == MO.close then []
  else if c.op = MO.finish then match (s.mse k).rangeNamed c.dst with
    | some x => if c.dsp = noAddr ∨ c.dsp % 4 ≠ 0 then [] else [(.atomic, c.dsp, 4 * ((x.tiles + 31) / 32))]
    | none => []
  else if c.badScale || c.tiles == 0 || c.extents.any (fun x => x.lo % x.align != 0) then []
  else (c.extents.filter fun x => decide (x.lo + x.n ≤ hbmWindow)).map fun x => (x.acc, x.lo, x.n)

/-- The walks of a command's checks; true where an entry is uncorrectable, which gives the command FAULT. -/
def State.mseWalks (s : State) (k : Nat) (c : MseCmd) : State × Bool := s.walkRanges (s.checkedRanges k c)

/-- A command that has run, with its result. -/
def MseDone.of (op cpl : Nat) (is : Issuer) (y : MseRes) : MseDone :=
  { op := op, cpl := cpl, value := y.value, count := BitVec.ofNat 32 y.count, status := y.status, flags := y.flags
    nonfin := y.nonfin, node := y.node, offset := BitVec.ofNat 32 y.offset, issuer := is, noRecord := cpl == noAddr }

/-- A command has run: its result awaits its record, and its ring is busy. -/
def State.mseRan (s : State) (k r op cpl : Nat) (is : Issuer) (y : MseRes) : State :=
  let s := s.modMse k fun m => { m with done := [(r, MseDone.of op cpl is y)] }
  s.setFld F.MSE_STAT_RBUSY (2 ^ r) k

/-- Executing a command that is no range command: its checks, then its action. -/
def State.mseRun (s : State) (k : Nat) (c : MseCmd) : State × MseRes :=
  match s.mseCheck k c with
  | some (st, some f) => (s.logFault (agentMse k) f.1 f.2, MseRes.of st)
  | some (st, none) => (s, MseRes.of st)
  | none => if c.op = MO.nop then (s, MseRes.of 0) else s.mseTensor k c

/-- KiB that an OPEN takes on a die. -/
def State.openNeeds (s : State) (k : Nat) (c : MseCmd) : Nat := 4 * (s.tilesFor k c).length

/-- OPEN: checked, then NOSPACE, then waiting for space where `none` (R154, R477). -/
def State.openRun (s : State) (k : Nat) (c : MseCmd) : Option (State × MseRes) :=
  match s.mseCheck k c with
  | some (st, some f) => some (s.logFault (agentMse k) f.1 f.2, MseRes.of st)
  | some (st, none) => some (s, MseRes.of st)
  | none =>
    if sramKib < s.openNeeds k c then some (s, MseRes.of 0x09)
    else if s.sramFree k < s.openNeeds k c then none
    else
      let y := s.openHere k c
      some (y.1.feedHeld k, y.2)

/-- A command acts, its checks' walks first. -/
def State.mseAct (s : State) (k : Nat) (c : MseCmd) (run : State → MseCmd → Option (State × MseRes)) : Option (State × MseRes) :=
  match s.mseWalks k c with
  | (s1, true) => some (s1, MseRes.of 0x07)
  | (s1, false) => run s1 c

/-- The die takes the command at the head of ring `r` where it is that ring's turn, the command is one that `ok` accepts,
and it is free; `run` answers none where the command waits at the head. -/
def State.mseTake (s : State) (k r : Nat) (ok : Nat → Bool) (run : State → MseCmd → Option (State × MseRes)) : State :=
  match s.mseFetch k r with
  | (s1, none) => s1.modMse k fun m => { m with stopped := m.stopped.set r true, turn := (r + 1) % 4 }
  | (s1, some (w, is)) =>
    let c := readMseCmd w
    if !ok c.op then s
    else match (if is = .ring then s1.cplCheck k c.cpl else (s1, none)) with
      | (s2, some f) => ((s2.msePop k r).logFault (agentMse k) f.1 f.2).showOpenWait k
      | (s2, none) => match s2.mseAct k c run with
        | none => (s2.modMse k fun m => { m with
            openWait := insertNat r m.openWait, turn := (r + 1) % 4 }).showOpenWait k
        | some y => ((y.1.msePop k r).mseRan k r c.op (if is = .ring then c.cpl else noAddr) is y.2).showOpenWait k

/-- The die is idle and the ring is next. -/
def State.mseTurn (s : State) (k r : Nat) : Bool :=
  s.mseRuns && !s.saf.logicBad.contains (0x10 + k) && (s.mse k).done.isEmpty && s.nextRing k == some r

def State.mseDo (s : State) (k r : Nat) (ok : Nat → Bool) (run : State → MseCmd → Option (State × MseRes)) : State :=
  if s.mseRuns then s.onDie (mseLoc k) (if s.mseTurn k r then (s.mseTake k r ok run).pump else s) else s

/-- MSE_NOP: a NOP, or a reserved opcode, which completes MALFORMED (R150). -/
def execMseNop (k r : Nat) (s : State) : Host.Outcome State Fault Refusal :=
  answer (isMse k && isRing r) s fun s =>
    s.mseDo k r (fun op => op == MO.nop || !mseOps.contains op) fun s c => some (s.mseRun k c)

/-- AMAX (R102). -/
def execMseAmax (k r : Nat) (s : State) : Host.Outcome State Fault Refusal :=
  answer (isMse k && isRing r) s fun s => s.mseDo k r (· == MO.amax) fun s c => some (s.mseRun k c)

/-- ENCODE (R56). -/
def execMseEncode (k r : Nat) (s : State) : Host.Outcome State Fault Refusal :=
  answer (isMse k && isRing r) s fun s => s.mseDo k r (· == MO.encode) fun s c => some (s.mseRun k c)

/-- WIDEN (R43). -/
def execMseWiden (k r : Nat) (s : State) : Host.Outcome State Fault Refusal :=
  answer (isMse k && isRing r) s fun s => s.mseDo k r (· == MO.widen) fun s c => some (s.mseRun k c)

/-- FILL (R158). -/
def execMseFill (k r : Nat) (s : State) : Host.Outcome State Fault Refusal :=
  answer (isMse k && isRing r) s fun s => s.mseDo k r (· == MO.fill) fun s c => some (s.mseRun k c)

/-- COPY (R159). -/
def execMseCopy (k r : Nat) (s : State) : Host.Outcome State Fault Refusal :=
  answer (isMse k && isRing r) s fun s => s.mseDo k r (· == MO.copy) fun s c => some (s.mseRun k c)

/-- HIST (R160). -/
def execMseHist (k r : Nat) (s : State) : Host.Outcome State Fault Refusal :=
  answer (isMse k && isRing r) s fun s => s.mseDo k r (· == MO.hist) fun s c => some (s.mseRun k c)

/-- OPEN (R154). -/
def execOpenRange (k r : Nat) (s : State) : Host.Outcome State Fault Refusal :=
  answer (isMse k && isRing r) s fun s => s.mseDo k r (· == MO.openR) fun s c => s.openRun k c

/-- CLEAR (R154): every accumulator is +0, and no word of the range is uncorrectable any more (log entry 89). -/
def execClearRange (k r : Nat) (s : State) : Host.Outcome State Fault Refusal :=
  answer (isMse k && isRing r) s fun s => s.mseDo k r (· == MO.clear) fun s c => some (s.rangeCmd k c)

/-- FINISH (R157). -/
def execFinishRange (k r : Nat) (s : State) : Host.Outcome State Fault Refusal :=
  answer (isMse k && isRing r) s fun s => s.mseDo k r (· == MO.finish) fun s c => some (s.rangeCmd k c)

/-- CLOSE (R157). -/
def execCloseRange (k r : Nat) (s : State) : Host.Outcome State Fault Refusal :=
  answer (isMse k && isRing r) s fun s => s.mseDo k r (· == MO.close) fun s c => some (s.rangeCmd k c)

/-- OPEN_WAIT_END: an OPEN that waited at the head of its ring proceeds where its space is free (R154). -/
def execOpenWaitEnd (k r : Nat) (s : State) : Host.Outcome State Fault Refusal :=
  answer (isMse k && isRing r) s fun s =>
    if s.mseRuns && (s.mse k).done.isEmpty && (s.mse k).openWait.contains r then
      let s0 := s.modMse k fun m => { m with openWait := m.openWait.filter (· != r) }
      if s0.ringReady k r then (s0.mseTake k r (· == MO.openR) fun s c => s.openRun k c).pump else s0.showOpenWait k
    else s

/-! ## Completion (R153, R392) -/

/-- The 16-byte record of Table 5.4. -/
def MseDone.bytes (d : MseDone) (k : Nat) : List Byte :=
  toBytes 8 (d.value.toNat * 2 ^ 32 + d.count.toNat)
    ++ toBytes 8 (d.status % 256 * 2 ^ 56 + d.flags.toNat * 2 ^ 52 + b2n d.nonfin * 2 ^ 51 + k % 8 * 2 ^ 48
        + d.node.toNat * 2 ^ 32 + d.offset.toNat)

/-- The record as SEQ reads it. -/
def MseDone.dieRec (d : MseDone) (k : Nat) : DieRec :=
  ⟨k, d.status, d.nonfin, d.node, d.offset.toNat, d.count.toNat⟩

/-- The die writes a command's record, or its issuer takes the result. -/
def State.mseDeliver (s : State) (k : Nat) (d : MseDone) : State :=
  match d.issuer with
  | .ring => if d.noRecord then s else s.put (agentMse k) (d.cpl + 16 * k) (d.bytes k)
  | .seq t => (s.seqMseRecord t (d.dieRec k)).pump
  | .queue p q i => s.queueResult p q i k d.status d.flags d.value d.count

/-- The command in hand has completed: the die is free for the next. -/
def State.mseFree (s : State) (k : Nat) : State := (s.modMse k fun m => { m with done := [] }).setFld F.MSE_STAT_RBUSY 0 k

/-- MSE_COMMAND_COMPLETE (R153). -/
def State.mseComplete (s : State) (k r : Nat) : State :=
  match (s.mse k).done with
  | [] => s
  | (r', d) :: _ =>
    if r' ≠ r then s
    else
      (s.mseFree k).mseDeliver k d

def execMseCommandComplete (k r : Nat) (s : State) : Host.Outcome State Fault Refusal :=
  answer (isMse k && isRing r) s fun s => if s.mseRuns then s.mseComplete k r else s

/-! ## Ring tails and held packets -/

/-- MSE_RTAIL_WRITE: new commands; a stopped ring resumes (R147). -/
def State.mseTailWrite (s : State) (k r : Nat) (v : Word) : State :=
  s.ringTailWrite mseRing k r v false

def execMseRtailWrite (port k r : Nat) (v : Word) (s : State) : Host.Outcome State Fault Refusal :=
  answer (isPort port && isMse k && isRing r) s fun s => s.bar0Write port .MSE_RTAIL k r fun s => s.mseTailWrite k r v

/-- NOTOPEN_TIMEOUT: the packet held longest has waited 10 ms with no range open over it (R156). -/
def State.notOpen (s : State) (k : Nat) : State :=
  match (s.mse k).held with
  | [] => s
  | e :: _ =>
    let s := (s.modMse k fun m => { m with held := m.held.drop 1 }).unbuffer e.1 e.2
    ((s.count F.MSE_EVENT_NOTOPEN 1 k).seqNotOpen (16 * e.2.addr.toNat)).pump

def execNotopenTimeout (k : Nat) (s : State) : Host.Outcome State Fault Refusal :=
  answer (isMse k) s fun s => if s.mseRuns then s.notOpen k else s

end Sys2Proof.Machine
end

