-- ==== Sys2Proof/Machine/DmaOps.lean ====
section
/-! DEFINITION. The DMA channels (spec/05 R162 to R170, R476): checks, the moves of a descriptor, transfers to and from
peers, the read-back and the completion record. -/

namespace Sys2Proof.Machine

/-! ## Descriptors (Table 5.7) -/

def readDmaCmd (w : List DWord) : DmaCmd :=
  let f (i hi lo : Nat) : Nat := dbits (nth 0 w i) hi lo
  let g (i : Nat) : Nat := (nth 0 w i).toNat
  { op := f 0 63 56, fmt := f 0 55 52, transpose := f 0 51 51 == 1, homed := f 0 50 50 == 1, upd := f 0 49 49 == 1
    trows := f 0 47 32, tcols := f 0 31 16, src := g 1, dst := g 2, length := f 3 63 32, ssp := g 4, dsp := g 5, cpl := g 6
    tag := nth 0 w 7, rsvd := f 0 48 48 != 0 || f 0 15 0 != 0 || f 3 31 0 != 0 }

def DO.nop : Nat := 0
def DO.linear : Nat := 1
def DO.tile : Nat := 2
def DO.skew : Nat := 3
def DO.unskew : Nat := 4

/-- All ones: no scale plane. -/
def noGa : Nat := 2 ^ 64 - 1

def DmaCmd.tiles (c : DmaCmd) : Nat := c.trows * c.tcols
def DmaCmd.isTile (c : DmaCmd) : Bool := decide (2 ≤ c.op)

/-- Scale planes move with the tiles of a narrow format. -/
def DmaCmd.planes (c : DmaCmd) : Bool := c.isTile && isNarrow c.fmt
def DmaCmd.dataBytes (c : DmaCmd) : Nat := if c.op = DO.linear then c.length else c.tiles * fmtTile c.fmt

/-- An untranslated bus address of a port. -/
def rawHost (p bus : Nat) : Nat := (p + 1) * 2 ^ 64 + bus
def isRaw (ga : Nat) : Bool := decide (2 ^ 64 ≤ ga)

/-- An address of another node. -/
def State.farGa (s : State) (ga : Nat) : Bool := !isRaw ga && ga / 2 ^ 48 != s.node

/-- An address in the device's own HBM window. -/
def State.isHbm (s : State) (ga : Nat) : Bool := !isRaw ga && ga / 2 ^ 48 == s.node && decide (ga % 2 ^ 48 < hbmWindow)

/-- The address lies in host memory. -/
def State.isHost (s : State) (ga : Nat) : Bool :=
  isRaw ga || (ga / 2 ^ 48 == s.node && decide (0x800000000000 ≤ ga % 2 ^ 48))

/-- An extent of a descriptor: address, bytes, alignment, destination. -/
structure DmaExt where
  lo : Nat
  n : Nat
  align : Nat
  dest : Bool
deriving DecidableEq, Repr

def DmaCmd.extents (c : DmaCmd) : List DmaExt :=
  let al := if c.op = DO.linear then 256 else fmtTile c.fmt
  [⟨c.src, c.dataBytes, al, false⟩, ⟨c.dst, c.dataBytes, al, true⟩]
    ++ if c.planes then [⟨c.ssp, 16 * c.tiles, 256, false⟩, ⟨c.dsp, 16 * c.tiles, 256, true⟩] else []

def DmaExt.meets (a b : DmaExt) : Bool := decide (a.lo < b.lo + b.n ∧ b.lo < a.lo + a.n)

/-- The die of an MSE channel (Table 5.6); none on the host die. -/
def dieOfChannel (n : Nat) : Option Nat :=
  if n < 16 then none else if n < 28 then some ((n - 16) / 3) else some ((n - 28) / 2 + 4)

/-! ## Checks (Table 5.3, R165) -/

def DmaCmd.malformed (c : DmaCmd) : Bool :=
  decide (4 < c.op) || c.rsvd || (c.isTile && decide (3 < c.fmt)) || (c.planes && (c.ssp == noGa || c.dsp == noGa))

def DmaCmd.empty (c : DmaCmd) : Bool := if c.op = DO.linear then c.length == 0 else c.tiles == 0

def DmaCmd.misaligned (c : DmaCmd) : Bool :=
  (c.extents.any fun x => x.lo % x.align != 0) || (c.op == DO.linear && c.length % 256 != 0)

/-- The ranges of the own device that the checks of a descriptor translate. -/
def State.dmaChecked (s : State) (c : DmaCmd) : List (Acc × Nat × Nat) :=
  if c.malformed || c.op == DO.nop || c.empty || c.misaligned then []
  else (c.extents.filter fun x => !isRaw x.lo && !s.farGa x.lo && decide (x.lo % 2 ^ 48 + x.n ≤ 2 ^ 48)).map fun x =>
    (if x.dest then .write else .read, x.lo % 2 ^ 48, x.n)

/-- The walks of a descriptor's checks; true where an entry is uncorrectable, which gives the descriptor FAULT. -/
def State.dmaWalks (s : State) (c : DmaCmd) : State × Bool := s.walkRanges (s.dmaChecked c)

/-- Why an extent is out of reach: a CAUSE of Table 6.7 with its VA, or none recorded; of a host end on a channel of an
MSE die, none (log entry 115). -/
def State.dmaRange (s : State) (n : Nat) (x : DmaExt) : Option (Option (Nat × Nat)) :=
  let va := x.lo % 2 ^ 48
  if isRaw x.lo then none
  else if s.farGa x.lo then (if hbmWindow < va + x.n then some none else none)
  else if 2 ^ 48 < va + x.n ∨ ((dieOfChannel n).isSome ∧ 0x800000000000 ≤ va) then some none
  else (s.checkRange (if x.dest then .write else .read) false va x.n).map some

def DmaCmd.overlaps (c : DmaCmd) : Bool :=
  c.extents.any fun d => d.dest && c.extents.any fun x => !x.dest && d.meets x

/-- The 16 bytes at an address lie on a die. -/
def State.gaOnDie (s : State) (k ga : Nat) : Bool := s.isHbm ga && s.dieOn k (ga % 2 ^ 48)

/-- An extent lies wholly on a die. -/
def State.extOnDie (s : State) (k : Nat) (x : DmaExt) : Bool :=
  (List.range (x.n / 16)).all fun i => s.gaOnDie k (x.lo + 16 * i)

/-! ## Moves -/

/-- What happens to the bytes on their way. -/
inductive Turn where
  | none | tile (f : Nat) | entry
deriving DecidableEq, Repr

/-- One unit of a transfer: pieces of the source, pieces of the destination. -/
structure DMove where
  src : List (Nat × Nat)
  dst : List (Nat × Nat)
  turn : Turn
  plane : Bool
deriving DecidableEq, Repr

/-- The pieces of tile `t` of a tensor of `cols` tiles per row, plain or skewed (R11, R168). -/
def tilePieces (skewed : Bool) (base f cols t : Nat) : List (Nat × Nat) :=
  if skewed then
    let w := min 32 (fmtRow f)
    (List.range 32).flatMap fun x => (List.range (fmtRow f / w)).map fun u =>
      (skewAddr (base + t / cols * cols * fmtTile f) (cols * fmtRow f) x (t % cols * fmtRow f + u * w), w)
  else [(base + t * fmtTile f, fmtTile f)]

/-- Destination tile of a source tile, and tiles per row of the destination (R170). -/
def DmaCmd.destTile (c : DmaCmd) (t : Nat) : Nat := if c.transpose then transposedIndex c.trows c.tcols t else t
def DmaCmd.destCols (c : DmaCmd) : Nat := if c.transpose then c.trows else c.tcols

def DmaCmd.tileMove (c : DmaCmd) (t : Nat) : DMove :=
  { src := tilePieces (c.op == DO.unskew) c.src c.fmt c.tcols t
    dst := tilePieces (c.op == DO.skew) c.dst c.fmt c.destCols (c.destTile t)
    turn := if c.transpose then .tile c.fmt else .none, plane := false }

def DmaCmd.entryMove (c : DmaCmd) (t : Nat) : DMove :=
  { src := [(c.ssp + 16 * t, 16)], dst := [(c.dsp + 16 * c.destTile t, 16)], turn := if c.transpose then .entry else .none
    plane := true }

/-- The moves of a descriptor, LINEAR in pieces of `u` bytes. -/
def DmaCmd.moves (c : DmaCmd) (u : Nat) : List DMove :=
  if c.op = DO.linear then
    (List.range (c.length / u)).map fun i =>
      { src := [(c.src + u * i, u)], dst := [(c.dst + u * i, u)], turn := .none, plane := false }
  else
    (List.range c.tiles).map c.tileMove ++ if c.planes then (List.range c.tiles).map c.entryMove else []

def pieceAt (l : List (Nat × Nat)) : Nat := (l.head?.map (·.1)).getD noGa

/-- The HBM end of a move is homed on a die: its source where that is HBM, else its destination (R163). -/
def State.moveHomed (s : State) (k : Nat) (m : DMove) : Bool :=
  if s.isHbm (pieceAt m.src) then s.gaOnDie k (pieceAt m.src) else s.gaOnDie k (pieceAt m.dst)

/-- The moves that a channel makes: an MSE channel with HOMED only those homed on its die. -/
def State.dmaMoves (s : State) (n : Nat) (c : DmaCmd) : List DMove :=
  match dieOfChannel n with
  | some k => if c.homed then (c.moves 16).filter (s.moveHomed k) else c.moves 256
  | none => c.moves 256

/-- PLACE (R163): without HOMED an HBM end not wholly on the die, or none; with it an HBM destination on another die. -/
def State.dmaMisplaced (s : State) (n : Nat) (c : DmaCmd) : Bool :=
  match dieOfChannel n with
  | none => false
  | some k =>
    if c.homed then (s.dmaMoves n c).any fun m => s.isHbm (pieceAt m.dst) && !s.gaOnDie k (pieceAt m.dst)
    else
      let hbm := c.extents.filter fun x => s.isHbm x.lo
      hbm.isEmpty || hbm.any fun x => !s.extOnDie k x

/-- FROZEN at a local destination (R178); a peer reports its own. -/
def State.dmaFrozen (s : State) (c : DmaCmd) : Bool :=
  c.upd && c.extents.any fun x => x.dest && !isRaw x.lo && !s.farGa x.lo
    && (match s.checkRange .write true (x.lo % 2 ^ 48) x.n with
      | some (5, _) => true
      | _ => false)

/-- The status of the first check that fails, with the failure to record. -/
def State.dmaCheck (s : State) (n : Nat) (c : DmaCmd) : Option (Nat × Option (Nat × Nat)) :=
  if c.malformed then some (0x02, none)
  else if c.op = DO.nop then none
  else if c.empty then some (0x01, none)
  else if c.misaligned then some (0x04, none)
  else match c.extents.findSome? (s.dmaRange n) with
    | some f => some (0x05, f)
    | none =>
      if c.overlaps then some (0x06, none)
      else if s.dmaMisplaced n c then some (0x08, none)
      else if s.dmaFrozen c then some (0x0B, none)
      else none

/-! ## Moving -/

/-- Read bytes of the own device or of a host. -/
def State.gaRead (s : State) (n ga k : Nat) : State × Except MErr (List Byte) :=
  if isRaw ga then
    let p := ga / 2 ^ 64 - 1
    if !s.portLive p then (s.drawn, .error .port)
    else if Config.hostFails s.free then (s.drawn.readFailed p, .error .port)
    else (s.drawn, .ok (s.hostBytes p (ga % 2 ^ 64) k))
  else s.read (agentDma n) (ga % 2 ^ 48) k

def State.gaWrite (s : State) (n : Nat) (upd : Bool) (ga : Nat) (b : List Byte) : State × Option MErr :=
  if isRaw ga then
    let p := ga / 2 ^ 64 - 1
    if s.portLive p then (s.setHostBytes p (ga % 2 ^ 64) b, none) else (s, some .port)
  else s.write (agentDma n) upd (ga % 2 ^ 48) b

/-- Read the pieces of a source: a peer's bytes have come before. -/
def State.fetchPieces (s : State) (n : Nat) (got : Sparse Byte) : List (Nat × Nat) → State × Except MErr (List Byte)
  | [] => (s, .ok [])
  | (ga, k) :: r =>
    let y := if s.farGa ga then (s, .ok ((List.range k).map fun i => Sparse.get 0 got (ga + i))) else s.gaRead n ga k
    match y with
    | (s1, .error e) => (s1, .error e)
    | (s1, .ok b) => match s1.fetchPieces n got r with
      | (s2, .error e) => (s2, .error e)
      | (s2, .ok bs) => (s2, .ok (b ++ bs))

/-- Pieces of at most 512 bytes, what one packet carries (R260). -/
def packetPieces : Nat → Nat → Nat → List (Nat × Nat)
  | 0, _, _ => []
  | k + 1, ga, n => if n = 0 then [] else (ga, min n 512) :: packetPieces k (ga + 512) (n - 512)

def splitPackets (p : Nat × Nat) : List (Nat × Nat) := packetPieces (p.2 / 512 + 1) p.1 p.2

/-- Route of the channel's writes to a node. -/
def DmaBusy.route (b : DmaBusy) (node : Nat) : Option Route :=
  (b.routes.find? fun e => e.1 == node).map fun e => ⟨e.2.1, e.2.2.1, e.2.2.2⟩

def DmaBusy.fail (b : DmaBusy) (st : Nat) : DmaBusy := { b with status := if b.status = 0 then st else b.status }

/-- Note a written piece; one that follows the piece before joins it. -/
def joinPiece (l : List (Nat × Nat)) (ga n : Nat) : List (Nat × Nat) :=
  match l with
  | (a, m) :: r => if a + m = ga then (a, m + n) :: r else (ga, n) :: l
  | [] => [(ga, n)]

/-- The last `k` bytes written, latest piece first. -/
def lastBytes : Nat → List (Nat × Nat) → List (Nat × Nat)
  | _, [] => []
  | k, (a, m) :: r => if k ≤ m then [(a + m - k, k)] else (a, m) :: lastBytes (k - m) r

/-- The writes to a node keep the route of the first (R167); where it found none, they are lost. -/
def DmaBusy.routed (b : DmaBusy) (node : Nat) (t : Option Route) : DmaBusy :=
  match b.route node, t with
  | some _, _ => b
  | none, some t => { b with routes := (node, t.via, t.nm, t.gsel) :: b.routes }
  | none, none => b.fail 0x07

/-- Write packets to a peer, all on the route of the first (R167); a packet with no route is lost. -/
def State.sendWrites (s : State) (n : Nat) (b : DmaBusy) : List (Nat × Nat) → List Byte → State × DmaBusy
  | [], _ => (s, b)
  | (ga, k) :: r, bytes =>
    let node := ga / 2 ^ 48
    let p := { Packet.blank PT.write node s.node with
      tag := 0xFFFF, upd := b.cmd.upd, len := BitVec.ofNat 6 (k / 16), addr := BitVec.ofNat 40 (ga % 2 ^ 48 / 16)
      payload := bytes.take k }
    let y := s.inject p (b.route node) true (agentDma n)
    let b := b.routed node y.2
    y.1.sendWrites n { b with last := joinPiece b.last ga k } r (bytes.drop k)

/-- Bytes at an address of another node as slots of 16 bytes, each with the mask of the bytes it writes. -/
def maskedSlots (ga : Nat) (bytes : List Byte) : List (Nat × BitVec 16 × List Byte) :=
  let lead := ga % 16
  let slots := pieces (bytes.length + 16) 16 (List.replicate lead 0 ++ bytes)
  slots.zipIdx.map fun e =>
    let lo := if e.2 = 0 then lead else 0
    (ga / 16 * 16 + 16 * e.2, BitVec.ofNat 16 ((2 ^ (e.1.length - lo) - 1) * 2 ^ lo), e.1 ++ List.replicate (16 - e.1.length) 0)

/-- Write slots to a peer with their byte masks, all on the route of the first. -/
def State.sendMasked (s : State) (n : Nat) (b : DmaBusy) : List (Nat × BitVec 16 × List Byte) → State × DmaBusy
  | [] => (s, b)
  | (ga, mask, bytes) :: r =>
    let node := ga / 2 ^ 48
    let p := { Packet.blank PT.write node s.node with
      tag := mask, len := 1, addr := BitVec.ofNat 40 (ga % 2 ^ 48 / 16), payload := bytes }
    let y := s.inject p (b.route node) true (agentDma n)
    let b := b.routed node y.2
    y.1.sendMasked n { b with last := joinPiece b.last ga 16 } r

/-- Write the pieces of a destination. -/
def State.storePieces (s : State) (n : Nat) (b : DmaBusy) : List (Nat × Nat) → List Byte → State × DmaBusy
  | [], _ => (s, b)
  | (ga, k) :: r, bytes =>
    let y := if s.farGa ga then s.sendWrites n b (splitPackets (ga, k)) (bytes.take k)
      else match s.gaWrite n b.cmd.upd ga (bytes.take k) with
        | (s1, some e) => (s1, b.fail (errStatus e))
        | (s1, none) => (s1, { b with last := lastBytes 256 (joinPiece b.last ga k) })
    if y.2.status ≠ 0 then y else y.1.storePieces n y.2 r (bytes.drop k)

/-- The bytes of a move as its destination takes them. -/
def Turn.apply (t : Turn) (b : List Byte) : List Byte :=
  match t with
  | .none => b
  | .tile f => transposeTile f b
  | .entry => transposeEntry b

/-- Make moves up to the first that fails (R167): that one and those behind it are left. -/
def State.dmaMoveAll (s : State) (n : Nat) (b : DmaBusy) : List DMove → State × DmaBusy × List DMove
  | [] => (s, b, [])
  | m :: r => match s.fetchPieces n b.got m.src with
    | (s1, .error e) => (s1, b.fail (errStatus e), m :: r)
    | (s1, .ok x) =>
      let y := s1.storePieces n b m.dst (m.turn.apply x)
      if y.2.status ≠ 0 then (y.1, y.2, m :: r) else y.1.dmaMoveAll n y.2 r

/-- Bursts of 256 bytes in moves of tensor data, or of scale planes. -/
def burstsIn (ms : List DMove) (plane : Bool) : Nat :=
  (((ms.filter fun m => m.plane == plane).map fun m => (m.src.map (·.2)).sum).sum + 255) / 256

/-! ## Remote reads of a channel (R167, R262) -/

/-- The waiter code of a channel's remote reads. -/
def waitDma (n : Nat) : Nat := 8192 + n

/-- Send reads to peers while ids last; a read-back takes the route of the writes. -/
def State.dmaAsk (s : State) (n : Nat) (b : DmaBusy) : List (Nat × Nat) → State × DmaBusy
  | [] => (s, { b with need := [] })
  | (ga, k) :: r =>
    let node := ga / 2 ^ 48
    match s.startRead node (ga % 2 ^ 48) (k / 16) (waitDma n) (if b.moved then b.route node else none) b.moved (agentDma n) with
    | none => (s, { b with need := (ga, k) :: r })
    | some (s1, id) => s1.dmaAsk n { b with asked := b.asked ++ [(id, ga, k)] } r

/-- The data is there: it is moved, and the read-back at peers begins. -/
def State.dmaMove (s : State) (n : Nat) (b : DmaBusy) : State × DmaBusy :=
  let ms := s.dmaMoves n b.cmd
  let y : State × DmaBusy × List DMove := s.dmaMoveAll n { b with moved := true } ms
  let made := ms.take (ms.length - y.2.2.length)
  let b : DmaBusy := { y.2.1 with got := [], bursts := burstsIn made false + burstsIn made true }
  if b.status ≠ 0 then (y.1, b)
  else y.1.dmaAsk n b (((lastBytes 256 b.last).filter fun p => y.1.farGa p.1).flatMap splitPackets)

def State.setBusy (s : State) (n : Nat) (b : DmaBusy) : State := s.modDma n fun d => { d with busy := some b }

/-- SEQ's write of a shift map (R295): any bytes at any address, with its read-back at the peer (log entry 98). -/
def State.dmaShifts (s : State) (n : Nat) (b : DmaBusy) : State × DmaBusy :=
  match s.gaRead n b.cmd.src b.cmd.length with
  | (s1, .error e) => (s1, b.fail (errStatus e))
  | (s1, .ok l) =>
    let y := s1.sendMasked n { b with moved := true } (maskedSlots b.cmd.dst l)
    if y.2.status ≠ 0 then y else y.1.dmaAsk n y.2 ((lastBytes 256 y.2.last).flatMap splitPackets)

/-- A descriptor of SEQ's that writes a shift map. -/
def Issuer.isShifts : Issuer → Bool
  | .seq (.shifts _ _) => true
  | _ => false

/-- A descriptor begins: its checks, then its reads at peers or its moves at once. -/
def State.dmaStart (s : State) (n index : Nat) (c : DmaCmd) (is : Issuer) : State :=
  let s := s.setFld F.DMA_CHSTAT_BUSY 1 n
  let b : DmaBusy :=
    { cmd := c, issuer := is, status := 0, bursts := 0, moved := false, need := [], asked := [], got := [], last := [], routes := [] }
  if is.isShifts then (let y := s.dmaShifts n b; y.1.setBusy n y.2)
  else match s.dmaWalks c with
  | (s, true) => s.setBusy n (b.fail 0x07)
  | (s, false) =>
  match s.dmaCheck n c with
  | some (st, f) =>
    let s := match f with
      | some x => s.logFault (agentDma n) x.1 x.2
      | none => s
    let s := if st = 0x04 then
        ((s.setFld F.DMA_ALIGNLOG_CHAN n).setFld F.DMA_ALIGNLOG_INDEX index).count F.DMA_ALIGNCNT_COUNT 1
      else s
    s.setBusy n (b.fail st)
  | none =>
    if c.op = DO.nop then s.setBusy n { b with moved := true }
    else
      let far := ((s.dmaMoves n c).flatMap (·.src)).filter fun p => s.farGa p.1
      let y := if far.isEmpty then s.dmaMove n b else s.dmaAsk n b (far.flatMap splitPackets)
      y.1.setBusy n y.2

/-- Once every read at peers has returned, the moves are made. -/
def State.dmaGoOn (s : State) (n : Nat) (b : DmaBusy) : State × DmaBusy :=
  if b.asked.isEmpty && b.need.isEmpty && !b.moved && b.status == 0 then s.dmaMove n b else (s, b)

def putBytes (m : Sparse Byte) (k : Nat) : List Byte → Sparse Byte
  | [] => m
  | x :: r => putBytes (Sparse.put m k x) (k + 1) r

/-- The response to a channel's remote read: data, or a status other than OK, with the refusal bits (R261, R262). -/
def State.dmaResponse (s : State) (n id status : Nat) (pf other : Bool) (data : List Byte) : State :=
  match (s.dma n).busy with
  | none => s
  | some b => match b.asked.find? fun e => e.1 == id with
    | none => s
    | some e =>
      let b := { b with asked := b.asked.filter fun x => x.1 != id }
      let b := if status ≠ 0 ∨ data.length < e.2.2 then { b.fail 0x07 with need := [] }
        else if b.moved then (if pf then b.fail 0x0B else if other then b.fail 0x05 else b)
        else { b with got := putBytes b.got e.2.1 (data.take e.2.2) }
      let y := s.dmaAsk n b b.need
      let z := y.1.dmaGoOn n y.2
      z.1.setBusy n z.2

/-! ## Taking and completing -/

/-- CPLADDR cannot take the record (R476): the CAUSE, with the VA. -/
def State.dmaCplBad (s : State) (cpl : Nat) : Option (Nat × Nat) :=
  let va := cpl % 2 ^ 48
  if cpl / 2 ^ 48 ≠ s.node ∨ 2 ^ 48 < va + 16 then some (7, va) else s.checkRange .write false va 16

/-- The check of a completion address walks its entries first. -/
def State.dmaCplCheck (s : State) (cpl : Nat) : State × Option (Nat × Nat) :=
  let t := if cpl / 2 ^ 48 = s.node then (s.walkRanges [(.write, cpl % 2 ^ 48, 16)]).1 else s
  (t, t.dmaCplBad cpl)

/-- Where a channel is. -/
def dmaLoc (n : Nat) : Loc := match dieOfChannel n with | some k => mseLoc k | none => hostLoc

/-- The channel is idle and runs. -/
def State.dmaIdle (s : State) (n : Nat) : Bool :=
  s.mseRuns && !s.saf.logicBad.contains (dmaLoc n).die && (s.dma n).busy.isNone

/-- A MOVE of a pair bound to the channel can start. -/
def State.moveWaits (s : State) (n p q : Nat) : Bool :=
  (s.pair p q).fetched.any fun f =>
    descOp f.words == 1 && s.fld F.HIF_QCTL_CHAN p q == n && (s.startable p q f.id).isSome
      && (s.descCheck (s.pair p q).abi f.words).isNone

/-- A source of the channel has a descriptor for it: 0 its own ring, 1 + 256 p + q pair q of port p. -/
def State.dmaWaits (s : State) (n code : Nat) : Bool :=
  if code = 0 then !(s.dma n).seqQ.isEmpty || (!(s.dma n).stopped && s.ringHas dmaRing n 0)
  else s.moveWaits n ((code - 1) / 256) ((code - 1) % 256)

/-- Whose descriptor the channel takes next: in turn from its own ring and from each pair bound to it (R391). -/
def State.dmaNext (s : State) (n : Nat) : Option Nat :=
  ((List.range 513).map fun i => ((s.dma n).turn + i) % 513).find? (s.dmaWaits n)

/-- The turn passes on behind a source. -/
def State.dmaTurn (s : State) (n code : Nat) : State := s.modDma n fun d => { d with turn := (code + 1) % 513 }

/-- The channel takes the descriptor at the head of its ring, SEQ's own before it, where its opcode is one that `ok`
accepts. -/
def State.dmaTake (s : State) (n : Nat) (ok : Nat → Bool) : State :=
  if !s.mseRuns then s
  else s.onDie (dmaLoc n) <| if !s.dmaIdle n || s.dmaNext n != some 0 then s
  else match (s.dma n).seqQ with
    | (w, is) :: r =>
      if !ok (readDmaCmd w).op then s
      else ((s.modDma n fun d => { d with seqQ := r }).dmaTurn n 0).dmaStart n 0 (readDmaCmd w) is
    | [] =>
      if (s.dma n).stopped || !s.ringHas dmaRing n 0 then s
      else
        let i := s.ringHead dmaRing n 0
        match s.ringRead dmaRing n 0 (agentDma n) with
        | (s1, .error _) => s1.modDma n fun d => { d with stopped := true }
        | (s1, .ok w) =>
          let c := readDmaCmd w
          if !ok c.op then s
          else
            let s2 := (s1.ringPop dmaRing n 0).dmaTurn n 0
            match s2.dmaCplCheck c.cpl with
            | (s3, some f) => (s3.logFault (agentDma n) f.1 f.2).setFld F.DMA_CHSTAT_LAST 0x05 n
            | (s3, none) => s3.dmaStart n i c .ring

/-- DMA_NOP: a NOP, or a reserved opcode, which completes MALFORMED (R165). -/
def execDmaNop (n : Nat) (s : State) : Host.Outcome State Fault Refusal :=
  answer (isDma n) s fun s => s.dmaTake n fun op => op == DO.nop || decide (4 < op)

/-- LINEAR (R165). -/
def execDmaLinear (n : Nat) (s : State) : Host.Outcome State Fault Refusal :=
  answer (isDma n) s fun s => s.dmaTake n (· == DO.linear)

/-- TILE (R165, R170). -/
def execDmaTile (n : Nat) (s : State) : Host.Outcome State Fault Refusal :=
  answer (isDma n) s fun s => s.dmaTake n (· == DO.tile)

/-- TILE_SKEW (R168). -/
def execDmaTileSkew (n : Nat) (s : State) : Host.Outcome State Fault Refusal :=
  answer (isDma n) s fun s => s.dmaTake n (· == DO.skew)

/-- TILE_UNSKEW (R168). -/
def execDmaTileUnskew (n : Nat) (s : State) : Host.Outcome State Fault Refusal :=
  answer (isDma n) s fun s => s.dmaTake n (· == DO.unskew)

/-- DMA_CHTAIL_WRITE: new descriptors; a stopped channel resumes (R147, R162). -/
def State.dmaTailWrite (s : State) (n : Nat) (v : Word) : State :=
  s.ringTailWrite dmaRing n 0 v false

def execDmaChtailWrite (port n : Nat) (v : Word) (s : State) : Host.Outcome State Fault Refusal :=
  answer (isPort port && isDma n) s fun s => s.bar0Write port .DMA_CHTAIL n 0 fun s => s.dmaTailWrite n v

/-- Read back local and host pieces; the status of the first that fails (R179, R186), 0 where none does. -/
def State.readBack (s : State) (n : Nat) : List (Nat × Nat) → State × Nat
  | [] => (s, 0)
  | (ga, k) :: r => match s.gaRead n ga k with
    | (s1, .error e) => (s1, errStatus e)
    | (s1, .ok _) => s1.readBack n r

/-- The read-back of what lies on the own device and its hosts (R167). -/
def State.dmaReadBack (s : State) (n : Nat) (b : DmaBusy) (linkFail : Bool) : State × DmaBusy :=
  if b.status ≠ 0 then (s, b)
  else
    let y := s.readBack n ((lastBytes 256 b.last).filter fun p => !s.farGa p.1)
    let far := [b.cmd.src, b.cmd.dst].any fun a => s.farGa a || s.isHost a
    if y.2 ≠ 0 then (y.1, b.fail y.2)
    else if linkFail && b.cmd.op != DO.nop && far then (y.1, b.fail 0x07) else (y.1, b)

/-- The record of R167. -/
def DmaBusy.bytes (b : DmaBusy) : List Byte :=
  toBytes 8 b.cmd.tag.toNat ++ toBytes 1 b.status ++ toBytes 3 0 ++ toBytes 4 b.bursts

/-- A transfer ends: its record, or its issuer takes the result. -/
def State.dmaEnd (s : State) (n : Nat) (b : DmaBusy) : State :=
  let s := (s.modDma n fun d => { d with busy := none }).setFld F.DMA_CHSTAT_BUSY 0 n
  let s := s.setFld F.DMA_CHSTAT_LAST b.status n
  match b.issuer with
  | .ring => s.put (agentDma n) (b.cmd.cpl % 2 ^ 48) b.bytes
  | .seq (.gather k node) => (s.gatherDone k node false b.status).pump
  | .seq (.shifts k node) => (s.gatherDone k node true b.status).pump
  | .seq _ => s
  | .queue p q i => s.finished p q i b.status 0 0 (BitVec.ofNat 32 b.bursts)

/-- DMA_COMPLETE: nothing is outstanding, the read-back returns, and the transfer ends (R167). -/
def State.dmaComplete (s : State) (n : Nat) (linkFail : Bool) : State :=
  match (s.dma n).busy with
  | none => s
  | some b =>
    let y := s.dmaAsk n b b.need
    if !y.2.asked.isEmpty || !y.2.need.isEmpty then y.1.setBusy n y.2
    else
      let z := y.1.dmaReadBack n y.2 linkFail
      z.1.dmaEnd n z.2

def execDmaComplete (n : Nat) (linkFail : Bool) (s : State) : Host.Outcome State Fault Refusal :=
  answer (isDma n) s fun s => if s.mseRuns then s.dmaComplete n linkFail else s

end Sys2Proof.Machine
end

