-- ==== Sys2Proof/Machine/SeqCmds.lean ====
section
/-! DEFINITION. The commands of SEQ (Table 9.9) from SEQ.CMD and from queue pairs (R313, R314, R393), completion counters
(R308), SEQ's timers, the data ring's tail, and the end of a checkpoint. -/

namespace Sys2Proof.Machine

/-! ## Command codes and status (Tables 9.9, 9.10) -/

def CC.load : Nat := 1
def CC.start : Nat := 2
def CC.resume : Nat := 3
def CC.pause : Nat := 4
def CC.continue_ : Nat := 5
def CC.halt : Nat := 6
def CC.retry : Nat := 7
def CC.checkpoint : Nat := 8
def CC.unload : Nat := 9
def CC.hmput : Nat := 10

def CS.ok : Nat := 0
def CS.badState : Nat := 1
def CS.header : Nat := 2
def CS.limits : Nat := 3
def CS.members : Nat := 4
def CS.buckets : Nat := 5
def CS.read : Nat := 6
def CS.ckpt : Nat := 7
def CS.badCmd : Nat := 8

/-- The state with the status of a command. -/
abbrev CmdRes := State × Nat

/-! ## LOAD (R309 to R312) -/

/-- A member table entry (Table 9.1). -/
def memberOf (w : DWord) : Member :=
  { node := BitVec.ofNat 16 (dbits w 63 48), replica := BitVec.ofNat 16 (dbits w 47 32)
    shard := BitVec.ofNat 16 (dbits w 31 16), hm := dbit w 15 }

/-- A bucket table entry (Table 9.2). -/
def bucketOf (w : List DWord) : BucketEnt :=
  let f (i hi lo : Nat) : Nat := dbits (nth 0 w i) hi lo
  { size := (f 0 63 58 + 1) * 0x400000, wire := f 0 57 56, frozen := f 0 55 55 == 1, grad := f 0 47 0
    shard := BitVec.ofNat 16 (f 1 63 48), state := f 1 47 0, nuitem := f 2 63 48, uitems := f 2 47 0
    state64 := f 3 63 48, rslice := f 3 47 0, s1 := f 4 47 0, ww := f 5 47 0, wwsp := f 6 47 0, maps := f 7 47 0 }

/-- A tensor table entry (R312). -/
def tensorOf (w : List DWord) : TensorEnt :=
  { id := BitVec.ofNat 32 (dbits (nth 0 w 0) 63 32), pickle := dbits (nth 0 w 0) 31 28, spill := dbits (nth 0 w 0) 27 26
    area := nth 0 w 1, srcA := nth 0 w 2, srcB := nth 0 w 3 }

/-- Entries of `n` words each. -/
def tableOf {α : Type} (n : Nat) (f : List DWord → α) : Nat → List DWord → List α
  | 0, _ => []
  | k + 1, w => f (w.take n) :: tableOf n f k (w.drop n)

/-- A program from its header's words, without its tables (Table 9.8). -/
def progOf (w : List DWord) : Prog :=
  let f (i hi lo : Nat) : Nat := dbits (nth 0 w i) hi lo
  { nmb := f 1 63 48 + 1, depth := f 1 47 46 + 1, recomp := f 1 45 45 == 1, nsteps := f 1 31 0
    members := [], buckets := [], tensors := [], nsched := f 5 63 48, sched := f 5 47 0, pass := []
    status := f 7 47 0, drlog := f 8 63 60, dring := f 8 47 0, slotb := f 9 63 32, argStride := f 9 31 0
    inbuf := f 10 47 0, nstage := f 11 63 48, stage := f 11 47 0, stageb := f 12 63 32, ckEvery := f 12 31 0
    ckTgt := f 13 63 48, ckAddr := f 13 47 0, grow := f 14 63 48, lsmax := f 14 47 40, lsmin := f 14 39 32
    lsinit := f 14 31 24, seed := nth 0 w 15, loss := f 16 47 0, bstat := f 17 47 0, hmring := f 18 47 0
    hcrc := BitVec.ofNat 32 (f 31 31 0) }

/-- MAGIC, version and HCRC are right (R309, R310). -/
def headerOk (h : List Byte) (w : List DWord) : Bool :=
  dbits (nth 0 w 0) 63 32 == 0x53504733 && dbits (nth 0 w 0) 31 16 == 3 && dbits (nth 0 w 0) 15 0 == 0
    && dbits (nth 0 w 31) 31 0 == crc32c (h.take 0xF8)

/-- LSMIN ≤ LSINIT ≤ LSMAX, and LSMAX fits its register (R106). -/
def Prog.limitsOk (p : Prog) : Bool := decide (p.lsmin ≤ p.lsinit ∧ p.lsinit ≤ p.lsmax ∧ p.lsmax ≤ 63)

/-- Read a table of `n`-word entries. -/
def State.readTable {α : Type} (s : State) (va n k : Nat) (f : List DWord → α) : State × Option (List α) :=
  match s.readWords agentSeq va (n * k) with
  | (s1, .error _) => (s1, none)
  | (s1, .ok w) => (s1, some (tableOf n f k w))

/-- Read the tables that a header names; none where one is unreadable. -/
def State.readTables (s : State) (w : List DWord) (p : Prog) : State × Option Prog :=
  let f (i hi lo : Nat) : Nat := dbits (nth 0 w i) hi lo
  let m := s.readTable (f 2 47 0) 1 (f 2 63 48 + 1) fun e => memberOf (nth 0 e 0)
  let b := m.1.readTable (f 3 47 0) 8 (f 3 63 52 + 1) bucketOf
  let t := b.1.readTable (f 4 47 0) 4 (f 4 63 48) tensorOf
  let c := t.1.readTable (f 5 47 0) 8 (f 5 63 48) fun _ => ()
  let l := c.1.readTable (f 6 47 0) 2 (f 6 63 48) passEntry
  match m.2, b.2, t.2, c.2, l.2 with
  | some ms, some bs, some ts, some _, some ps => (l.1, some { p with members := ms, buckets := bs, tensors := ts, pass := ps })
  | _, _, _, _, _ => (l.1, none)

/-- One own entry, and in every group the same number of members in each chassis (R277, R278). -/
def State.membersOk (s : State) (p : Prog) : Bool :=
  (p.members.filter fun m => m.node.toNat == s.node).length == 1
    && p.members.all fun m =>
      let rs := p.rows m.shard
      rs.all fun r => r.length == (rs.headD []).length

/-- The size, slice and staging area of a bucket are right (R278, R280, R294). -/
def Prog.bucketOk (p : Prog) (e : BucketEnt) : Bool :=
  let g := ((p.rows e.shard).map (·.length)).sum
  let sl := e.size / g
  decide (0 < g) && e.size % g == 0 && sl % 4096 == 0 && decide (e.wire ≤ 2)
    && decide (stageOff sl + 0x10000 * e.state64 ≤ p.stageb)

/-- SEQ's own state with a program just loaded, or none. -/
def Seq.withProg (q : Seq) (p : Option Prog) : Seq :=
  { Seq.reset with
    prog := p, nextCnt := q.nextCnt, waitCmd := q.waitCmd, pendLscale := q.pendLscale, pendLsgrow := q.pendLsgrow
    pendFbctl := q.pendFbctl }

/-- LOAD: a refused program leaves the one that is loaded. -/
def State.cmdLoad (s : State) (arg : DWord) : CmdRes :=
  if s.seqState = SQ.running ∨ s.seqState = SQ.paused then (s, CS.badState)
  else match s.read agentSeq arg.toNat 256 with
    | (s1, .error _) => (s1, CS.read)
    | (s1, .ok h) =>
      let w := toWords 32 h
      if !headerOk h w then (s1, CS.header)
      else if !(progOf w).limitsOk then (s1, CS.limits)
      else match s1.readTables w (progOf w) with
        | (s2, none) => (s2, CS.read)
        | (s2, some p) =>
          if !s2.membersOk p then (s2, CS.members)
          else if !p.buckets.all p.bucketOk then (s2, CS.buckets)
          else
            let s3 := s2.leaveRun.modSeq fun q => q.withProg (some p)
            let s4 := ((s3.setSeqState SQ.loaded).setFld F.SEQ_STATE_CAUSE 0).settleFallBack
            let s5 := (s4.setReg .SEQ_STEP 0 0 0).setReg .SEQ_HMOUT 0 0 0
            (s5.writeStatus, CS.ok)

/-! ## START, RESUME, RETRY -/

/-- The header's loss-scale limits and GROW replace what the registers hold and what waits to go into them (R106). FLAGGED
starts at 0 (log entry 95). -/
def State.loadLimits (s : State) (p : Prog) : State :=
  let s := (s.setFld F.NUM_LSCALE_LSMIN p.lsmin).setFld F.NUM_LSCALE_LSMAX p.lsmax
  let s := (s.setFld F.NUM_LSCALE_LSINIT p.lsinit).setFld F.NUM_LSGROW_GROW p.grow
  (s.setFld F.NUM_FBSTAT_FLAGGED 0).modSeq fun q => { q with pendLscale := none, pendLsgrow := none }

def State.setSeed (s : State) (v : DWord) : State :=
  (s.setReg .NUM_STSEEDLO 0 0 (BitVec.ofNat 32 v.toNat)).setReg .NUM_STSEEDHI 0 0 (BitVec.ofNat 32 (v.toNat / 2 ^ 32))

/-- SEQ's own state as a run begins from a data ring position, a clean slate for gates. -/
def Seq.freshRun (q : Seq) (head : Nat) : Seq :=
  { q.rewind with
    drHead := head, seqNum := head, slotsIn := 0, slotsAhead := 0, half := false, dataWait := false, stepsRun := 0
    gatherIn := [], commitAt := [], gateAt := [], gathers := [], floorSkips := 0, skipWindow := []
    fbAuto := false, fbHold := 0, fbSteps := 0, ups := [] }

/-- START (R106); with FORCE = 1 the fall-back is entered (R112). -/
def State.cmdStart (s : State) (arg : DWord) : CmdRes :=
  if s.seqState ≠ SQ.loaded then (s, CS.badState)
  else match s.seq.prog with
    | none => (s, CS.badState)
    | some p =>
      let s := (s.loadLimits p).setSeed p.seed
      let s := (s.setFld F.NUM_LSCALE_LSEXP p.lsinit).setReg .NUM_LSSTAT 0 0 0
      let s := ((s.setReg .SEQ_STEP 0 0 (BitVec.ofNat 32 arg.toNat)).modSeq fun q => q.freshRun 0)
      (s.settleFallBack.enterRun .start (BitVec.ofNat 32 arg.toNat), CS.ok)

/-- Header fields of a checkpoint go back into the registers and SEQ (Table 9.14); FORCE enters the fall-back that the
checkpoint was not in (R112). -/
def State.restoreHeader (s : State) (w : List DWord) : State :=
  let f (i hi lo : Nat) : Nat := dbits (nth 0 w i) hi lo
  let s := (s.setFld F.NUM_LSSTAT_CLEAN (f 3 63 48)).setFld F.NUM_LSSTAT_SKIPS (f 3 47 32)
  let s := (s.setFld F.NUM_LSCALE_LSEXP (f 3 29 24)).setFld F.NUM_FBSTAT_ACTIVE (f 3 16 16)
  let s := (s.setSeed (nth 0 w 4)).setReg .SEQ_STEP 0 0 (BitVec.ofNat 32 (nth 0 w 1).toNat)
  let auto_ := f 3 16 16 == 1 && !s.flag F.NUM_FBCTL_FORCE
  (s.modSeq fun q => { q.freshRun (nth 0 w 5).toNat with fbAuto := auto_, fbHold := f 3 15 0 }).settleFallBack

/-- RESUME (R318, R319). -/
def State.cmdResume (s : State) (arg : DWord) : CmdRes :=
  if s.seqState ≠ SQ.loaded ∧ s.seqState ≠ SQ.halted then (s, CS.badState)
  else match s.ex with
    | none => (s, CS.ckpt)
    | some x => match s.readCheckpoint x arg.toNat with
      | (s1, none) => (s1, CS.ckpt)
      | (s1, some (w, rs)) =>
        let s2 := s1.leaveRun.loadLimits x.p
        let s3 := (rs.foldl (fun s r => s.restoreRecord x r) s2).restoreHeader w
        (s3.enterRun .resume (BitVec.ofNat 32 (nth 0 w 1).toNat), CS.ok)

/-- What a RETRY's run begins with: the working weights, where a RESUME has halted before they were all there (R318). -/
def State.retryUse (s : State) : BarUse := if s.seq.resumeHold then .resume else .retry

/-- RETRY: the halted step from its held inputs. -/
def State.cmdRetry (s : State) : CmdRes :=
  match s.seq.prog with
  | none => (s, CS.badState)
  | some p =>
    if s.seqState ≠ SQ.halted then (s, CS.badState)
    else ((s.leaveForRetry p).enterRun s.retryUse (s.reg .SEQ_STEP 0 0), CS.ok)

/-! ## The other commands -/

def State.cmdPause (s : State) : CmdRes :=
  if s.isRunning then (s.modSeq fun q => { q with pauseReq := true }, CS.ok) else (s, CS.badState)

def State.cmdContinue (s : State) : CmdRes :=
  if s.seqState = SQ.paused then ((s.setSeqState SQ.running).writeStatus, CS.ok) else (s, CS.badState)

def State.cmdHalt (s : State) : CmdRes :=
  if s.seqState = SQ.running ∨ s.seqState = SQ.paused then (s.halt HC.host (BitVec.ofNat 16 s.node), CS.ok)
  else (s, CS.badState)

def State.cmdCheckpoint (s : State) : CmdRes :=
  if s.isRunning then (s.modSeq fun q => { q with ckptReq := true }, CS.ok)
  else if s.seqState = SQ.paused then
    (match s.ex with
      | some x => s.startCheckpoint x
      | none => s, CS.ok)
  else (s, CS.badState)

/-- UNLOAD; with no program the fall-back is in force by FORCE alone (log entry 95). -/
def State.cmdUnload (s : State) : CmdRes :=
  if s.seqState = SQ.loaded ∨ s.seqState = SQ.paused ∨ s.seqState = SQ.halted then
    let s := ((s.leaveRun.setSeqState SQ.idle).setFld F.SEQ_STATE_CAUSE 0).writeStatus
    ((s.modSeq fun q => q.withProg none).settleFallBack, CS.ok)
  else (s, CS.badState)

/-- DRAINED of an HM contributor reaches the owner (R305). -/
def State.drainedFrom (s : State) (x : Ex) (n : BitVec 16) (b : Nat) : State :=
  let st := x.stageOf n
  (s.modRange b st fun r => { r with draining := r.draining.filter (· != n) }).drained x b st

/-- The verdict of an HM member's UP or of the DOWN for one, from argument bytes 0 to 3 (R305). Its bucket is not carried
(Table 9.7); NONFIN is taken for that of a bucket of the node that sent it (log entry 93). -/
def hmVerdict (src : BitVec 16) (a : Nat) : Verdict :=
  { nonfin := a.testBit 0, fault := a.testBit 1, lsexp := a / 256 % 256, round := a / 65536 % 65536
    bucket := 0xFFFF, owner := if a.testBit 0 then src else 0xFFFF, members := 1 }

/-- STOP of an owner (R305): nothing more goes to it for the bucket until its RESEND, and DRAINED follows once what is under
way has left. -/
def State.stopFrom (s : State) (x : Ex) (owner : BitVec 16) (b : Nat) (step : Word) : State :=
  let st := x.stageOf owner
  let s := if step = BitVec.ofNat 32 s.stepNo then s.modBucket b fun k =>
      match k.part st owner with
      | some p => k.setPart { p with due := false }
      | none => k.setPart { st := st, dst := owner, clean := false, epoch := 0, due := false }
    else s
  s.modSeq fun q => { q with stops := if q.stops.contains (owner, b, step) then q.stops else q.stops ++ [(owner, b, step)] }

/-- A host-mediated record is delivered to the SEQ it is bound for (R305). -/
def State.hmDeliver (s : State) (w0 w1 : DWord) : State :=
  match s.ex with
  | none => s
  | some x =>
    let src := BitVec.ofNat 16 (dbits w1 63 48)
    let b := dbits w0 55 44
    let tag := if b = 0xFFF then 0xFFFF else b
    let step := BitVec.ofNat 32 (dbits w0 31 0)
    let arg := dbits w1 31 0
    if dbits w1 47 32 ≠ s.node then s
    else match dbits w0 63 56 with
      | 0x51 => s.cleanFrom src b step
      | 0x52 => s.upFrom src step (hmVerdict src arg)
      | 0x53 => s.downFrom src step (hmVerdict src arg)
      | 0x61 | 0x62 | 0x63 => s.retractFrom src tag step
      | 0x71 => s.resendFrom src b step (arg % 65536)
      | 0xF0 => (s.stopFrom x src b step).answerStops
      | 0xF1 => s.drainedFrom x src b
      | _ => s

def State.cmdHmput (s : State) (w0 w1 : DWord) : CmdRes :=
  if s.isRunning then (s.hmDeliver w0 w1, CS.ok) else (s, CS.badState)

/-- A node that is fenced: the device itself (R330), or a member that the chassis map shows so (R303). -/
def State.fencedNode (s : State) : Option (BitVec 16) :=
  if s.safe then some (BitVec.ofNat 16 s.node)
  else match s.seq.prog with
    | none => none
    | some p => (p.members.find? fun m =>
        m.node.toNat / 64 == s.chassis && (Sparse.find s.net.map (m.node.toNat % 64 * 128 + 127)).any fun e => e.1 == 6).map (·.node)

/-- A command of SEQ runs: its effect, and CMDST. A program that would run with a fenced member halts at once (R303). -/
def State.runSeqCmd (s : State) (code : Nat) (arg w0 w1 : DWord) : State :=
  let y : CmdRes := match code with
    | 1 => s.cmdLoad arg
    | 2 => s.cmdStart arg
    | 3 => s.cmdResume arg
    | 4 => s.cmdPause
    | 5 => s.cmdContinue
    | 6 => s.cmdHalt
    | 7 => s.cmdRetry
    | 8 => s.cmdCheckpoint
    | 9 => s.cmdUnload
    | 10 => s.cmdHmput w0 w1
    | _ => (s, CS.badCmd)
  let s1 := y.1.setFld F.SEQ_STATE_CMDST y.2
  if !s1.isRunning then s1
  else match s1.fencedNode with
    | some n => s1.halt HC.fenced n
    | none => s1.pump

/-! ## The two paths of a command (R314, R393) -/

def State.seqArg (s : State) : DWord :=
  BitVec.ofNat 64 ((s.reg .SEQ_ARGHI 0 0).toNat * 2 ^ 32 + (s.reg .SEQ_ARGLO 0 0).toNat)

/-- Words 0 and 1 of SEQ.HMIN. -/
def State.hmIn (s : State) (i : Nat) : DWord :=
  BitVec.ofNat 64 ((s.reg .SEQ_HMIN (2 * i + 1) 0).toNat * 2 ^ 32 + (s.reg .SEQ_HMIN (2 * i) 0).toNat)

/-- A write of SEQ.CMD: ignored while BUSY; before READY the command waits with BUSY set (R443). -/
def State.seqCmdWrite (s : State) (code : Nat) : State :=
  if s.flag F.SEQ_CMD_BUSY then s.setFld F.SEQ_CMD_DROP 1
  else if !s.ready || s.wipeMark.isSome then (s.setFld F.SEQ_CMD_BUSY 1).modSeq fun q => { q with waitCmd := some (code, s.seqArg) }
  else s.runSeqCmd code s.seqArg (s.hmIn 0) (s.hmIn 1)

def State.seqBar0 (s : State) (port code : Nat) : State := s.bar0Write port .SEQ_CMD 0 0 fun s => s.seqCmdWrite code

/-- READY has come: a command that waited for it runs. -/
def State.seqReady (s : State) : State :=
  match s.seq.waitCmd with
  | none => s
  | some (code, arg) =>
    let s := (s.setFld F.SEQ_CMD_BUSY 0).modSeq fun q => { q with waitCmd := none }
    s.runSeqCmd code arg (s.hmIn 0) (s.hmIn 1)

/-- CODE of a SEQ descriptor. -/
def descCode (w : List DWord) : Nat := dbits (nth 0 w 0) 39 32

/-- A SEQ descriptor runs its command: CMDST goes into CNT and the state into VAL; a pair with ABI 2 knows no HMPUT. -/
def State.seqDesc (s : State) (p q i : Nat) (d : Fetched) : State :=
  let code := if (s.pair p q).abi = 2 ∧ descCode d.words = CC.hmput then 0xFF else descCode d.words
  let s1 := (s.started p q i).runSeqCmd code (nth 0 d.words 1) (nth 0 d.words 2) (nth 0 d.words 3)
  s1.finished p q i 0 0 (BitVec.ofNat 32 s1.seqState) (BitVec.ofNat 32 (s1.fld F.SEQ_STATE_CMDST))

/-- A command row: from SEQ.CMD, or descriptor `i` of a pair where it carries the row's code. -/
def State.seqRow (s : State) (src : CmdSrc) (code : Nat) : State :=
  match src with
  | .bar0 port => s.seqBar0 port code
  | .queue p q i =>
    match s.startable p q i with
    | none => s
    | some d =>
      if descOp d.words ≠ 3 ∨ descCode d.words ≠ code ∨ s.flag F.SEQ_CMD_BUSY ∨ s.wipeMark.isSome then s
      else match s.descCheck (s.pair p q).abi d.words with
        | some st => s.finished p q i st 0 0 0
        | none => s.seqDesc p q i d

def execSeqLoad (src : CmdSrc) (s : State) : Host.Outcome State Fault Refusal :=
  answer src.ok s fun s => s.seqRow src CC.load

def execSeqStart (src : CmdSrc) (s : State) : Host.Outcome State Fault Refusal :=
  answer src.ok s fun s => s.seqRow src CC.start

def execSeqResume (src : CmdSrc) (s : State) : Host.Outcome State Fault Refusal :=
  answer src.ok s fun s => s.seqRow src CC.resume

def execSeqPause (src : CmdSrc) (s : State) : Host.Outcome State Fault Refusal :=
  answer src.ok s fun s => s.seqRow src CC.pause

def execSeqContinue (src : CmdSrc) (s : State) : Host.Outcome State Fault Refusal :=
  answer src.ok s fun s => s.seqRow src CC.continue_

def execSeqHalt (src : CmdSrc) (s : State) : Host.Outcome State Fault Refusal :=
  answer src.ok s fun s => s.seqRow src CC.halt

def execSeqRetry (src : CmdSrc) (s : State) : Host.Outcome State Fault Refusal :=
  answer src.ok s fun s => s.seqRow src CC.retry

def execSeqCheckpoint (src : CmdSrc) (s : State) : Host.Outcome State Fault Refusal :=
  answer src.ok s fun s => s.seqRow src CC.checkpoint

def execSeqUnload (src : CmdSrc) (s : State) : Host.Outcome State Fault Refusal :=
  answer src.ok s fun s => s.seqRow src CC.unload

def execSeqHmput (src : CmdSrc) (s : State) : Host.Outcome State Fault Refusal :=
  answer src.ok s fun s => s.seqRow src CC.hmput

/-! ## Counters, timers, the data ring and checkpoints -/

/-- A die's increment of a counter is due: every item that the counter has on it has completed (R308). -/
def State.incrementDue (s : State) (die cnt : Nat) : Option (Counter × Nat) :=
  (s.seq.counters.find? fun k => k.id == cnt).bind fun k =>
    (k.left.find? fun e => e.1 == die && e.2.1 == 0).map fun e => (k, e.2.2)

def execCounterIncrement (die cnt : Nat) (s : State) : Host.Outcome State Fault Refusal :=
  answer (decide (die < 4)) s fun s =>
    match s.ex, s.incrementDue die cnt with
    | some x, some (k, st) => if s.inStep then (s.counterStep x k die st).pump else s
    | _, _ => s

/-- The end of a checkpoint: CKPTDONE, or CKPTFAIL where it has failed (R318). -/
def State.endCheckpoint (s : State) (ok : Bool) : State :=
  let s := s.modSeq fun q => { q with ckptBusy := false, ckptHead := false }
  let s := if ok then (s.modSeq fun q => { q with ckStep := BitVec.ofNat 32 s.stepNo }).event EV.ckptdone s.stepNo
    else s.event EV.ckptfail s.stepNo
  s.writeStatus

/-- The writes of a checkpoint that were under way have completed, on a halted member too. To memory, its records and then its
header go out; on NVMe the header's Write follows the Flush, and the checkpoint ends with its completion (R318, R320). -/
def State.checkpointStep (s : State) (x : Ex) (ok : Bool) : State :=
  if x.p.ckTgt ≠ 1 then
    let y := if ok then s.saveCheckpoint x else (s, false)
    y.1.endCheckpoint y.2
  else
    let y := s.nvmeReap x
    if !(ok && y.2 && !y.1.seq.ckptBad) then y.1.endCheckpoint false
    else if y.1.seq.ckptHead then y.1.endCheckpoint true
    else
      let z := y.1.nvmeHeader x
      if z.2 then z.1.modSeq fun q => { q with ckptHead := true } else z.1.endCheckpoint false

def execCheckpointWriteComplete (ok : Bool) (s : State) : Host.Outcome State Fault Refusal :=
  answer true s fun s =>
    match s.ex with
    | some x => if s.seq.ckptBusy then (s.checkpointStep x ok).pump else s
    | none => s

/-- SEAL_TIMEOUT: the device's buckets are full and no result has been released (R303). -/
def execSealTimeout (s : State) : Host.Outcome State Fault Refusal :=
  answer true s fun s =>
    match s.seq.prog with
    | some p => if s.isRunning && s.allFull p && !s.seq.applied then s.halt HC.sealto (BitVec.ofNat 16 s.node) else s
    | none => s

/-- The step leader waits for the UP of an HM member (R305). -/
def State.waitsHm (s : State) (x : Ex) : Bool :=
  s.isRunning && s.seq.entered && !s.seq.applied && x.p.stepLeader == x.me.node
    && x.p.members.any fun m => m.hm && (s.upOf m.node).isNone

def execHmTimeout (s : State) : Host.Outcome State Fault Refusal :=
  answer true s fun s =>
    match s.ex with
    | some x => if s.waitsHm x then s.halt HC.hmto x.me.node else s
    | none => s

/-- HM_REOPEN_WAIT_END: the closed range of a bucket is opened anew (R305). -/
def execHmReopenWaitEnd (bucket : Nat) (s : State) : Host.Outcome State Fault Refusal :=
  answer true s fun s =>
    match s.ex with
    | none => s
    | some x =>
      if !s.isRunning then s
      else (x.stages.foldl (fun s st => match s.bucket bucket with
        | some k => if (k.r st).phase == .waiting then s.modRange bucket st RangeSt.reopen else s
        | none => s) s).pump

/-- REPLAYING_TIMER: the step leader announces the replays again (R300). -/
def execReplayingTimer (s : State) : Host.Outcome State Fault Refusal :=
  answer true s fun s =>
    match s.ex with
    | some x => if s.isRunning then s.seq.announce.foldl (fun s r => s.messageDown x.p msgReplaying r.1.toNat) s else s
    | none => s

/-- STEP_STATUS_TIMER: word 0x000 of the step status block is written again (R316). -/
def execStepStatusTimer (s : State) : Host.Outcome State Fault Refusal :=
  answer true s fun s =>
    match s.seq.prog with
    | some p => if s.isRunning then s.put agentSeq p.status (toBytes 8 s.stepWord) else s
    | none => s

/-- A write of SEQ.DRTAIL hands data ring entries to SEQ; one that adds none leaves a wait as it is (R315). -/
def State.drtailWrite (s : State) (v : Word) : State :=
  let more := v != s.reg .SEQ_DRTAIL 0 0 && v.toNat != s.seq.drHead % 2 ^ 32
  ((s.setReg .SEQ_DRTAIL 0 0 v).modSeq fun q => { q with dataWait := q.dataWait && !more }).pump

/-- DRTAIL_WRITE: the host has written the entries before. -/
def execDrtailWrite (port : Nat) (v : Word) (hw : List HostWrite) (s : State) : Host.Outcome State Fault Refusal :=
  answer (isPort port) s fun s =>
    (s.hostWrote hw).bar0Write port .SEQ_DRTAIL 0 0 fun s => s.drtailWrite v

end Sys2Proof.Machine
end

