-- ==== Sys2Proof/Machine/HostQueues.lean ====
section
/-! DEFINITION. The queue pairs of the host ports (spec/12 R383 to R399): enabling and draining, doorbells, fetching,
the descriptors NOP, MOVE, MSE and MARK, completion entries and status blocks. -/

namespace Sys2Proof.Machine

/-- HIF.QSTAT.STATE (Table 12.15). -/
def QS.disabled : Nat := 0
def QS.enabled : Nat := 1
def QS.error : Nat := 2
def QS.draining : Nat := 3
def QS.revoked : Nat := 4

def State.qState (s : State) (p q : Nat) : Nat := s.fld F.HIF_QSTAT_STATE p q
def State.qEnabled (s : State) (p q : Nat) : Bool := s.qState p q == QS.enabled

/-- HIF.QSTAT.OUT shows the descriptors fetched and not completed. -/
def State.showOut (s : State) (p q : Nat) : State := s.setFld F.HIF_QSTAT_OUT (s.pair p q).fetched.length p q

/-! ## The state of a pair (R384, R398) -/

/-- A change of a pair's state, with the block that tells it. -/
def State.setQState (s : State) (p q st err : Nat) : State :=
  ((s.setFld F.HIF_QSTAT_STATE st p q).setFld F.HIF_QSTAT_ERR err p q).writeBlock p q

/-! ## Enabling and draining (R384, R385) -/

/-- The first check that an enabling fails, as the ERR code of Table 12.15; 0 where all pass. -/
def State.enableErr (s : State) (p q : Nat) : Nat :=
  let abi := s.fld F.HIF_QCTL_ABI p q
  let sq := s.fld F.HIF_QCTL_SQLOG p q
  let cq := s.fld F.HIF_QCTL_CQLOG p q
  if !(s.fld F.HIF_CAP_ABIMASK).testBit abi then 1
  else if sq < 4 ∨ 12 < sq ∨ cq < 4 ∨ 12 < cq then 2
  else if s.isStandby p then 6
  else 0

/-- An enabled pair starts with empty rings. -/
def Pair.fresh (x : Pair) (abi : Nat) : Pair :=
  { x with
    abi := abi, sqHead := 0, sqTail := 0, cqHead := 0, cqTail := 0, doneCount := 0, sqDb := 0, cqDb := 0 }

/-- A write of HIF.QCTL with EN = 1 on a disabled pair: checked in the order of the ERR codes. -/
def State.enablePair (s : State) (p q : Nat) (v : Word) : State :=
  if s.flag F.HIF_QCTL_EN p q || s.qState p q != QS.disabled then s
  else
    let s := s.setReg .HIF_QCTL p q ((Reg.HIF_QCTL).written (s.reg .HIF_QCTL p q) v)
    let s := s.setFld F.HIF_QCTL_EN 1 p q
    match s.enableErr p q with
    | 0 => (s.modPair p q fun x => x.fresh (s.fld F.HIF_QCTL_ABI p q)).setQState p q QS.enabled 0
    | e => (s.modPair p q fun x => { x with abi := s.fld F.HIF_QCTL_ABI p q }).setQState p q QS.error e

/-- The write reaches the pair: its own port's (R403). A standby port's is checked and fails (ERR 6). -/
def State.qctlWrite (s : State) (port tgt : Nat) : Bool := s.barLive port && port == tgt

def execQueueEnable (port tgt q : Nat) (v : Word) (s : State) : Host.Outcome State Fault Refusal :=
  answer (isPort port && isPort tgt && isPair q) s fun s => if s.qctlWrite port tgt then s.enablePair tgt q v else s

/-- The pair stops fetching toward a revocation: it drains with EN still 1 (R405). -/
def State.isRevoking (s : State) (p q : Nat) : Bool := s.qState p q == QS.draining && s.flag F.HIF_QCTL_EN p q

/-- CLAIMED is raised on the former active port once its last pair is revoked. -/
def State.claimedDue (s : State) (p : Nat) : State :=
  if !s.isStandby p || (List.range 256).any fun q => s.isRevoking p q then s else s.raiseAlert p 4

/-- A draining pair that has completed everything becomes disabled, or revoked after a claim. -/
def State.pairDrained (s : State) (p q : Nat) : State :=
  if s.qState p q != QS.draining || !(s.pair p q).fetched.isEmpty then s
  else if s.flag F.HIF_QCTL_EN p q then (s.setQState p q QS.revoked 0).claimedDue p
  else s.setQState p q QS.disabled 0

/-- A write of EN = 0. -/
def State.disablePair (s : State) (p q : Nat) : State :=
  if !s.flag F.HIF_QCTL_EN p q then s
  else
    let rev := s.isRevoking p q
    let s := (s.setFld F.HIF_QCTL_EN 0 p q).setQState p q QS.draining 0
    (if rev then s.claimedDue p else s).pairDrained p q

def execQueueDisable (port tgt q : Nat) (s : State) : Host.Outcome State Fault Refusal :=
  answer (isPort port && isPort tgt && isPair q) s fun s =>
    s.bar0Write port .HIF_QCTL tgt q fun s => s.disablePair tgt q

/-! ## Doorbells (R385, R386) -/

/-- A doorbell write reaches an enabled pair. -/
def State.doorbell (s : State) (p q : Nat) : Bool := s.barLive p && s.qEnabled p q

def State.sqBell (s : State) (p q : Nat) (v : Word) : State :=
  if !s.doorbell p q || (s.pair p q).sqDb == v then s
  else if s.sqSize p q ≤ v.toNat then s.setQState p q QS.error 3
  else s.modPair p q fun x => { x with sqTail := v.toNat, sqDb := v }

/-- The entries between the completion head and a value, modulo the ring; those that wait. -/
def Pair.waitingCq (x : Pair) (n : Nat) : Nat := (x.cqTail + n - x.cqHead) % n

def State.cqBell (s : State) (p q : Nat) (v : Word) : State :=
  let x := s.pair p q
  let n := s.cqSize p q
  if !s.doorbell p q || x.cqDb == v then s
  else if n ≤ v.toNat ∨ x.waitingCq n < (v.toNat + n - x.cqHead) % n then s.setQState p q QS.error 5
  else s.modPair p q fun x => { x with cqHead := v.toNat, cqDb := v }

def execSqDoorbell (port q : Nat) (v : Word) (hw : List HostWrite) (s : State) : Host.Outcome State Fault Refusal :=
  answer (isPort port && isPair q) s fun s => (s.hostWrote hw).sqBell port q v

def execCqDoorbell (port q : Nat) (v : Word) (s : State) : Host.Outcome State Fault Refusal :=
  answer (isPort port && isPair q) s fun s => s.cqBell port q v

/-! ## Fetching (R387, R443) -/

/-- The device fetches for its pairs: at READY, and not while a tenant wipe is pending (R431). -/
def State.fetches (s : State) : Bool := s.ready && s.diesUp && s.wipeMark.isNone

/-- A pair has descriptors to fetch and room for them. -/
def State.fetchable (s : State) (p q : Nat) : Bool :=
  let x := s.pair p q
  s.qEnabled p q && x.sqHead != x.sqTail && decide (x.fetched.length < 64)

/-- The enabled pair of a port that is served next. -/
def State.nextPair (s : State) (p : Nat) : Option Nat :=
  ((List.range 256).map fun i => ((s.port p).turn + i) % 256).find? (s.fetchable p)

/-- Descriptors of one read request: up to 8, those announced, up to the ring's end, and at most 64 in hand. -/
def State.fetchCount (s : State) (p q : Nat) : Nat :=
  let x := s.pair p q
  let n := s.sqSize p q
  min (min 8 ((x.sqTail + n - x.sqHead) % n)) (min (n - x.sqHead) (64 - x.fetched.length))

def Fetched.fresh (id idx : Nat) (w : List DWord) : Fetched :=
  { id := id, idx := idx, words := w, started := false, finished := false, status := 0, flags := 0, val := 0, cnt := 0
    dies := [], results := [], dropped := false }

/-- Fetch descriptors of a pair. -/
def State.fetchDescs (s : State) (p q k : Nat) : State :=
  let x := s.pair p q
  let base := s.qBase .HIF_QSQLO .HIF_QSQHI p q
  let new := (List.range k).map fun i =>
    Fetched.fresh (x.nextId + i) (x.sqHead + i) (toWords 8 (s.hostBytes p (base + 64 * (x.sqHead + i)) 64))
  (s.modPair p q fun y => { y with
    fetched := y.fetched ++ new, nextId := y.nextId + k, sqHead := (y.sqHead + k) % s.sqSize p q }).showOut p q

def State.descriptorFetch (s : State) (p q : Nat) (fail : Bool) : State :=
  if !s.fetches || s.nextPair p != some q then s
  else
    let s := s.modPort p fun x => { x with turn := (q + 1) % 256 }
    if !s.portLive p then s.setQState p q QS.error 4
    else if fail then (s.readFailed p).setQState p q QS.error 4
    else s.fetchDescs p q (s.fetchCount p q)

def execDescriptorFetch (port q : Nat) (fail : Bool) (s : State) : Host.Outcome State Fault Refusal :=
  answer (isPort port && isPair q) s fun s => s.descriptorFetch port q fail

/-! ## The descriptors (R390 to R395) -/

/-- NOP; a reserved OP completes BADOP here, and a SEQ descriptor with a reserved CODE gives BADCMD. -/
def State.queueNop (s : State) (p q i : Nat) : State :=
  match s.startable p q i with
  | none => s
  | some d =>
    let op := descOp d.words
    if op = 0 ∨ 4 < op then
      match s.descCheck (s.pair p q).abi d.words with
      | some st => s.finished p q i st 0 0 0
      | none => s.finished p q i 0 0 0 0
    else if op = 3 ∧ (descCode d.words = 0 ∨ 10 < descCode d.words) ∧ !s.flag F.SEQ_CMD_BUSY then
      match s.descCheck (s.pair p q).abi d.words with
      | some st => s.finished p q i st 0 0 0
      | none => s.seqDesc p q i d
    else s

def execQueueNop (port q i : Nat) (s : State) : Host.Outcome State Fault Refusal :=
  answer (isPort port && isPair q) s fun s => s.queueNop port q i

/-- A MOVE of ABI 3 (Table 12.4) as a DMA descriptor. -/
def moveCmd3 (w : List DWord) : DmaCmd :=
  let f (i hi lo : Nat) : Nat := dbits (nth 0 w i) hi lo
  let g (i : Nat) : Nat := (nth 0 w i).toNat
  { op := (if f 0 53 50 = 0 then 0xFF else f 0 53 50), fmt := f 0 49 46, transpose := f 0 45 45 == 1, homed := false, upd := false
    trows := f 3 31 16, tcols := f 3 15 0, src := g 1, dst := g 2, length := f 3 63 32, ssp := g 4, dsp := g 5
    cpl := 0, tag := 0, rsvd := false }

/-- HOST and DEV of a MOVE of ABI 2 (Table 12.12), and its direction: device to host. -/
def moveDev (w : List DWord) : Nat := dbits (nth 0 w 2) 47 0
def moveOut (w : List DWord) : Bool := dbit (nth 0 w 0) 53

/-- A MOVE of ABI 2: linear, its host side an untranslated bus address. -/
def State.moveCmd2 (s : State) (p : Nat) (w : List DWord) : DmaCmd :=
  let h := rawHost p (nth 0 w 1).toNat
  let d := s.node * 2 ^ 48 + moveDev w
  { op := DO.linear, fmt := 0, transpose := false, homed := false, upd := false, trows := 0, tcols := 0
    src := if moveOut w then d else h, dst := if moveOut w then h else d, length := dbits (nth 0 w 3) 63 32
    ssp := noGa, dsp := noGa, cpl := 0, tag := 0, rsvd := false }

def State.moveCmd (s : State) (p q : Nat) (w : List DWord) : DmaCmd :=
  if (s.pair p q).abi = 2 then s.moveCmd2 p w else moveCmd3 w

/-- The device side of an ABI 2 MOVE leaves the HBM window. -/
def moveBeyond (abi : Nat) (w : List DWord) : Bool :=
  abi == 2 && decide (hbmWindow < moveDev w + dbits (nth 0 w 3) 63 32)

/-- A descriptor of a pair on its channel that fails with a status before anything moves. -/
def State.moveFails (s : State) (n : Nat) (c : DmaCmd) (is : Issuer) (st : Nat) : State :=
  (s.setFld F.DMA_CHSTAT_BUSY 1 n).setBusy n
    { cmd := c, issuer := is, status := st, bursts := 0, moved := false, need := [], asked := [], got := [], last := [], routes := [] }

/-- A MOVE on its channel; `fail`: a read of host memory fails (R379), of the source before anything moves, or of the
read-back. -/
def State.moveOn (s : State) (n : Nat) (c : DmaCmd) (d : Fetched) (is : Issuer) (beyond fail : Bool) : State :=
  match s.dmaCheck n c with
  | some (st, _) =>
    if beyond && decide (4 < st) then s.moveFails n c is 0x05
    else s.dmaStart n d.idx c is
  | none =>
    if beyond then s.moveFails n c is 0x05
    else if fail && s.isHost c.src then s.moveFails n c is 0x07
    else
      let s := s.dmaStart n d.idx c is
      if fail && s.isHost c.dst then s.modDma n fun x => { x with busy := x.busy.map (·.fail 0x07) } else s

/-- MOVE: the pair's channel takes it in its turn. -/
def State.queueMove (s : State) (p q i : Nat) (fail : Bool) : State :=
  let n := s.fld F.HIF_QCTL_CHAN p q
  match s.startable p q i with
  | none => s
  | some d =>
    if descOp d.words ≠ 1 then s
    else match s.descCheck (s.pair p q).abi d.words with
      | some st => s.finished p q i st 0 0 0
      | none =>
        if !s.dmaIdle n || s.dmaNext n != some (1 + 256 * p + q) then s
        else
          ((s.started p q i).dmaTurn n (1 + 256 * p + q)).moveOn n (s.moveCmd p q d.words) d (.queue p q i)
            (moveBeyond (s.pair p q).abi d.words) fail

def execQueueMove (port q i : Nat) (fail : Bool) (s : State) : Host.Outcome State Fault Refusal :=
  answer (isPort port && isPair q) s fun s => s.queueMove port q i fail

/-- The dies that an MSE descriptor names, ascending. -/
def mseDies (w : List DWord) : List Nat := (List.range 6).filter fun k => (dbits (nth 0 w 0) 53 48).testBit k

/-- The command with its CPLADDR replaced by the host die's record area. -/
def hostRecord (w : List DWord) : List DWord :=
  (w.take 7) ++ [BitVec.ofNat 64 (dbits (nth 0 w 7) 63 48 * 2 ^ 48 + noAddr)]

/-- MSE: read the command, and append it to a ring of every die named. -/
def State.queueMse (s : State) (p q i : Nat) (d : Fetched) : State :=
  let cmd := (nth 0 d.words 1).toNat
  let va := cmd % 2 ^ 48
  if cmd % 64 ≠ 0 then s.finished p q i 0x04 0 0 0
  else if cmd / 2 ^ 48 ≠ s.node ∨ (hbmWindow ≤ va ∧ va < 0x800000000000) then s.finished p q i 0x05 0 0 0
  else match s.readWords (agentBar4 p) va 8 with
    | (s1, .error e) => s1.finished p q i (errStatus e) 0 0 0
    | (s1, .ok w) =>
      let ks := mseDies d.words
      let s2 := s1.modFetched p q i fun f => { f with dies := ks }
      ks.foldl (fun s k => s.mseAppend k (dbits (nth 0 d.words 0) 47 46) p q i (hostRecord w)) s2

def execQueueMse (port q i : Nat) (s : State) : Host.Outcome State Fault Refusal :=
  answer (isPort port && isPair q) s fun s => s.startDesc port q i 2 fun s d => s.queueMse port q i d

/-- A MARK at another node (R394): the write goes out, and the read-back behind it on its route; a MARK waits for a read id. -/
def State.markFar (s : State) (p q i a : Nat) (v : DWord) : State :=
  match maskedSlots a (toBytes 8 v.toNat) with
  | (ga, mask, bytes) :: _ =>
    let w := { Packet.blank PT.write (a / 2 ^ 48) s.node with
      tag := mask, len := 1, addr := BitVec.ofNat 40 (ga % 2 ^ 48 / 16), payload := bytes }
    match s.net.freeId, s.inject w none true (agentBar4 p) with
    | none, _ => s.modFetched p q i fun f => { f with started := false }
    | some _, (s1, none) => s1.finished p q i 0x07 0 0 0
    | some _, (s1, some r) => match s1.startRead (a / 2 ^ 48) (ga % 2 ^ 48) 1 (waitMark p q) (some r) true (agentBar4 p) with
      | some (s2, _) => s2
      | none => s1.finished p q i 0x07 0 0 0
  | [] => s

/-- MARK: VALUE is written to ADDR and read back (R394). -/
def State.queueMark (s : State) (p q i : Nat) (d : Fetched) (fail : Bool) : State :=
  let a := (nth 0 d.words 1).toNat
  if a = 0 then s.finished p q i 0 0 0 0
  else if s.farGa a then s.markFar p q i a (nth 0 d.words 2)
  else match s.write (agentBar4 p) false (a % 2 ^ 48) (toBytes 8 (nth 0 d.words 2).toNat) with
    | (s1, some e) => s1.finished p q i (errStatus e) 0 0 0
    | (s1, none) => match s1.read (agentBar4 p) (a % 2 ^ 48) 8 with
      | (s2, .error e) => s2.finished p q i (errStatus e) 0 0 0
      | (s2, .ok _) => s2.finished p q i (if fail && s.isHost a then 0x07 else 0) 0 0 0

def execQueueMark (port q i : Nat) (fail : Bool) (s : State) : Host.Outcome State Fault Refusal :=
  answer (isPort port && isPair q) s fun s => s.startDesc port q i 4 fun s d => s.queueMark port q i d fail

/-! ## Completion (R389, R396) -/

/-- A completion entry (Table 12.9). -/
def Fetched.entry (d : Fetched) : List Byte :=
  toBytes 8 (d.idx % 65536 * 2 ^ 48 + d.status % 256 * 2 ^ 40 + d.flags.toNat * 2 ^ 36 + descTag d.words)
    ++ toBytes 8 (d.val.toNat * 2 ^ 32 + d.cnt.toNat)

/-- A descriptor leaves its pair. -/
def State.dropFetched (s : State) (p q i : Nat) : State :=
  (s.modPair p q fun x => { x with fetched := x.fetched.filter fun f => f.id != i }).showOut p q

/-- The entry of a finished descriptor is written at the completion tail. -/
def State.putCompletion (s : State) (p q : Nat) (d : Fetched) : State :=
  let x := s.pair p q
  let a := s.qBase .HIF_QCQLO .HIF_QCQHI p q + 16 * x.cqTail
  let s := (s.setHostBytes p a d.entry).modPair p q fun x => { x with
    cqTail := (x.cqTail + 1) % s.cqSize p q, doneCount := x.doneCount + 1, lastEntry := a, due := true }
  let s := s.dropFetched p q d.id
  if descSb d.words then s.writeBlock p q else s

/-- QUEUE_DESCRIPTOR_COMPLETE: the entry of a finished descriptor, once the ring has room; none for a descriptor whose port
has been in D3hot or is down. -/
def State.queueComplete (s : State) (p q i : Nat) : State :=
  match (s.pair p q).fetched.find? fun f => f.id == i && f.finished with
  | none => s
  | some d =>
    if d.dropped || !s.portLive p then (s.dropFetched p q i).pairDrained p q
    else if s.cqFull p q then s
    else (s.putCompletion p q d).pairDrained p q

def execQueueDescriptorComplete (port q i : Nat) (s : State) : Host.Outcome State Fault Refusal :=
  answer (isPort port && isPair q) s fun s => if s.powered then s.queueComplete port q i else s

/-- STATUS_BLOCK_WRITE: the deadline of 2 µs after an entry, or of 1 ms with MIRROR while a step program is loaded
(R398). -/
def execStatusBlockWrite (port q : Nat) (s : State) : Host.Outcome State Fault Refusal :=
  answer (isPort port && isPair q) s fun s =>
    if s.powered && ((s.pair port q).due || (s.mirrored port q && s.progLoaded)) then
      s.writeBlock port q
    else s

/-! ## Revocation and loss of pairs -/

/-- A fetched descriptor that a reset ends with FAULT. -/
def Fetched.faulted (f : Fetched) : Fetched :=
  if f.finished then f else { f with started := true, finished := true, status := 0x07, flags := 0, val := 0, cnt := 0 }

/-- A pair completes every fetched descriptor with FAULT at once, and an enabled one becomes revoked (R446); entries for which
the ring has no room are written when it has. -/
def State.revokeNow (s : State) (p q : Nat) : State :=
  if !s.qEnabled p q && (s.pair p q).fetched.isEmpty then s
  else
    let en := s.qEnabled p q
    let s := s.modPair p q fun x => { x with fetched := x.fetched.map Fetched.faulted }
    let s := (s.pair p q).fetched.foldl (fun s d => s.queueComplete p q d.id) s
    if en then s.setQState p q QS.revoked 0 else s

/-- The transfers in progress of a port's pairs end without a result (R447). -/
def State.dropMoves (s : State) (p : Nat) : State :=
  (List.range 16).foldl (fun s n => match (s.dma n).busy with
    | some b => match b.issuer with
      | .queue x _ _ => if x = p then (s.modDma n fun d => { d with busy := none }).setFld F.DMA_CHSTAT_BUSY 0 n else s
      | _ => s
    | none => s) s

end Sys2Proof.Machine
end

