-- ==== Sys2Proof/Machine/Failover.lean ====
section
/-! DEFINITION. Two hosts (spec/12 R401 to R405): failover mode, the heartbeat and claims. -/

namespace Sys2Proof.Machine

/-- The port that is not `p`. -/
def otherPort (p : Nat) : Nat := 1 - p

/-- No pair of either port is enabled. -/
def State.noPairs (s : State) : Bool :=
  (List.range 2).all fun p => (List.range 256).all fun q => !s.qEnabled p q

/-- A write of HIF.MODE: it takes effect only while no pair is enabled and SEQ is IDLE; the writing port becomes active. -/
def State.setMode (s : State) (port : Nat) (v : Word) : State :=
  if !s.noPairs || s.seqState != SQ.idle then s
  else if F.HIF_MODE_FAILOVER.of v = 1 then (s.setFld F.HIF_MODE_FAILOVER 1).setFld F.HIF_MODE_ACTIVE port
  else s.setFld F.HIF_MODE_FAILOVER 0

def execFailover (port : Nat) (v : Word) (s : State) : Host.Outcome State Fault Refusal :=
  answer (isPort port) s fun s => s.bar0Write port .HIF_MODE 0 0 fun s => s.setMode port v

/-- HEARTBEAT: a write of the active port's HIF.HBEAT restarts the age and clears EXPIRED. -/
def State.heartbeat (s : State) (p : Nat) : State :=
  if s.failover && s.fld F.HIF_MODE_ACTIVE == p then s.setFld F.HIF_FOSTAT_EXPIRED 0 else s

def execHeartbeat (port tgt : Nat) (s : State) : Host.Outcome State Fault Refusal :=
  answer (isPort port && isPort tgt) s fun s => s.bar0Write port .HIF_HBEAT tgt 0 fun s => s.heartbeat tgt

/-- HEARTBEAT_EXPIRY: EXPIRED is set and HBLOST is raised on the standby port. -/
def execHeartbeatExpiry (s : State) : Host.Outcome State Fault Refusal :=
  answer true s fun s =>
    if s.powered && s.failover && !s.flag F.HIF_FOSTAT_EXPIRED then
      (s.setFld F.HIF_FOSTAT_EXPIRED 1).raiseAlert (otherPort (s.fld F.HIF_MODE_ACTIVE)) 3
    else s

/-- An enabled pair stops fetching toward its revocation. -/
def State.startRevoke (s : State) (p q : Nat) : State :=
  if !s.qEnabled p q then s
  else if (s.pair p q).fetched.isEmpty then s.setQState p q QS.revoked 0
  else s.setQState p q QS.draining 0

/-- Every enabled pair of a port is on its way to be revoked, and then CLAIMED is raised on it. -/
def State.revokePort (s : State) (p : Nat) : State :=
  ((List.range 256).foldl (fun s q => s.startRevoke p q) s).claimedDue p

/-- A claim of the standby port: refused while EXPIRED is 0, otherwise accepted in the four steps of R405. -/
def State.claim (s : State) (p : Nat) : State :=
  if !s.isStandby p then s
  else if !s.flag F.HIF_FOSTAT_EXPIRED then s.setFld F.HIF_FOSTAT_CLAIMST 2
  else
    let s := s.setFld F.HIF_MODE_ACTIVE p
    let s := (s.setFld F.HIF_FOSTAT_CLAIMST 1).setFld F.HIF_FOSTAT_EXPIRED 0
    let s := s.halt HC.host (BitVec.ofNat 16 s.node)
    s.revokePort (otherPort p)

def execClaim (port tgt : Nat) (s : State) : Host.Outcome State Fault Refusal :=
  answer (isPort port && isPort tgt) s fun s => s.bar0Write port .HIF_CLAIM tgt 0 fun s => s.claim tgt

end Sys2Proof.Machine
end

