-- ==== Sys2Proof/Machine/Links.lean ====
section
/-! DEFINITION. Morov Links: enabling, training and versions (spec/08 R249 to R256), lanes (R252), flits and retry (R245 to
R248), credits (R251). -/

namespace Sys2Proof.Machine

/-! ## States (Table 8.12) -/

def LS.disabled : Nat := 0
def LS.training : Nat := 1
def LS.up : Nat := 2
def LS.down : Nat := 3
def LS.miswired : Nat := 4
def LS.retraining : Nat := 5

/-- A link takes a state; a change is told to the chassis peers (R265). -/
def State.setLinkState (s : State) (l st : Nat) : State :=
  if s.linkSt l = st then s else (s.setFld F.LNK_STAT_STATE st l).tellLink l

/-- A record about a link (Tables 10.2, 10.4). -/
def State.linkRecord (s : State) (l source cls : Nat) : State :=
  s.record { source := source, cls := cls, level := 4, loc := linkLoc l }

/-! ## Capability blocks (Table 8.5) -/

/-- The spare lane of a link's pair serves neither link (R241). -/
def State.spareFree (s : State) (l : Nat) : Bool :=
  !s.flag F.LNK_STAT_SPUSE (2 * (l / 2)) && !s.flag F.LNK_STAT_SPUSE (2 * (l / 2) + 1)

/-- The rate code that LNK.CTL allows; 0b11 acts as 0b10. -/
def State.maxRate (s : State) (l : Nat) : Nat := min 2 (s.fld F.LNK_CTL_MAXRATE l)

/-- Versions offered: bit 0 for 1.2, bit 1 for 2.0 (R255). -/
def State.versOffered (s : State) (l : Nat) : Nat := if s.flag F.LNK_CTL_V12ONLY l then 1 else 3

/-- The block that the device sends on a link. -/
def State.capBlock (s : State) (l : Nat) : BitVec 128 :=
  let w := 0x4D * 2 ^ 56 + s.versOffered l * 2 ^ 52 + s.maxRate l * 2 ^ 50 + b2n (s.spareFree l) * 2 ^ 49 + b2n s.safe * 2 ^ 48
    + s.node % 65536 * 2 ^ 32 + l * 2 ^ 25 + s.gidxOf l * 2 ^ 14
  BitVec.ofNat 128 (w + crc32 (toBytes 8 w) * 2 ^ 64)

/-- The fields of a block that the model reads. -/
structure Cap where
  vers : Nat
  rate : Nat
  fenced : Bool
  node : Nat
  mlink : Nat
  gidx : Nat
deriving DecidableEq, Repr

/-- A received block: none where its CRC or MAGIC is wrong. -/
def readCap (blk : BitVec 128) : Option Cap :=
  let w := blk.toNat % 2 ^ 64
  if blk.toNat / 2 ^ 64 % 2 ^ 32 ≠ crc32 (toBytes 8 w) ∨ bitsOf w 63 56 ≠ 0x4D then none
  else some { vers := bitsOf w 53 52, rate := min 2 (bitsOf w 51 50), fenced := w.testBit 48, node := bitsOf w 47 32
              mlink := bitsOf w 31 25, gidx := bitsOf w 24 14 }

/-- What the device has offered in this attempt (R255). -/
def Link.offers (x : Link) : Cap := (readCap x.offered).getD ⟨0, 0, false, 0, 0, 0⟩

/-- The partner is the one that the wiring puts there (R256, R267, R268); the service link is not checked. A global partner
is told by its chassis and GIDX, so that a substituting port is accepted (R269). -/
def State.capExpected (s : State) (l : Nat) (c : Cap) : Bool :=
  if l < 63 then c.node == s.chassis * 64 + (s.position + 1 + l) % 64 && c.mlink == 62 - l
  else if l < 95 then
    match globalPeer s.nChassis s.chassis (s.gidxOf l) with
    | none => false
    | some (k, j) => c.node / 64 == k && c.gidx == j
  else true

/-! ## Training (R253) -/

/-- A link can train: the link dies run, and for a fabric link the position is latched (R411). -/
def State.canTrain (s : State) (l : Nat) : Bool := s.diesUp && (l == 95 || s.flag F.LNK_NODE_POSV)

/-- An attempt begins: the capability block goes out. -/
def State.attempt (s : State) (l : Nat) : State :=
  (s.modLink l fun x => { x with waiting := false, cap := none, offered := s.capBlock l }).emit (.capability l (s.capBlock l))

/-- Fresh training: what the retry layer and the lanes held before is gone; a lane that the spare replaces stays so. -/
def State.startTraining (s : State) (l : Nat) : State :=
  let keep := if s.flag F.LNK_STAT_SPUSE l then [s.fld F.LNK_STAT_SPLANE l] else []
  let s := (s.modLink l fun x => { x with attempts := 0, degraded := keep }).setFld F.LNK_STAT_NARROW 0 l
  (s.setLinkState l LS.training).attempt l

/-- Every enabled link that waits for the link dies or for the position starts to train. -/
def State.trainEnabled (s : State) : State :=
  (List.range 96).foldl (fun s l =>
    if s.flag F.LNK_CTL_EN l && s.linkSt l == LS.disabled && s.canTrain l then s.startTraining l else s) s

/-- A link stops: what its retry buffer and output queue hold is lost (R263); a packet of several flits is held until its last
is acknowledged. -/
def State.stopLink (s : State) (l st : Nat) : State :=
  let lost := ((s.link l).retry.flatMap (·.ends)) ++ (s.link l).outQ
  let s := (s.modLink l fun x => { x with
    retry := [], outQ := [], partialBytes := [], waiting := false, cap := none, credits := [], attempts := 0
    replayFrom := none, replays := 0 }).setLinkState l st
  lost.foldl (fun s p => s.lose p l) s

/-- A retrain: retry buffer, sequence numbers, receive buffers and credits stay (R249). -/
def State.retrainNow (s : State) (l : Nat) : State :=
  let s := (s.count F.LNK_RETRY_RETRAINS 1 l).modLink l fun x => { x with attempts := 0, replayFrom := none, replays := 0 }
  (s.setLinkState l LS.retraining).attempt l

/-- A write of LNK.CTL: EN enables or disables, RETRAIN retrains a link that is not training. Before the position latch an
EN = 1 for a fabric link is ignored (R411). -/
def State.linkCtl (s : State) (l : Nat) (v : Word) : State :=
  let v := if l < 95 && !s.flag F.LNK_NODE_POSV && !s.flag F.LNK_CTL_EN l then F.LNK_CTL_EN.into v 0 else v
  let was := s.flag F.LNK_CTL_EN l
  let s := s.setReg .LNK_CTL l 0 (Reg.LNK_CTL.written (s.reg .LNK_CTL l 0) v)
  let en := v.toNat.testBit 0
  if !en then (if was then s.stopLink l LS.disabled else s)
  else if !was then (if s.canTrain l then s.startTraining l else s)
  else if v.toNat.testBit 7 && s.canTrain l then
    if s.linkUp l then s.retrainNow l
    else if s.linkSt l == LS.down || s.linkSt l == LS.miswired then s.startTraining l
    else s
  else s

/-- LINK_ENABLE: a write of LNK.CTL with EN = 1 (R253). -/
def execLinkEnable (port l : Nat) (v : Word) (s : State) : Host.Outcome State Fault Refusal :=
  answer (isPort port && isLink l) s fun s => s.bar0Write port .LNK_CTL l 0 fun s => s.linkCtl l (v ||| 1)

/-- LINK_DISABLE: a write of LNK.CTL with EN = 0 (R249). -/
def execLinkDisable (port l : Nat) (v : Word) (s : State) : Host.Outcome State Fault Refusal :=
  answer (isPort port && isLink l) s fun s => s.bar0Write port .LNK_CTL l 0 fun s => (s.linkCtl l (v &&& 0xFFFFFFFE)).answerStops

/-- RETRAIN: a write of LNK.CTL with RETRAIN = 1 (R249). -/
def execRetrain (port l : Nat) (v : Word) (s : State) : Host.Outcome State Fault Refusal :=
  answer (isPort port && isLink l) s fun s => s.bar0Write port .LNK_CTL l 0 fun s => s.linkCtl l (v ||| 0x80)

/-- The link trains, or trains again, and no wait is on. -/
def State.inAttempt (s : State) (l : Nat) : Bool :=
  s.diesUp && (s.linkSt l == LS.training || s.linkSt l == LS.retraining) && !(s.link l).waiting

/-- An attempt fails: after 10 ms the next one begins, and after the fourth the link is down (R253). -/
def State.attemptFails (s : State) (l : Nat) : State :=
  let n := (s.link l).attempts + 1
  if n < 4 then s.modLink l fun x => { x with attempts := n, waiting := true, cap := none }
  else if s.linkSt l = LS.retraining then (s.stopLink l LS.down).linkRecord l 0x08 RC.recovered
  else s.stopLink l LS.down

/-- A chassis peer, or a partner, is known to be fenced: a step that it belongs to halts, paused or not (R303). -/
def State.peerFenced (s : State) (node : Nat) : State :=
  match s.ex with
  | none => s
  | some x => if s.inStep && x.p.members.any (fun m => m.node.toNat == node) then s.halt HC.fenced (BitVec.ofNat 16 node) else s

/-- CAPABILITY_BLOCK: the first good block of an attempt settles partner and version (R254 to R256). -/
def State.capability (s : State) (l : Nat) (blk : BitVec 128) : State :=
  if !s.inAttempt l || (s.link l).cap.isSome then s
  else match readCap blk with
    | none => s
    | some c =>
      let s := (s.setFld F.LNK_PARTNER_NODE c.node l).setFld F.LNK_PARTNER_MLINK c.mlink l
      let s := if 63 ≤ l ∧ l < 95 then s.setFld F.LNK_GPORT_PGIDX c.gidx l else s
      let s := if c.fenced then s.peerFenced c.node else s
      if !s.capExpected l c then s.stopLink l LS.miswired
      else if c.vers &&& (s.link l).offers.vers = 0 then s.attemptFails l
      else s.modLink l fun x => { x with cap := some blk }

def execCapabilityBlock (l : Nat) (blk : BitVec 128) (s : State) : Host.Outcome State Fault Refusal :=
  answer (isLink l) s fun s => (s.capability l blk).answerStops

/-- Credit of a partner's empty buffers; 1.2 has no channels beyond HOPS 2 (Tables 8.3, 8.6). -/
def freshCredits (v2 : Bool) : List Nat :=
  if v2 then creditsFull else [8192, 8192, 8192, 0, 0, 4096, 4096, 4096, 0, 0, 0, 0, 0]

/-- A retrain keeps the retry layer; a fresh link starts it anew, with full credits (Table 8.4). -/
def Link.comeUp (x : Link) (fresh v2 : Bool) : Link :=
  if fresh then { x with
    attempts := 0, txSeq := 0, retry := [], rxLast := none, nakSent := false, replayFrom := none, replays := 0
    ackDue := false, credits := freshCredits v2, owed := List.replicate 13 0, partialBytes := [] }
  else { x with attempts := 0 }

/-- The eye margins of a link in the ledger: lowest ever, and last (Table 13.7). -/
def noteMargin (m : Byte) (o : Byte × Byte) : Byte × Byte := (if o = (0, 0) then m else if m.toNat < o.1.toNat then m else o.1, m)

/-- Every unacknowledged DATA flit goes out again (R248). -/
def State.resend (s : State) (l : Nat) : State := (s.link l).retry.foldl (fun s f => s.sendData l f) s

/-- A local link has come up: the peer on it gets the full list of links, and learns that the device has left the safe state where
it has not yet been told (R265). -/
def State.greet (s : State) (q : Nat) : State :=
  let s1 := s.send (s.stateNotice (s.chassis * 64 + q) ((List.range 96).map s.ownEntry))
  if s.net.leftSafe.contains q then
    (s1.modNet fun n => { n with leftSafe := n.leftSafe.filter (· != q) }).send (s1.stateNotice (s.chassis * 64 + q) [s1.devEntry])
  else s1

/-- LINK_UP: the link carries traffic; a local peer gets the full list of links (R253, R265). Without LREFCLK no link comes up
(R460). -/
def State.linkComesUp (s : State) (l : Nat) (margin : Byte) : State :=
  if !s.inAttempt l || !s.pwr.lrefclk then s
  else match (s.link l).cap.bind readCap with
    | none => s
    | some c =>
      let fresh := s.linkSt l == LS.training
      let o := (s.link l).offers
      let v2 := (c.vers &&& o.vers) / 2 == 1
      let s := (s.setFld F.LNK_STAT_VER (b2n v2) l).setFld F.LNK_STAT_RATE (max c.rate o.rate) l
      let s := s.modLink l fun x => x.comeUp fresh v2
      let s := s.led fun d => { d with margin := d.margin.modify l (noteMargin margin) }
      let s := s.setLinkState l LS.up
      let s := s.modNet fun n => { n with excl := n.excl.filter fun e => !(e.1.toNat == s.node && e.2 == l) }
      let s := s.setFld F.LNK_EXCL_COUNT s.net.excl.length
      let s := s.resend l
      let s := if l < 63 then s.greet ((s.position + 1 + l) % 64) else s
      s.flush l

def execLinkUp (l : Nat) (margin : Byte) (s : State) : Host.Outcome State Fault Refusal :=
  answer (isLink l) s fun s => (s.linkComesUp l margin).answerStops

/-- LINK_TRAINING_FAIL (R253). -/
def execLinkTrainingFail (l : Nat) (s : State) : Host.Outcome State Fault Refusal :=
  answer (isLink l) s fun s => if s.inAttempt l then (s.attemptFails l).answerStops else s

/-- TRAINING_RETRY_WAIT_END: 10 ms after a failed attempt the next one begins (R253). -/
def execTrainingRetryWaitEnd (l : Nat) (s : State) : Host.Outcome State Fault Refusal :=
  answer (isLink l) s fun s => if s.diesUp && (s.link l).waiting then s.attempt l else s

/-- LINK_PARTNER_DISABLED: the link goes down (R249). -/
def execLinkPartnerDisabled (l : Nat) (s : State) : Host.Outcome State Fault Refusal :=
  answer (isLink l) s fun s =>
    if s.diesUp && (s.linkAlive l || s.linkSt l == LS.training) then (s.stopLink l LS.down).answerStops else s

/-! ## Lanes (R252) -/

/-- The link runs, or the attempt settles on, version 1.2 (R255). -/
def State.isOldLink (s : State) (l : Nat) : Bool :=
  if s.linkAlive l then !s.linkV2 l
  else match (s.link l).cap.bind readCap with
    | some c => c.vers &&& (s.link l).offers.vers == 1
    | none => (s.link l).offers.vers == 1

/-- A lane degrades: the spare takes its place where the board wires it (R463), or the link narrows, or at the third lane goes down. A logical lane that the
spare carries and that degrades again is the spare's own failure, kept as lane 4 (log entry 107). -/
def State.laneLost (s : State) (l lane : Nat) (partnerSpare : Bool) : State :=
  let x := s.link l
  let spared := s.flag F.LNK_STAT_SPUSE l && s.fld F.LNK_STAT_SPLANE l == lane && x.degraded.contains lane
  let n := if spared then 4 else lane
  if !s.diesUp || !(s.linkAlive l || s.linkSt l == LS.training) || 4 ≤ lane || x.degraded.contains n then s
  else
    let old := s.isOldLink l
    let s := s.modLink l fun y => { y with degraded := y.degraded ++ [n] }
    if x.degraded.length = 0 ∧ s.flag F.LNK_CTL_SPAREEN l ∧ s.spareFree l ∧ partnerSpare ∧ !old
        ∧ !s.fuses.unwired.contains (l / 2) then
      let s := (s.setFld F.LNK_STAT_SPUSE 1 l).setFld F.LNK_STAT_SPLANE lane l
      let s := (s.modNd fun n => { n with spareLanes := n.spareLanes.filter (· != l / 2) ++ [l / 2] }).cellarChanged
      s.linkRecord l 0x09 RC.spared
    else if x.degraded.length < 2 then (s.setFld F.LNK_STAT_NARROW 1 l).linkRecord l 0x09 RC.degraded
    else (s.stopLink l LS.down).linkRecord l 0x08 RC.recovered

def execLaneDegraded (l lane : Nat) (partnerSpare : Bool) (s : State) : Host.Outcome State Fault Refusal :=
  answer (isLink l) s fun s => (s.laneLost l lane partnerSpare).answerStops

/-! ## Flits (R245 to R248) -/

def flitBytes (f : BitVec 2048) : List Byte := toBytes 256 f.toNat

/-- The header words of a flit (Table 8.2). -/
def flitW0 (f : BitVec 2048) : DWord := BitVec.ofNat 64 f.toNat
def flitW1 (f : BitVec 2048) : DWord := BitVec.ofNat 64 (f.toNat / 2 ^ 64)

/-- The CRC over bytes 0x00 to 0x07 and 0x0C to 0xFF (R246). -/
def flitCrc (f : BitVec 2048) : Nat := let b := flitBytes f; crc32 (b.take 8 ++ b.drop 12)

/-- The flit is whole: its CRC is good and its RSVD fields are zero. -/
def flitGood (f : BitVec 2048) : Bool :=
  dbits (flitW0 f) 2 0 == 0 && dbits (flitW1 f) 63 32 == 0 && dbits (flitW1 f) 31 0 == flitCrc f

/-- One NAK, and no further one until the flit after the last accepted has come (R248); before the first flit it names
0xFFF. -/
def State.nakOnce (s : State) (l : Nat) : State :=
  if (s.link l).nakSent then s
  else (s.modLink l fun x => { x with nakSent := true }).sendFlit l 2 0 0 (List.replicate 240 0)

/-- Flits up to an acknowledged one leave the retry buffer; that is progress. -/
def Link.acked (x : Link) (ack : BitVec 12) : Link :=
  match x.retry.findIdx? fun e => e.seq == ack with
  | none => x
  | some i => { x with retry := x.retry.drop (i + 1), replayFrom := none, replays := 0 }

/-- Channel of a CRVC; over 1.2 the response channels are numbered 3 to 5 (Table 8.6). -/
def creditVc (v2 : Bool) (v : Nat) : Nat := if v2 || decide (v < 3) then v else v + 2

def Link.credited (x : Link) (v2 : Bool) (v n : Nat) : Link :=
  let c := creditVc v2 v
  { x with credits := x.credits.modify c fun k => min (k + n) ((freshCredits v2).getD c 0) }

/-- Acknowledgement and credits that every good flit carries. -/
def State.flitHeader (s : State) (l : Nat) (w : DWord) : State :=
  let s := if dbit w 35 then s.modLink l (·.acked (BitVec.ofNat 12 (dbits w 47 36))) else s
  s.modLink l (·.credited (s.linkV2 l) (dbits w 19 16) (dbits w 15 3))

/-- The decoder's counts by the time a flit has come in: it spans up to three codewords, in each of which up to 15 symbols were
corrected, or the codeword was found uncorrectable (R244; log entry 79). -/
def State.fecCounts (s : State) (l : Nat) : State :=
  let bad := Config.pick s.free % 4
  ((s.count F.LNK_FECUE_COUNT bad l).count F.LNK_FECCE_COUNT (Config.pick (s.free + 1) % (15 * (3 - bad) + 1)) l).drawn.drawn

/-- A flit arrives on a link that is up: a bad one is answered by a NAK, one of another kind is not this event. -/
def State.onFlit (s : State) (l kind : Nat) (f : BitVec 2048) (g : State → DWord → State) : State :=
  if !s.diesUp || !s.linkUp l then s
  else s.onDie (linkLoc l) <| if !flitGood f then (s.fecCounts l).nakOnce l
  else if dbits (flitW0 f) 63 60 ≠ kind then s
  else g (s.fecCounts l) (flitW0 f)

/-- The global index of the route by which a packet came over a 1.2 link, whose routes are all minimal: over a global link the
partner's own; over a local link, the source being in this chassis, one of this device's own ports toward the destination; else
one of the source chassis whose port here is the link's partner. Where two ports are alike, which one the source chose is not
told, and a hash draws it (log entry 105). -/
def State.gselOf (s : State) (l : Nat) (p : Packet) : Nat :=
  let sk := p.src.toNat / 64
  let dk := p.dst.toNat / 64
  let h := Config.flowHash p.src.toNat p.dst.toNat agentSeq
  if 63 ≤ l ∧ l < 95 then s.fld F.LNK_GPORT_PGIDX l
  else if sk = dk then 0
  else if sk = s.chassis then
    (pickOne ((globalCands s.nChassis sk dk).filter fun j => (s.portOf j).1 == s.position) h).getD 0
  else
    (pickOne ((globalCands s.nChassis sk s.chassis).filter fun j => match globalPeer s.nChassis sk j with
      | some (_, j') => (s.portOf j').1 == (s.position + 1 + l) % 64
      | none => false) h).getD 0

/-- What the wire of a link gives as a packet (R257): over 1.2 the route fields are restored from the route, and a contribution is
stamped with epoch 0xFFFF. -/
def State.restored (s : State) (l : Nat) (p : Packet) : Packet :=
  if s.linkV2 l then p
  else { p with via := 0, nm := false, gsel := BitVec.ofNat 11 (s.gselOf l p)
                tag := if p.ptype = PT.contrib then 0xFFFF else p.tag }

/-- A packet breaks R259, is of a kind that a 1.2 link has not (Table 8.6), or breaks R270 on the service link. -/
def State.unfit (s : State) (l : Nat) (p : Packet) : Bool :=
  !p.wellFormed || (!s.linkV2 l && p.only2) || (l == 95 && (p.dst.toNat != s.node || !s.flag F.LNK_SVCCTL_EN))

/-- A packet that has come in whole goes into the receive buffer, or is refused. -/
def State.received (s : State) (l : Nat) (bytes : List Byte) : State :=
  let p := { Packet.ofHeader (toDWord (bytes.take 8)) (toDWord ((bytes.drop 8).take 8)) with payload := bytes.drop 16 }
  if s.unfit l p then (s.refuse l).owes l p
  else
    let q := s.restored l p
    s.modLink l fun x => { x with rxBuf := x.rxBuf ++ [q] }

/-- Bytes of the packet that begins with these. -/
def packetBytes (b : List Byte) : Nat := 16 * (1 + dbits (toDWord (b.take 8)) 55 50)

/-- One payload slot (R247): a packet starts, goes on, or the slot is padding. A packet cut short by another is refused. -/
def State.slotIn (s : State) (l : Nat) (sop : Bool) (b : List Byte) : State :=
  let part := (s.link l).partialBytes
  let s1 := if sop && !part.isEmpty then (s.refuse l).owes l (Packet.ofHeader (toDWord (part.take 8)) (toDWord ((part.drop 8).take 8)))
    else s
  let now := if sop then b else if part.isEmpty then [] else part ++ b
  if now.isEmpty then s1
  else if packetBytes now ≤ now.length then (s1.modLink l fun x => { x with partialBytes := [] }).received l now
  else s1.modLink l fun x => { x with partialBytes := now }

/-- DATA_FLIT: accepted where its SEQ follows the last one accepted (R248). -/
def State.dataIn (s : State) (l : Nat) (f : BitVec 2048) (w : DWord) : State :=
  let sq := BitVec.ofNat 12 (dbits w 59 48)
  let want : BitVec 12 := match (s.link l).rxLast with
    | some x => x + 1
    | none => 0
  if sq ≠ want then s.nakOnce l
  else
    let s := (s.modLink l fun x => { x with rxLast := some sq, ackDue := true, nakSent := false }).flitHeader l w
    let b := flitBytes f
    ((List.range 15).foldl (fun s i => s.slotIn l (dbit w (20 + i)) ((b.drop (16 * (i + 1))).take 16)) s).flush l

def execDataFlit (l : Nat) (flit : BitVec 2048) (s : State) : Host.Outcome State Fault Refusal :=
  answer (isLink l) s fun s => s.onFlit l 1 flit fun s w => (s.dataIn l flit w).answerStops

/-- IDLE_FLIT: acknowledgement and credits (R247). -/
def execIdleFlit (l : Nat) (flit : BitVec 2048) (s : State) : Host.Outcome State Fault Refusal :=
  answer (isLink l) s fun s => s.onFlit l 0 flit fun s w => ((s.flitHeader l w).flush l).answerStops

/-- Replay from the oldest unacknowledged flit; the eighth in a row without progress retrains (R248, R249). -/
def State.replayLink (s : State) (l : Nat) : State :=
  match (s.link l).retry with
  | [] => s
  | e :: _ =>
    let n := if (s.link l).replayFrom = some e.seq then (s.link l).replays + 1 else 1
    let s := (s.count F.LNK_RETRY_REPLAYS 1 l).modLink l fun x => { x with replayFrom := some e.seq, replays := n }
    if n < 8 then s.resend l else (s.retrainNow l).linkRecord l 0x08 RC.corrected

/-- A replay that started from the oldest unacknowledged flit may still be going out: the model has no time to tell by (log entry
106). -/
def State.replayOn (s : State) (l : Nat) : Bool :=
  match (s.link l).retry with
  | [] => false
  | e :: _ => (s.link l).replayFrom == some e.seq && Config.choice s.free

/-- NAK: flits up to ACK are acknowledged, and the rest go out again, unless a replay from the same one is under way (R248). -/
def execNak (l : Nat) (flit : BitVec 2048) (s : State) : Host.Outcome State Fault Refusal :=
  answer (isLink l) s fun s => s.onFlit l 2 flit fun s w =>
    let s := s.flitHeader l w
    ((if s.replayOn l then s.drawn else s.drawn.replayLink l).flush l).answerStops

/-- REPLAY_TIMEOUT: 4 µs without an acknowledgement (R248). -/
def execReplayTimeout (l : Nat) (s : State) : Host.Outcome State Fault Refusal :=
  answer (isLink l) s fun s => if s.diesUp && s.linkUp l then s.replayLink l else s

end Sys2Proof.Machine
end

