-- ==== Sys2Proof/Machine/Power.lean ====
section
/-! DEFINITION. The governor (spec/11 R359 to R364), rate monitors (R352), THROTTLE_N (R371 to R375), the timestamp offset
(R355), reference clocks (R353) and HBM idle (R368). -/

namespace Sys2Proof.Machine

/-! ## Settings (Table 11.8) -/

def clampNat (lo hi v : Nat) : Nat := max lo (min hi v)

/-- Watts, M hs/s and °C as the settings in force act. -/
def Pwr.capW (p : Pwr) : Nat := clampNat 1000 3800 (p.cap.toNat % 65536)
def Pwr.tgt (p : Pwr) : Nat := clampNat 950 1950 (p.ratetgt.toNat % 4096)
def Pwr.tjLim (p : Pwr) : Nat := let t := bitsOf p.govctl.toNat 31 24; if 85 ≤ t ∧ t ≤ 104 then t else 100
def Pwr.rateMode (p : Pwr) : Bool := p.govctl.toNat.testBit 0
def Pwr.idleMs (p : Pwr) : Nat := bitsOf p.govctl.toNat 23 16

/-- Limiter 6 is in force. -/
def State.throttled (s : State) : Bool := s.flag F.PWR_THRSTAT_ACTIVE

/-! ## The device target (R360) -/

/-- Input power in units of 0.01 W, formed from the voltage in 0.1 V and the current in 0.1 A (R367). -/
def pow100us (m : GovMeas) : Nat := m.v100us * m.i100us
def pow1ms (m : GovMeas) : Nat := m.v1ms * m.i1ms

/-- A rate times `n` / 200, and a rate lowered to a goal in M hs/s. -/
def Rate.times (t : Rate) (n : Nat) : Rate := ⟨t.num * n, t.exp + 1⟩
def Rate.atMost (t : Rate) (goal : Nat) : Rate := if goal * 200 ^ t.exp < t.num then ⟨goal, 0⟩ else t

/-- In whole M hs/s, as PWR.GOVSTAT.RATE shows it. -/
def Rate.mhs (t : Rate) : Nat := t.num / 200 ^ t.exp

/-- T after one period: 0.95, 0.99 or 1.005 times what it was, or the same, and no more than the goal. -/
def nextT (goal cap : Nat) (t : Rate) (m : GovMeas) : Rate :=
  (if 105 * cap < pow100us m ∨ 714 < m.i100us then t.times 190
    else if 100 * cap < pow1ms m ∨ 680 < m.i1ms then t.times 198
    else if pow1ms m < 98 * cap ∧ m.i1ms < 666 then t.times 201
    else t).atMost goal

/-- The device limiter (Table 11.2): the highest code that binds. -/
def State.devLimit (s : State) (m : GovMeas) : Nat :=
  if s.safe then 7 else if s.throttled then 6 else if 680 < m.i1ms then 2 else if 100 * s.pwr.capW < pow1ms m then 1 else 0

/-! ## One die -/

/-- Power stages that feed a governed die (Table 11.3). -/
def stagesOf (i : Nat) : List Nat :=
  if i < 4 then [2 * i, 2 * i + 1] else if i < 10 then [i + 4] else if i < 12 then [14] else [15]

/-- A stage delivers more than its rating. -/
def State.railOver (s : State) (m : GovMeas) (i : Nat) : Bool :=
  (stagesOf i).any fun k => decide (s.fld F.PWR_RAIL_RATED k < m.rail.getD k 0)

/-- The thermal ceiling of a die after one period, and whether it is on its way down. -/
def thermalStep (lim tj ceil : Nat) (falling : Bool) : Nat × Bool :=
  let down := decide (lim < tj) || (falling && decide (lim - 2 < tj))
  if down then (max 550 (ceil - 10), true) else (min 850 (ceil + 2), false)

/-- The voltage that the governor asks for: within the ceilings, 0.55 V in a throttle, the safe state or HBM idle. The
ceiling of an overloaded rail is a free value below the present voltage (log entry 7). -/
def State.wantVolt (s : State) (m : GovMeas) (i ceil : Nat) : Nat :=
  if s.throttled || s.safe || s.hbm.idle then 550
  else
    let cur := s.pwr.volt.getD i 0
    let rail := if s.railOver m i then 550 + Config.pick (s.free + i) % max 1 (cur - 550) else 850
    max 550 (min (m.volt.getD i 0) (min ceil (min rail 850)))

/-- A voltage after 100 µs on its way to another: it rises by at most 2 mV/µs and falls at 10 mV/µs (R362). -/
def slew (cur want : Nat) : Nat := if cur < want then min want (max cur 350 + 200) else want

/-- The limiter that a die shows: the highest code that binds. Limiter 3 binds above TJLIM, and below it while its ceiling is what
holds the die. -/
def State.dieLimit (s : State) (m : GovMeas) (i ceil : Nat) : Nat :=
  if s.safe then 7 else if s.throttled then 6 else if 850 < m.volt.getD i 0 then 5
  else if s.railOver m i then 4 else if s.pwr.tjLim < m.tj.getD i 0 ∨ ceil < m.volt.getD i 0 then 3 else s.devLimit m

/-- A sensor field shows a value, at most its largest, from Ndomir's first sample on (R376). -/
def State.showSample (s : State) (f : Field) (v : Nat) (i : Nat := 0) : State :=
  if s.nd.sampled then s.setFld f (min v (2 ^ (f.hi - f.lo + 1) - 1)) i else s

/-- One governed die in one period. -/
def State.governDie (s : State) (m : GovMeas) (i : Nat) : State :=
  let c := thermalStep s.pwr.tjLim (m.tj.getD i 0) (s.pwr.ceil.getD i 850) (s.pwr.falling.getD i false)
  let v := slew (s.pwr.volt.getD i 0) (s.wantVolt m i c.1)
  let l := s.dieLimit m i c.1
  let s := s.modPwr fun p => { p with ceil := p.ceil.set i c.1, falling := p.falling.set i c.2, volt := p.volt.set i v }
  (s.showSample F.PWR_DSTAT_VOLT v i).setFld F.PWR_DSTAT_LIMIT l i

/-- The 1 ms average of the input power, and its peak (R367). -/
def State.showPower (s : State) (watt : Nat) : State :=
  (s.showSample F.PWR_PIN_AVG watt).showSample F.PWR_PIN_PEAK (max (s.fld F.PWR_PIN_PEAK) watt)

/-- The hottest junction as sampled. -/
def State.hottest (s : State) : Nat := (List.range 15).foldl (fun a i => max a (s.fld F.PWR_DSTAT_TJ i)) 0

/-- A minute of service is over: the ledger counts it, and as hot where a junction has been above 95 °C in it (R425). -/
def State.minuteOver (s : State) : State :=
  if s.nd.periods < 600000 then s
  else (s.led fun l => { l with powered := satAdd 32 l.powered 1, hot := satAdd 32 l.hot (b2n s.nd.minuteHot) }).modNd fun n =>
    { n with periods := 0, minuteHot := false }

/-- 0.1 ms of service at an input power, while Ndomir runs: minutes and energy accrue in the ledger (R425, R426). -/
def State.accrue (s : State) (watt : Nat) : State :=
  if s.pwr.step < 3 then s
  else
    let e := s.nd.joules + watt
    ((s.led fun l => { l with energy := satAdd 64 l.energy (e / 36000000) }).modNd fun n =>
      { n with joules := e % 36000000, periods := n.periods + 1, minuteHot := n.minuteHot || decide (95 < s.hottest) }).minuteOver

/-- One period of the governor. CAPMISS is set where the past period was all at 0.55 V and the power exceeded the cap in it as
well as over the last millisecond (R363; log entry 26). -/
def State.govern (s : State) (m : GovMeas) : State :=
  let s := s.modPwr fun p => { p with govctl := s.reg .PWR_GOVCTL 0 0, cap := s.reg .PWR_CAP 0 0, ratetgt := s.reg .PWR_RATETGT 0 0 }
  let goal := if s.pwr.rateMode then s.pwr.tgt else 1950
  let low := s.pwr.volt.all (· == 550)
  let s := s.modPwr fun p => { p with t := nextT goal p.capW p.t m }
  let limit := s.devLimit m
  let s := ((List.range 14).foldl (fun s i => s.governDie m i) s).drawn
  let s := (s.setFld F.PWR_GOVSTAT_RATE s.pwr.t.mhs).setFld F.PWR_GOVSTAT_LIMIT limit
  let s := if low && s.pwr.wasLow && decide (100 * s.pwr.capW < pow100us m ∧ 100 * s.pwr.capW < pow1ms m) then
      s.setFld F.PWR_GOVSTAT_CAPMISS 1
    else s
  let s := ((s.modPwr fun p => { p with wasLow := low }).showSample F.PWR_INPUT_VIN m.v1ms).showSample F.PWR_INPUT_IIN m.i1ms
  let s := (s.showPower (pow1ms m / 100)).accrue (pow1ms m / 100)
  s.setFld F.PWR_TSTAT_LOCK (b2n (s.fld F.PWR_TSTAT_SRC != 2))

/-- GOVERNOR_PERIOD: every 100 µs (R360). -/
def execGovernorPeriod (m : GovMeas) (s : State) : Host.Outcome State Fault Refusal :=
  answer true s fun s => if s.powered then s.govern m else s

/-- RATE_MONITOR_REPORT: the die's rate is the lowest of its monitors (R352). -/
def execRateMonitorReport (die : Nat) (rates : List Nat) (s : State) : Host.Outcome State Fault Refusal :=
  answer (decide (die < 14)) s fun s =>
    match rates with
    | [] => s
    | r :: l => if s.powered && decide (6 ≤ s.pwr.step) then s.showSample F.PWR_DSTAT_RATE (l.foldl min r) die else s

/-! ## THROTTLE_N (R371 to R375) -/

/-- Every governed die goes to 0.55 V, ahead of the next period. -/
def State.throttleDown (s : State) : State :=
  let s := s.modPwr fun p => { p with volt := List.replicate 14 550 }
  let code := if s.safe then 7 else 6
  let s := (List.range 14).foldl (fun s i => (s.showSample F.PWR_DSTAT_VOLT 550 i).setFld F.PWR_DSTAT_LIMIT code i) s
  s.setFld F.PWR_GOVSTAT_LIMIT code

/-- The throttle ends where its hold has run out and the pin is high (R373). -/
def State.throttleOver (s : State) : State :=
  if s.throttled && !s.pwr.thrHold && s.pwr.throttleN then (s.setFld F.PWR_THRSTAT_ACTIVE 0).setThrottleState 0 else s

/-- THROTTLE_N_FALL. -/
def execThrottleNFall (s : State) : Host.Outcome State Fault Refusal :=
  answer true s fun s =>
    if !s.pwr.throttleN then s
    else
      let s := s.modPwr fun p => { p with throttleN := false, thrQualified := false }
      if s.powered then
        let s := s.tickTimer
        (s.modPwr fun p => { p with thrTimer := p.timer, thrStart := s.hostTime }).setFld F.PWR_THRSTAT_LEVEL 0
      else s

/-- THROTTLE_QUALIFY: the low level has lasted; the hold of 1 ms starts anew. -/
def execThrottleQualify (s : State) : Host.Outcome State Fault Refusal :=
  answer true s fun s =>
    if s.powered && !s.pwr.throttleN && !s.pwr.thrQualified then
      let s := (s.modPwr fun p => { p with thrQualified := true, thrHold := true }).count F.PWR_THRCNT_QUAL 1
      ((s.setFld F.PWR_THRSTAT_ACTIVE 1).throttleDown).setThrottleState 1
    else s

/-- THROTTLE_N_RISE: a level that did not qualify was a glitch; the duration of a sustained throttle is logged (R374). -/
def execThrottleNRise (s : State) : Host.Outcome State Fault Refusal :=
  answer true s fun s =>
    if s.pwr.throttleN then s
    else
      let q := s.pwr.thrQualified
      let s := s.modPwr fun p => { p with throttleN := true, thrQualified := false }
      if !s.powered then s
      else
        let s := s.setFld F.PWR_THRSTAT_LEVEL 1
        if !q then (s.count F.PWR_THRCNT_GLITCH 1).throttleOver
        else
          let s := s.tickTimer
          let s := if s.flag F.PWR_THRSTAT_SUST then
              ((s.logEntry (.throttleEnd (s.pwr.timer - s.pwr.thrTimer))).setFld F.PWR_THRSTAT_SUST 0).setThrottleState 1
            else s
          s.throttleOver

/-- THROTTLE_HOLD_END: 1 ms after the latest qualification (R373). -/
def execThrottleHoldEnd (s : State) : Host.Outcome State Fault Refusal :=
  answer true s fun s =>
    if s.powered && s.pwr.thrHold then (s.modPwr fun p => { p with thrHold := false }).throttleOver else s

/-- THROTTLE_SUSTAINED: low for more than 1 s (R374). -/
def execThrottleSustained (s : State) : Host.Outcome State Fault Refusal :=
  answer true s fun s =>
    if s.powered && !s.pwr.throttleN && s.pwr.thrQualified && !s.flag F.PWR_THRSTAT_SUST then
      ((s.setFld F.PWR_THRSTAT_SUST 1).logEntry (.throttleStart s.pwr.thrStart)).setThrottleState 2
    else s

/-! ## Timers (R353, R355) -/

/-- TSOFF_WRITE: a write of PWR.TSOFFHI puts the whole offset into force. -/
def State.tsoffWrite (s : State) (v : Word) : State :=
  (s.setReg .PWR_TSOFFHI 0 0 v).modPwr fun p => { p with
    tsoff := BitVec.ofNat 64 (v.toNat * 2 ^ 32 + (s.reg .PWR_TSOFFLO 0 0).toNat) }

def execTsoffWrite (port : Nat) (v : Word) (s : State) : Host.Outcome State Fault Refusal :=
  answer (isPort port) s fun s => if s.writable port (Reg.PWR_TSOFFHI.addr 0 0) then s.tsoffWrite v else s

/-- PWR.TSTAT.SRC follows the reference clocks; without one the timers are not locked. -/
def State.showRef (s : State) : State :=
  let src := if s.pwr.refclk.getD 0 false then 0 else if s.pwr.refclk.getD 1 false then 1 else 2
  let s := s.setFld F.PWR_TSTAT_SRC src
  if src = 2 then s.setFld F.PWR_TSTAT_LOCK 0 else s

/-- REFCLK_LOSS. -/
def execRefclkLoss (port : Nat) (s : State) : Host.Outcome State Fault Refusal :=
  answer (isPort port) s fun s =>
    let s := s.modPwr fun p => { p with refclk := p.refclk.set port false }
    if s.powered then s.showRef else s

/-- REFCLK_RETURN. -/
def execRefclkReturn (port : Nat) (s : State) : Host.Outcome State Fault Refusal :=
  answer (isPort port) s fun s =>
    let s := s.modPwr fun p => { p with refclk := p.refclk.set port true }
    if s.powered then s.showRef else s

/-! ## Idle (R368) -/

/-- HBM_IDLE_TIMEOUT: no program runs, and no access has come for IDLEMS: every stack refreshes itself. -/
def execHbmIdleTimeout (s : State) : Host.Outcome State Fault Refusal :=
  answer true s fun s =>
    if s.diesUp && decide (7 ≤ s.pwr.step) && !s.isRunning && s.pwr.idleMs != 0 then
      s.modHbm fun h => { h with asleep := List.range 12, idle := true }
    else s

end Sys2Proof.Machine
end

