-- ==== Sys2Proof/Machine/TestOps.lean ====
section
/-! DEFINITION. In-field tests and the rotation of spare slots (R344 to R348), the watchdogs (R336), input over-current
(R327), and the consumption of error records (R331). -/

namespace Sys2Proof.Machine

/-! ## Starting a test -/

/-- IFT_TEST_START: a slot that no core uses is tested, unless a rotation is on its way (R344, R345). Where the cluster has no spare, the test of an active slot waits for
a step boundary, from which on launches to its core are held until it is idle (R347). -/
def State.startTest (s : State) (p : Nat) : State :=
  if !s.testable || s.testOn || s.isRetired p || s.iftState == IS.moving || s.iftState == IS.waiting then s
  else match s.logicalOf p with
    | some c =>
      if (s.core c).out then s.beginTest IS.vacated p
      else if !s.inPlace c p then s
      else if s.isRunning && s.saf.testHold != some (p, true) then
        (s.modSaf fun x => { x with testHold := some (p, false) }).setIft IS.boundary p
      else if s.coreIdle c then s.holdAndTest c p
      else s
    | none =>
      if s.spareOf (p / 5) = some p then (if s.flag F.SAF_IFT_EN then s.beginTest IS.spare p else s)
      else s.beginTest IS.vacated p

def execIftTestStart (slot : Nat) (s : State) : Host.Outcome State Fault Refusal :=
  answer (isSlot slot) s fun s => s.startTest slot

/-! ## Test outcomes (Table 10.9) -/

def testPasses (r : TestResult) : Bool := r == .pass || r == .failThenPass

/-- SOURCE of a failed test; a failure that does not repeat is recorded as one of the datapath (log entry 25). -/
def testSource (r : TestResult) : Nat := if r = .checker then 0x0C else 0x0B

def State.testRecord (s : State) (p : Nat) (r : TestResult) : State :=
  match r with
  | .pass => s
  | .failThenPass => s.record { source := testSource r, cls := RC.corrected, level := 2, loc := s.slotLoc p 0xFF }
  | _ => s.record { source := testSource r, cls := RC.spared, level := 2, loc := s.slotLoc p 0xFF }

/-- Cores of a cluster that wait for a slot look again. -/
def State.seekAll (s : State) (q source : Nat) : State :=
  (s.saf.waitingCores.filter fun c => c / 4 == q).foldl (fun s c => s.seekSlot c source) s

/-- A slot has passed: it may serve, and where no core awaits its own slot there it becomes the spare the cluster lacks. -/
def State.slotPassed (s : State) (p : Nat) : State :=
  let q := p / 5
  let s := (s.modSlot p fun x => { x with tested := true, worked := false, passStep := BitVec.ofNat 32 s.stepNo }).count F.SAF_IFTSTAT_PASSES 1
  let free := (s.logicalOf p).isNone && (s.spareOf q).isNone
  ((if free then (s.setSpare q (some p)).cellarChanged else s)).seekAll q 0x0B

/-- What a failing slot has produced is suspect: the current step's unsealed work, or every step since its last pass
(R325, R348). -/
def State.suspect (s : State) (step : Word) (r : TestResult) : State :=
  if r = .checker then s.lateDetection step none else s.seqFault retCompute

/-- A slot has failed both runs: it is retired, and what it produced is suspect (R325, R348). -/
def State.slotFailed (s : State) (p : Nat) (r : TestResult) : State :=
  let was := s.spareOf (p / 5) == some p
  let step := (s.slot p).passStep
  let s := (s.retireSlot p (testSource r)).seekAll (p / 5) (testSource r)
  if was then s else s.suspect step r

/-! ## Cluster-level handling (R340) -/

/-- The passing slots of a cluster that no available logical core keeps, lowest first. -/
def freePassing (s : State) (q : Nat) (good : List Nat) : List Nat :=
  good.filter fun p => !(List.range 4).any fun i => s.avail (4 * q + i) && s.phys (4 * q + i) == p

/-- Give a slot to every core of the cluster whose own has failed, lowest first; the rest become unavailable. -/
def State.giveSlots (s : State) (q : Nat) (good : List Nat) (source : Nat) : List Nat → List Nat → State
  | [], free => (s.setSpare q free.head?).cellarChanged
  | c :: r, free =>
    if good.contains (s.phys c) then (s.placeCore c (s.phys c)).giveSlots q good source r free
    else match free with
      | p :: f => (s.placeCore c p).giveSlots q good source r f
      | [] => (s.loseCore c (s.phys c) source).giveSlots q good source r []

/-- The map of a cluster is rebuilt once its slots are tested. -/
def State.rebuild (s : State) (q : Nat) (res : List (Nat × Bool)) : State :=
  let good := (List.range 5).filterMap fun i =>
    if res.any fun e => e.1 == 5 * q + i && e.2 then some (5 * q + i) else none
  let s := s.modSaf fun x => { x with clusterTests := x.clusterTests.filter fun e => e.1 != q }
  let s := good.foldl (fun s p => s.modSlot p fun x => { x with tested := true, worked := false, passStep := BitVec.ofNat 32 s.stepNo }) s
  s.giveSlots q good 0x0B (((List.range 4).map fun i => 4 * q + i).filter s.avail) (freePassing s q good)

/-- The result of one slot of a five-slot test is noted; the map is rebuilt with the last one. -/
def State.clusterNote (s : State) (p : Nat) (r : TestResult) : State :=
  let q := p / 5
  let s := if testPasses r then s.count F.SAF_IFTSTAT_PASSES 1 else (s.retire p (testSource r)).cellarChanged
  let s := s.modSaf fun x => { x with clusterTests := x.clusterTests.map fun e =>
    if e.1 = q then (e.1, e.2 ++ [(p, testPasses r)]) else e }
  match ((List.range 5).map (5 * q + ·)).find? fun p => (s.slot p).testing with
  | some p => s.setIft IS.vacated p
  | none => let s := s.setIft IS.idle p
    match s.saf.clusterTests.find? fun e => e.1 == q with
    | some e => s.rebuild q e.2
    | none => s

/-- One slot of a five-slot test; what a failing slot has produced since its last pass, under the core it carries or one that has
left it, is suspect (R325, R348). -/
def State.clusterResult (s : State) (p : Nat) (r : TestResult) : State :=
  let carried := (s.logicalOf p).isSome || (s.slot p).worked
  let step := (s.slot p).passStep
  let s := s.clusterNote p r
  if testPasses r || !carried then s else s.suspect step r

/-- An unplanned test begins when none is on: of the slot itself, or, where it carries a core, of the cluster's spare first, into
which the core then rotates (R344, R345). -/
def State.tryUnplanned (s : State) : State :=
  match s.saf.unplanned with
  | [] => s
  | p :: r =>
    let t := match s.logicalOf p with
      | some c => if (s.core c).out then p else (s.spareOf (p / 5)).getD p
      | none => p
    let s1 := s.startTest t
    if (s1.slot t).testing || s1.isRetired t || s1.saf.testHold.any (fun h => h.1 == t) then s1.modSaf fun x => { x with unplanned := r }
    else s1

/-- A unit of a core slot has stalled: the slot is due an unplanned test (Table 10.6). -/
def State.unplannedTest (s : State) (p : Nat) : State :=
  (s.modSaf fun x => { x with unplanned := x.unplanned.filter (· != p) ++ [p] }).tryUnplanned

/-- A structural test ends; SEQ launches again to a core that is back in service. -/
def State.endTest (s : State) (p : Nat) (r : TestResult) : State :=
  if !s.testable || !(s.slot p).testing then s
  else
    let s := (s.modSlot p fun x => { x with testing := false }).testRecord p r
    if s.clusterBusy (p / 5) then (s.clusterResult p r).tryUnplanned.pump
    else
      let spare := s.spareOf (p / 5) == some p
      let s := if spare && testPasses r then s.setIft IS.waiting p
        else s.setIft (if spare then IS.boundary else IS.idle) p
      (if testPasses r then s.slotPassed p else s.slotFailed p r).tryUnplanned.pump

def execIftTestComplete (slot : Nat) (r : TestResult) (s : State) : Host.Outcome State Fault Refusal :=
  answer (isSlot slot) s fun s => s.endTest slot r

/-! ## Rotation (R345, R346) -/

/-- A core of the cluster whose spare has just passed, in service. -/
def State.rotates (s : State) (c : Nat) : Bool :=
  s.testable && s.iftState == IS.waiting && s.fld F.SAF_IFTSTAT_CLUSTER == c / 4 && s.avail c && !(s.core c).out
    && (s.spareOf (c / 4)).any s.passed

/-- PREEMPT_TIMEOUT: no boundary came in time, and SEQ requests preemption. -/
def execPreemptTimeout (c : Nat) (s : State) : Host.Outcome State Fault Refusal :=
  answer (isCore c) s fun s =>
    if s.rotates c then s.modCore c fun k => { k with preempt := true } else s

/-- A group is stopped at a yield point (R239). -/
def Group.yields (x : Group) : Bool :=
  x.state == .yielded || (x.state == .blocked && (match x.wait with | .barrier _ => true | .twait _ => true | _ => false))

/-- The core is at a boundary of its work, or preempted with every group at a yield point and both queues empty. -/
def State.movable (s : State) (c : Nat) : Bool :=
  let k := s.core c
  k.engF.queue.isEmpty && k.engB.queue.isEmpty && ((k.items.isEmpty && k.groups.isEmpty) || (k.preempt && k.groups.all fun e => e.2.yields))

/-- CONTEXT_MOVE: the move into the tested spare begins. -/
def execContextMove (c : Nat) (s : State) : Host.Outcome State Fault Refusal :=
  answer (isCore c) s fun s =>
    match s.spareOf (c / 4) with
    | none => s
    | some p =>
      if s.rotates c && s.movable c && (s.slot p).tested then
        (s.modCore c fun k => { k with moving := some p }).setIft IS.moving p
      else s

/-- The local bytes that move: the ranges of resident blocks, and the tile buffers. -/
def Core.carries (k : Core) (off : Nat) : Bool :=
  decide (0x800000 ≤ off) || k.blocks.any fun b => decide (b.lmemBase ≤ off ∧ off < b.lmemBase + b.lmemBytes)

/-- Local memory of a slot takes over what a core carries in another; the move writes those bytes and no others. -/
def moveLocal (l : Sparse Byte) (k : Core) (a b : Nat) : Sparse Byte :=
  let kept := l.filter fun e => !(e.1 / 2 ^ 24 == b && k.carries (e.1 % 2 ^ 24))
  (l.filter fun e => e.1 / 2 ^ 24 == a && k.carries (e.1 % 2 ^ 24)).foldl
    (fun m e => Sparse.set 0 m (lmemKey b (e.1 % 2 ^ 24)) e.2) kept

/-- The context arrives: the core is on its new slot, and the test of the vacated one begins. -/
def State.moveDone (s : State) (c : Nat) : State :=
  match (s.core c).moving with
  | none => s
  | some p =>
    let old := s.phys c
    let k := s.core c
    let s := if k.items.isEmpty then s else { s with lmem := moveLocal s.lmem k old p }
    let s := s.placeCore c p
    let s := s.modCore c fun k => { k with
      moving := none, preempt := false, icache := [], groups := k.groups.map fun e => (e.1, e.2.resume) }
    let s := (s.setSpare (c / 4) none).modSlot old fun x => { x with tested := false, worked := true }
    s.cellarChanged.beginTest IS.vacated old

def execContextMoveComplete (c : Nat) (s : State) : Host.Outcome State Fault Refusal :=
  answer (isCore c) s fun s => if s.testable then s.moveDone c else s

/-! ## Watchdogs (R336) -/

/-- The record of a stall, with the opcode in progress. -/
def stallRec (level : Nat) (loc : Loc) (opc : Nat) : Rec :=
  { source := 0x0A, cls := RC.recovered, level := level, loc := loc, opcode := opc }

/-- Entries that wait in a ring. -/
def State.ringCount (s : State) (r : RingRegs) (i j : Nat) : Nat :=
  if s.ringHas r i j then (s.ringTail r i j + s.ringSize r i j - s.ringHead r i j) % s.ringSize r i j else 0

/-- The commands at the head of a ring of an MSE die complete with FAULT, as many as are given; one that could have no record is
discarded (R476), and a ring with an unreadable entry stops (R147). -/
def State.failEntries (s : State) (k r : Nat) : Nat → State
  | 0 => s
  | n + 1 => match s.mseFetch k r with
    | (s1, none) => s1.modMse k fun m => { m with stopped := m.stopped.set r true }
    | (s1, some (w, is)) =>
      let c := readMseCmd w
      match (if is = .ring then (s1.msePop k r).cplCheck k c.cpl else (s1.msePop k r, none)) with
      | (s2, some f) => (s2.logFault (agentMse k) f.1 f.2).failEntries k r n
      | (s2, none) =>
        (s2.mseDeliver k (MseDone.of c.op (if is = .ring then c.cpl else noAddr) is (MseRes.of 0x07))).failEntries k r n

/-- The opcode of the command at the head of a ring. -/
def State.ringOp (s : State) (k r : Nat) : Nat := match (s.mseFetch k r).2 with | some (w, _) => (readMseCmd w).op | none => 0

/-- The command of ring r that a die has in hand. -/
def State.inHand (s : State) (k r : Nat) : Option MseDone := ((s.mse k).done.find? fun e => e.1 == r).map (·.2)

/-- The pending work of a ring of an MSE die is failed: the command in hand, and every one that waits. -/
def State.failMse (s : State) (k r : Nat) : State :=
  let n := if nth false (s.mse k).stopped r then 0 else s.ringCount mseRing k r
  match s.inHand k r with
  | some d => (((s.mseFree k).mseDeliver k { d with status := 0x07 }).failEntries k r n).record (stallRec 4 (mseLoc k) d.op)
  | none => if n = 0 then s else (s.failEntries k r n).record (stallRec 4 (mseLoc k) (s.ringOp k r))

/-- A descriptor that a channel never starts, failed. -/
def DmaBusy.unstarted (c : DmaCmd) (is : Issuer) : DmaBusy :=
  { cmd := c, issuer := is, status := 0x07, bursts := 0, moved := false, need := [], asked := [], got := [], last := [], routes := [] }

/-- The descriptors at the head of a channel's ring complete with FAULT, as many as are given. -/
def State.failDescs (s : State) (n : Nat) : Nat → State
  | 0 => s
  | m + 1 => match s.ringRead dmaRing n 0 (agentDma n) with
    | (s1, .error _) => s1.modDma n fun d => { d with stopped := true }
    | (s1, .ok w) =>
      let c := readDmaCmd w
      match (s1.ringPop dmaRing n 0).dmaCplCheck c.cpl with
      | (s2, some f) => ((s2.logFault (agentDma n) f.1 f.2).setFld F.DMA_CHSTAT_LAST 0x05 n).failDescs n m
      | (s2, none) => (s2.dmaEnd n (DmaBusy.unstarted c .ring)).failDescs n m

/-- The pending work of a channel is failed: the descriptor in hand, SEQ's, and those of its ring. The record shows the opcode of
the one in hand, or of the next. -/
def State.failDma (s : State) (n : Nat) : State :=
  let m := if (s.dma n).stopped then 0 else s.ringCount dmaRing n 0
  let own := (s.dma n).seqQ.map fun e => DmaBusy.unstarted (readDmaCmd e.1) e.2
  let all := (s.dma n).busy.toList.map (fun b => { b.fail 0x07 with need := [], asked := [] }) ++ own
  let opc := match all with
    | b :: _ => b.cmd.op
    | [] => match (s.ringRead dmaRing n 0 (agentDma n)).2 with | .ok w => (readDmaCmd w).op | .error _ => 0
  if all.isEmpty && m == 0 then s
  else
    ((all.foldl (fun s b => s.dmaEnd n b) (s.modDma n fun d => { d with seqQ := [] })).failDescs n m).record (stallRec 4 (dmaLoc n) opc)

/-- Packets that a router holds and no range awaits are lost. -/
def State.failRouter (s : State) (l : Nat) : State :=
  let stuck := (s.link l).rxBuf.filter fun p => !(List.range 6).any fun k => (s.mse k).held.contains (l, p)
  if stuck.isEmpty then s
  else (stuck.foldl (fun s p => (s.unbuffer l p).lose p l) s).record (stallRec 4 (linkLoc l) 0)

/-- An engine stalls: engine handling, or core handling where the engine is being handled (R329). -/
def State.failEngine (s : State) (c : Nat) (e : Eng) : State :=
  let r := stallRec 1 (s.coreLoc c 0xFF) (match (s.eng c e).queue with | q :: _ => (readDesc q.words).op | [] => 0)
  ((if (s.eng c e).failing then s.coreFault c r else (s.engineFail c e).record r).unplannedTest (s.phys c)).pump

/-- WATCHDOG_STALL: the pending work of a unit is failed with FAULT; a core-slot unit has its slot tested (Table 10.6). -/
def State.stall (s : State) (u : StallUnit) : State :=
  match u with
  | .engine c e => if s.coreRuns c && !(s.eng c e).queue.isEmpty then s.failEngine c e else s
  | .collector c g =>
    match s.group c g with
    | some x =>
      if s.coreRuns c && x.state == .running then
        ((s.kill c g).record (stallRec 1 (s.coreLoc c 0xFF) (match s.codeWord x.pc.toNat with | some v => dbits v 63 56 | none => 0))
          ).unplannedTest (s.phys c)
      else s
    | none => s
  | .mseRing k r => if s.mseRuns && !(s.mse k).openWait.contains r then s.failMse k r else s
  | .dma n => if s.mseRuns then s.failDma n else s
  | .router l => if s.diesUp then s.failRouter l else s
  | .seq => if s.isRunning then ((s.record (stallRec 4 hostLoc 0)).seqFault retHeld).pump else s

def execWatchdogStall (u : StallUnit) (s : State) : Host.Outcome State Fault Refusal :=
  answer u.ok s fun s => if s.powered then s.stall u else s

/-! ## Over-current, and the error ring -/

/-- INPUT_OVERCURRENT: the input stage turns all converters off, and nothing runs (R327). -/
def execInputOvercurrent (s : State) : Host.Outcome State Fault Refusal :=
  answer true s fun s =>
    match s.pwr.supply with
    | .absent => s
    | _ => s.modPwr fun p => { p with supply := .turnedOff }

/-- ERHEAD_WRITE: records are consumed, up to ERTAIL (R331). -/
def State.erheadWrite (s : State) (v : Word) : State :=
  let h := s.reg .SAF_ERHEAD 0 0
  if (v - h).toNat ≤ (s.reg .SAF_ERTAIL 0 0 - h).toNat then s.setReg .SAF_ERHEAD 0 0 v else s

def execErheadWrite (port : Nat) (v : Word) (s : State) : Host.Outcome State Fault Refusal :=
  answer (isPort port) s fun s => s.bar0Write port .SAF_ERHEAD 0 0 fun s => s.erheadWrite v

end Sys2Proof.Machine
end

