-- ==== Sys2Proof/Machine/StartUp.lean ====
section
/-! DEFINITION. Start-up and reset (spec/14): power-up from VIN to READY, the resets of DEVRST_N scope, of a port and of a
function, and the PCIe ports' links and power states (R378, R437 to R448). -/

namespace Sys2Proof.Machine

/-! ## What Ndomir shows -/

/-- Ndomir runs: its firmware has been verified (step 3). -/
def State.ndRuns (s : State) : Bool := s.powered && decide (3 ≤ s.pwr.step)

/-- MGT.STAT.STATE (Table 13.10). -/
def State.mgtStateNow (s : State) : Nat :=
  if !s.ndRuns then 0
  else if s.nd.recovery then 2
  else if s.nd.wiping.isSome then 4
  else if s.nd.refurbishing then 5
  else if s.nd.fwu != .idle then 3
  else 1

/-- The registers and the sensor follow the device's state. -/
def State.showState (s : State) : State := (s.setFld F.MGT_STAT_STATE s.mgtStateNow).setDevState s.devStateNow

/-! ## Firmware banks (R420 to R424) -/

/-- The header is one of Table 13.6, for this component: nothing else is an image of it (R421, log entry 27). -/
def imageFits (i : FwImage) (c : Nat) : Bool := i.wellFormed && i.component == c

/-- An image is acceptable (R422). -/
def State.acceptable (s : State) (i : FwImage) : Bool :=
  s.fuses.keyHash.getD i.keySlot.toNat 0 == i.pubkeyHash && !s.fuses.revoked.toNat.testBit i.keySlot.toNat && i.sigOk && i.digestOk && decide (s.fuses.svn ≤ i.svn.toNat)

def State.fwStore (s : State) (c : Nat) : Store (Option FwImage) := nth (Store.fresh none none) s.nd.fw (c - 1)

/-- A bank holds an acceptable image. -/
def State.bankGood (s : State) (c : Nat) (b : NorBank (Option FwImage)) : Bool :=
  match b.val with
  | some i => b.valid && imageFits i c && s.acceptable i
  | none => false

/-- The bank that a start takes (true: b), and whether it is a rollback: the winning bank where its image is acceptable, else
the other. -/
def State.chooseBank (s : State) (c : Nat) : Option (Bool × Bool) :=
  let st := s.fwStore c
  let w := storeWinsB st
  if s.bankGood c (if w then st.b else st.a) then some (w, false)
  else if s.bankGood c (if w then st.a else st.b) then some (!w, true)
  else none

def State.bankImage (s : State) (c : Nat) (b : Bool) : Option FwImage :=
  let st := s.fwStore c
  if b then st.b.val else st.a.val

/-- The active image of a component: the one that a start would take now (log entry 30). -/
def State.activeImage (s : State) (c : Nat) : Option FwImage :=
  match s.chooseBank c with
  | some (b, _) => s.bankImage c b
  | none => none

/-- The image that runs: the one that its last start took. -/
def State.runImage (s : State) (c : Nat) : Option FwImage := s.nd.running.getD (c - 1) none

/-- An entry of the firmware history: RESULT 0 activated, 1 verify failed, 2 rolled back. -/
def State.fwHistory (s : State) (c result : Nat) (i : FwImage) : State :=
  s.ledNow fun l =>
    let e : FwHist :=
      { powered := BitVec.ofNat 32 l.powered, component := c, svn := i.svn.toNat, result := result, version := i.version }
    { l with fwhist := (l.fwhist ++ [e]).drop (l.fwhist.length + 1 - 16) }

/-- A start takes the bank of a component; a rollback is recorded. -/
def State.takeBank (s : State) (c : Nat) : State :=
  match s.chooseBank c with
  | none => s
  | some (b, rolled) =>
    let s := s.modNd fun n => { n with running := n.running.set (c - 1) (s.bankImage c b) }
    match rolled, s.bankImage c b with
    | true, some i => s.fwHistory c 2 i
    | _, _ => s

/-- No acceptable bank of some component, or no identity: the device stays in recovery (Table 13.5, R422). -/
def State.recoveryDue (s : State) : Bool := !s.nd.identity || [1, 2, 3].any fun c => (s.chooseBank c).isNone

/-! ## Identity and capability registers (R472 to R474) -/

/-- The fused fields, there whenever VIN is. -/
def State.showFuses (s : State) : State :=
  let s := s.setReg .DBG_SERIALLO 0 0 (BitVec.ofNat 32 s.fuses.serial.toNat)
  let s := s.setReg .DBG_SERIALHI 0 0 (BitVec.ofNat 32 (s.fuses.serial.toNat / 2 ^ 32))
  let s := s.setFld F.DBG_CAPRES_BIN (b2n s.fuses.binS2)
  (s.setFld F.PWR_RPRATE_MHS s.fuses.rpRate.toNat).setFld F.PWR_RPRATE_BIN (b2n s.fuses.binS2)

/-- Bytes 0x08 to 0x0B of an image header. -/
def fwVer (i : Option FwImage) : Nat :=
  match i with
  | some x => x.version.toNat % 2 ^ 32
  | none => 0

/-- Ndomir loads DBG.CAPRES and DBG.FWVER. -/
def State.loadIds (s : State) : State :=
  let g := s.nd.live.grade
  let s := s.setFld F.DBG_CAPRES_GRADE (if g = 0xFF then 0 else g)
  let s := (s.setFld F.DBG_CAPRES_GRADEV (b2n (g != 0xFF))).setFld F.DBG_CAPRES_LCORES s.nd.lcores
  [1, 2, 3].foldl (fun s c => s.setReg .DBG_FWVER (c - 1) 0 (BitVec.ofNat 32 (fwVer (s.activeImage c)))) s

/-- Ndomir loads the read-only fields of MGT (R436). -/
def State.loadMgt (s : State) : State :=
  let s := s.setReg .MGT_FWVER 0 0 (BitVec.ofNat 32 (fwVer (s.runImage 1)))
  let s := s.setFld F.MGT_SVN_FUSED s.fuses.svn
  let s := s.setFld F.MGT_SVN_IMAGE (match s.runImage 1 with | some i => i.svn.toNat | none => 0)
  (s.setFld F.MGT_LIFE_WIPEPEND (b2n s.wipeMark.isSome)).lifeRegs

/-! ## Phases of the power stages (R366) -/

/-- RATED of a stage at reset (Table 11.3). -/
def railRated (i : Nat) : Nat := if i < 8 then 300 else if i < 14 then 160 else 420

/-- The registers of a stage with so many phases shed. -/
def State.showPhases (s : State) (i n : Nat) : State :=
  let ph := s.fld F.SAF_PHASE_SHED
  let old := ph / 4 ^ i % 4
  let s := s.setFld F.SAF_PHASE_SHED (ph - old * 4 ^ i + min n 3 * 4 ^ i)
  let s := s.setFld F.PWR_RAIL_PHASES (12 - n) i
  s.setFld F.PWR_RAIL_RATED (if 3 ≤ n then railRated i - railRated i / 10 else railRated i) i

/-! ## Power-up (Table 14.1) -/

/-- What the removal of VIN leaves: the NOR die, the fuses, the rows that hard repair has replaced (R188), the pins' own levels, and
what lies outside the part. -/
def State.powerDown (s : State) : State :=
  { State.reset with
    fuses := s.fuses, host := s.host, out := s.out, free := s.free, pending := s.pending
    pwr := { Pwr.reset with
      throttleN := s.pwr.throttleN, devrstN := s.pwr.devrstN, perstN := s.pwr.perstN, posInLow := s.pwr.posInLow
      refclk := s.pwr.refclk, lrefclk := s.pwr.lrefclk, busTraffic := s.pwr.busTraffic || s.nd.da.isSome }
    nd := { Ndomir.reset with
      fw := s.nd.fw, identity := s.nd.identity, config := s.nd.config, log := s.nd.log, ledger := s.nd.ledger, burnPending := s.nd.burnPending
      wipeRec := s.nd.wipeRec }
    hbm := { Hbm.reset with repaired := s.hbm.repaired } }

/-- VIN_RISE: above 52 V the converters start (step 1). -/
def execVinRise (s : State) : Host.Outcome State Fault Refusal :=
  answerTap s fun s =>
    if s.pwr.supply == .absent then (s.modPwr fun p => { p with supply := .ramping, step := 1 }).showFuses else s

/-- VIN_FALL: the power-down (R466). -/
def execVinFall (s : State) : Host.Outcome State Fault Refusal :=
  answerTap s fun s => if s.pwr.supply == .absent then s else s.powerDown

/-- VIN_SURGE: the ledger counts it (R426). -/
def execVinSurge (s : State) : Host.Outcome State Fault Refusal :=
  answer true s fun s => if s.ndRuns then s.led fun l => { l with surges := satAdd 32 l.surges 1 } else s

/-- Step 4: a port enters Detect once the host die runs and its PERST is high; not in recovery and not while a wipe pends from
before the start (R431, R438). -/
def State.portsDetect (s : State) : State :=
  if !s.powered || (if s.pwr.step < 3 then s.recoveryDue else s.nd.recovery) || (s.wipeMark.isSome && (s.nd.wiping == some 5 || decide (s.pwr.step < 3))) then s
  else
    (List.range 2).foldl (fun s p =>
      if s.pwr.perstN.getD p false then s.modPort p fun x => { x with inDetect := true } else s) s

/-- CONVERTER_SOFT_START_COMPLETE: the host-and-management die leaves reset and its timer starts at 0 (step 2). -/
def State.softStart (s : State) : State :=
  let s := s.modPwr fun p => { p with supply := .on, step := 2, timer := 0 }
  ((s.setFld F.PWR_THRSTAT_LEVEL (b2n s.pwr.throttleN)).showRef).portsDetect

def execConverterSoftStartComplete (s : State) : Host.Outcome State Fault Refusal :=
  answer true s fun s => if s.pwr.supply == .ramping then s.softStart else s

/-- The compute, MSE and link dies leave reset and HBM training starts (step 6), once Ndomir runs and no reset holds. -/
def State.leaveReset (s : State) : State :=
  if s.pwr.step == 3 && s.pwr.hold.isNone && !s.nd.recovery then
    ((s.modPwr fun p => { p with step := 6 }).setFld F.DBG_DEVSTATE_PHASE 2).loadTimers.trainEnabled
  else s

/-- Bytes of a number, most significant first. -/
def bigBytes (n v : Nat) : List Byte := (toBytes n v).reverse

/-- SHA-256 of an owner key; zero when unowned. -/
def ownerHashOf (k : Option Key) : BitVec 256 :=
  match k with
  | some x => Config.sha256 (bigBytes 64 x.toNat)
  | none => 0

/-- Ndomir takes over what the configuration store holds (Table 13.5). -/
def State.loadConfig (s : State) : State :=
  let c := s.stored
  let s := { s with
    saf := { s.saf with slots := c.slots.map fun x => { x with testing := false } }
    pwr := { s.pwr with shed := c.shed }
    hbm := { s.hbm with redirect := c.redirect, repairDue := true }
    nd := { s.nd with
      owner := c.owner, tenants := c.tenants, tenantRegion := c.tenantRegion, spareLanes := c.spareLanes, lcores := c.lcores
      wiping := c.pendingWipe.map fun _ => 5, wipeResume := c.pendingWipe.isSome } }
  (List.range 16).foldl (fun s i => s.showPhases i (s.pwr.shed.getD i 0)) s

/-- The cellar map of the configuration store goes into the registers (R440, R349). -/
def State.loadMap (s : State) : State :=
  (List.range 16).foldl (fun s q => s.setReg .SAF_CMAP q 0 (s.stored.cmap.getD q cmapReset)) s

/-- The ledger as found, or a new one with LOST set where both banks are invalid (R428): its cellar fields and its owner are
taken from the configuration store. A part whose configuration store is lost has no owner, which the ledger records (Table
13.5). -/
def State.loadLedger (s : State) : State :=
  let c := storeValue s.nd.config
  match storeValue s.nd.ledger with
  | some l => s.modNd fun n => { n with
      live := if c.isNone then { l with ownerHash := 0 } else l, logBuf := (storeValue n.log).getD [] }
  | none =>
    let s := s.modNd fun n => { n with live := { Ledger.reset with lost := true }, logBuf := (storeValue n.log).getD [] }
    s.led fun l => { l with
      nibs := s.loadMap.nibsUsed, lanes := s.loadMap.lanesUsed, slots := s.loadMap.slotsRetired, linkLanes := s.nd.spareLanes.length
      phases := s.pwr.shed.sum, hbmret := s.stored.hbmret, ownerHash := ownerHashOf s.nd.owner }

/-- FIRMWARE_VERIFIED: the ROM takes the banks; Ndomir starts, loads its stores and counts a power-up, or starts in recovery
(step 3); on a bus that already carries traffic it asks for Hot-Join (R413). -/
def State.firmwareVerified (s : State) : State :=
  let rec_ := s.recoveryDue
  let s := s.modPwr fun p => { p with step := 3 }
  let s := (s.modNd fun n => { n with recovery := rec_ }).loadConfig.loadLedger
  let s := [1, 2, 3].foldl State.takeBank s
  let s := (s.ledNow fun l => { l with powerups := satAdd 32 l.powerups 1 }).loadIds.loadMgt.showState
  let s := if s.pwr.busTraffic then s.emit .hotJoin else s
  s.leaveReset

def execFirmwareVerified (s : State) : Host.Outcome State Fault Refusal :=
  answer true s fun s => if s.powered && s.pwr.step == 2 then s.firmwareVerified else s

/-- The stacks that fail training place the device in the safe state (R439, R460). -/
def State.trainingFailed (s : State) (mask : Nat) : State :=
  let n := ((List.range 12).filter mask.testBit).length
  let r : Rec := { source := 0x07, cls := RC.fatal, level := 5, loc := hostLoc }
  let s := (List.range n).foldl (fun s _ => s.record r) s
  let s := ((s.setFld F.DBG_DEVSTATE_PHASE 7).setFld F.DBG_DEVSTATE_FAIL 1).setFld F.DBG_DEVSTATE_STACKS mask
  (s.enterSafe 0x07).showState

/-- Hard repair of the rows behind retired blocks, at a power-up; `rows` names the blocks whose banks have a spare row left
(R188). -/
def Hbm.repairRows (h : Hbm) (rows : List Nat) : Hbm :=
  let due := rows.filter fun b => h.repairDue && (Sparse.find h.redirect b).isSome && !h.repaired.contains b
  { h with repaired := due.foldl (fun l b => insertNat b l) h.repaired, repairDue := false }

/-- Step 7: every unit of every stack is zero and unpoisoned, the redirection table is loaded, and the rate is in force. No stack
has failed this training (log entry 114). -/
def State.hbmReset (s : State) (qual : Bool) : State :=
  let ret := s.stored.hbmret
  let s := s.modHbm fun h => { h with
    bytes := [], poison := [], latent := [], blockCe := [], retiring := [], asleep := [], idle := false, tlb := []
    tlbInv := [] }
  let s := s.setFld F.MEM_HBMCFG_QUAL (b2n qual)
  let s := s.setFld F.MEM_HBMCFG_RATE (b2n (qual && s.flag F.MEM_HBMCFG_MAXRATE))
  let s := (List.range 12).foldl (fun s k => s.setFld F.MEM_HBMRET_USED (ret.getD k 0) k) s
  let s := (s.setFld F.DBG_DEVSTATE_FAIL 0).setFld F.DBG_DEVSTATE_STACKS 0
  (s.modPwr fun p => { p with step := 7 }).setFld F.DBG_DEVSTATE_PHASE 3

/-- HBM_TRAINING_COMPLETE (step 7). Blocks already retired stay retired, whichever rows are repaired (R188). -/
def execHbmTrainingComplete (failed : BitVec 12) (qual : Bool) (repair : List Nat) (s : State) :
    Host.Outcome State Fault Refusal :=
  answer true s fun s =>
    if !s.diesUp || s.pwr.step != 6 || s.fld F.DBG_DEVSTATE_PHASE != 2 then s
    else
      let mask := if s.pwr.lrefclk then failed.toNat else 0xFFF
      if mask = 0 then (s.modHbm fun h => h.repairRows repair).hbmReset qual else s.trainingFailed mask

/-- CORE.MXNMAP of a slot shows its retired nibs (R101); MXCHK.FRET and BRET count from the reset on (log entry 91). -/
def State.loadNibMap (s : State) (p : Nat) : State :=
  let x := s.slot p
  let s := (List.range 4).foldl (fun s r => match x.bRet.getD r none with
    | some col => if col < 16 then s.setFld (nibField .b r) (16 + col) p else s
    | none => s) s
  (List.range 2).foldl (fun s k => match x.fRet.getD k none with
    | some (r, col) => if col < 8 then s.setFld (nibField .f (2 * k)) (16 + r % 2 * 8 + col) p else s
    | none => s) s

/-- A slot's result of the core self-test: a record where a run failed, retirement where both did; a slot already retired is
tested too (R338, R440). -/
def State.selfTested (s : State) (once twice : List Nat) (p : Nat) : State :=
  if twice.contains p then if s.isRetired p then s else (s.testRecord p .datapath).retire p 0x0B
  else
    let s := if once.contains p then s.testRecord p .failThenPass else s
    (s.modSlot p fun x => { x with tested := true, worked := false, passStep := BitVec.ofNat 32 s.stepNo }).count F.SAF_IFTSTAT_PASSES 1

/-- The cores of a cluster take their slots by R340 and R341, the lowest core and the lowest slot first. -/
def State.mapCores (s : State) (q : Nat) (good : List Nat) : List Nat → List Nat → State
  | [], free => s.setSpare q free.head?
  | c :: r, free =>
    if good.contains (s.phys c) then s.mapCores q good r free
    else match free with
      | p :: f => (s.setCoreSlot c (p % 5)).mapCores q good r f
      | [] => (s.loseCore c (s.phys c) 0x0B).mapCores q good r []

/-- The map of one cluster: the available cores keep their slots where those passed. -/
def State.mapCluster (s : State) (q : Nat) : State :=
  let good := (List.range 5).filterMap fun i => if s.isRetired (5 * q + i) then none else some (5 * q + i)
  let cs := ((List.range 4).map fun i => 4 * q + i).filter s.avail
  let free := good.filter fun p => !cs.any fun c => s.phys c == p
  s.mapCores q good cs free

/-- The accumulators of an MSE die are zero, and no word of them is in error. -/
def Mse.zeroed (m : Mse) : Mse :=
  { m with ranges := m.ranges.map fun (r : ARange) => { r with acc := [], bad := [], nf := none, flagged := [], poisoned := false } }

/-- Step 8: every SRAM of the cores and of the MSE dies is zero, and the cellar map is applied and loaded. -/
def State.selfTest (s : State) (once twice : List Nat) : State :=
  let s := State.loadMap { s with lmem := [], mses := s.mses.map Mse.zeroed }
  let old := (List.range 16).map fun q => s.reg .SAF_CMAP q 0
  let s := (List.range 80).foldl (fun s p => s.selfTested once twice p) s
  let s := (List.range 16).foldl State.mapCluster s
  let s := (List.range 80).foldl State.loadNibMap s
  let s := (s.modPwr fun p => { p with step := 8 }).setFld F.DBG_DEVSTATE_PHASE 4
  if ((List.range 16).map fun q => s.reg .SAF_CMAP q 0) = old then s.showCellar else s.cellarChanged

/-- CORE_SELF_TEST_COMPLETE (step 8): not while a wipe pends (R432). -/
def execCoreSelfTestComplete (once twice : List Nat) (s : State) : Host.Outcome State Fault Refusal :=
  answer true s fun s =>
    if s.diesUp && s.pwr.step == 7 && s.nd.wiping.isNone && !s.safe then s.selfTest once twice else s

/-! ## READY (R424, R441, R442) -/

/-- The lowest SVN among the active images. -/
def State.lowestSvn (s : State) : Nat :=
  let l := [1, 2, 3].filterMap fun c => (s.activeImage c).map (·.svn.toNat)
  l.foldl min 63

/-- Key slots that the active images revoke, except those that they use. -/
def State.revokedNow (s : State) : BitVec 4 :=
  let l := [1, 2, 3].filterMap s.activeImage
  let used := l.foldl (fun a i => a ||| 2 ^ i.keySlot.toNat) 0
  let named := l.foldl (fun a i => a ||| i.revoke.toNat) 0
  BitVec.ofNat 4 (named - (named &&& used))

/-- At the first READY after an activation Ndomir burns fuses (R424). -/
def State.burnFuses (s : State) : State :=
  if !s.nd.burnPending then s
  else
    let svn := max s.fuses.svn s.lowestSvn
    let rev := s.fuses.revoked ||| s.revokedNow
    ({ s with fuses := { s.fuses with svn := svn, revoked := rev } }.modNd fun n => { n with burnPending := false }).loadMgt

/-- Step 10. STARTTIME is a free value: no clock of the model counts the start (log entry 5). -/
def State.becomeReady (s : State) : State :=
  let s := (s.modPwr fun p => { p with step := 10 }).setFld F.DBG_DEVSTATE_PHASE 5
  let s := (s.setReg .DBG_STARTTIME 0 0 (BitVec.ofNat 32 (Config.pick s.free))).drawn
  s.burnFuses.showState.seqReady

/-- The end of the link wait (step 9): READY, unless a refurbishment holds the device, or its grade of record is
withdrawn (R434, R435, R442). -/
def State.linkWaitEnd (s : State) : State :=
  let s := s.modPwr fun p => { p with step := 9 }
  if s.nd.refurbishing then s
  else if s.nd.live.grade = 3 then (s.setFld F.DBG_DEVSTATE_PHASE 7).setFld F.DBG_DEVSTATE_FAIL 2
  else s.becomeReady

def execLinkWaitEnd (s : State) : Host.Outcome State Fault Refusal :=
  answer true s fun s => if s.diesUp && s.pwr.step == 8 then s.linkWaitEnd else s

/-! ## Resets of DEVRST_N scope (R444 to R446) -/

/-- DBG.RSTCAUSE.CAUSE. -/
def RstSrc.code : RstSrc → Nat
  | .powerUp => 0 | .pin => 1 | .register => 2 | .wipe => 3 | .refurbish => 4

/-- SEQ, links, cores, engines, channels and their registers as after reset; LNK.NODE keeps POSV and POS (Table 14.2), and a
spare lane stays with its link (R252). The peers have yet to learn that a safe state ends (R265). -/
def State.resetDies (s : State) : State :=
  let spares := (List.range 96).filter fun l => s.flag F.LNK_STAT_SPUSE l
  let lane := fun l => s.fld F.LNK_STAT_SPLANE l
  let untold := if s.safe then (List.range 64).filter (· != s.position) else s.net.leftSafe
  let posv := s.fld F.LNK_NODE_POSV
  let pos := s.fld F.LNK_NODE_POS
  let s := { s with
    cores := List.replicate 64 Core.reset, blot := List.replicate 16 [], mses := List.replicate 6 Mse.reset
    dmas := List.replicate 32 Dma.reset, net := { LinkNet.reset with leftSafe := untold }, seq := Seq.reset
    saf := { s.saf with
      slots := s.saf.slots.map (fun (x : Slot) => { x with testing := false }), waitingCores := [], clusterTests := [], testHold := none, unplanned := [] } }
  let s := s.modHbm fun h => { h with tlb := [], tlbInv := [], retiring := [], asleep := [], idle := false }
  let s := s.resetBlocks [.seq, .mem, .mse, .dma, .lnk, .num, .core]
  let s := (s.setFld F.LNK_NODE_POSV posv).setFld F.LNK_NODE_POS pos
  let s := spares.foldl (fun s l => (s.setFld F.LNK_STAT_SPUSE 1 l).setFld F.LNK_STAT_SPLANE (lane l) l) s
  (s.setFld F.SAF_STATE_SAFE 0).setFld F.SAF_IFTSTAT_STATE 0

/-- A reset of DEVRST_N scope starts (R446). -/
def State.enterReset (s : State) (src : RstSrc) : State :=
  let s := s.halt HC.host (BitVec.ofNat 16 s.node)
  let s := (List.range 2).foldl (fun s p => (List.range 256).foldl (fun s q => s.revokeNow p q) s) s
  let s := s.resetDies
  let s := s.modPwr fun p => { p with step := min p.step 3, hold := some src }
  let s := if s.tap.ir.seizes then s.emit (.lands s.landsDriven) else s
  let s := (s.setFld F.DBG_DEVSTATE_PHASE 6).count F.DBG_RSTCAUSE_COUNT 1
  let s := s.setReg .DBG_STARTTIME 0 0 0
  let s := s.modNd fun n => { n with wipeResume := n.wiping.isSome }
  if s.ndRuns then
    (s.setFld F.MGT_STAT_STATE s.mgtStateNow).modNd (fun n => { n with devState := s.devStateNow })
      |>.queueEvent (.sensor 0x100 s.devStateNow)
  else s

/-- A request for a reset: it merges into one in progress; RSTCAUSE records the source of the latest (R444). -/
def State.startReset (s : State) (src : RstSrc) : State :=
  let s := s.setFld F.DBG_RSTCAUSE_CAUSE src.code
  let s := if s.pwr.hold.isSome then s.modPwr fun p => { p with hold := some src } else s.enterReset src
  s.modPwr fun p => { p with pinHold := p.pinHold || src == .pin, softHold := p.softHold || src != .pin }

/-- New images of the other dies are verified again before they run (R446). -/
def State.takeImages (s : State) : State :=
  if !s.pwr.imagePending then s
  else ([2, 3].foldl State.takeBank s).modPwr fun p => { p with imagePending := false }

/-- The hold ends where neither the pin nor the 1 ms keeps it, and power-up resumes at step 6. An instruction of the TAP that
has seized the lands has its effect no longer (R461). -/
def State.holdEnds (s : State) : State :=
  if s.pwr.hold.isNone || s.pwr.pinHold || s.pwr.softHold then s
  else
    let s := if s.tap.ir.seizes then s.emit (.lands none) else s
    let s := (s.modPwr fun p => { p with hold := none }).setFld F.DBG_DEVSTATE_PHASE 1
    let s := s.takeImages
    let s := if s.ndRuns then
        (s.modNd fun n => { n with devState := s.devStateNow }).queueEvent (.sensor 0x100 s.devStateNow)
      else s
    s.leaveReset

/-- DEVRST_N_FALL: the filter starts to time the low level. -/
def execDevrstNFall (s : State) : Host.Outcome State Fault Refusal :=
  answer true s fun s => s.modPwr fun p => { p with devrstN := false }

/-- DEVRST_N_QUALIFY. -/
def execDevrstNQualify (s : State) : Host.Outcome State Fault Refusal :=
  answer true s fun s =>
    if s.powered && !s.pwr.devrstN && !s.pwr.pinHold then s.startReset .pin else s

/-- DEVRST_N_RISE. -/
def execDevrstNRise (s : State) : Host.Outcome State Fault Refusal :=
  answer true s fun s => (s.modPwr fun p => { p with devrstN := true, pinHold := false }).holdEnds

/-- DEVRST: a keyed write of DBG.RSTCTL (R444). -/
def execDevrst (port : Nat) (s : State) : Host.Outcome State Fault Refusal :=
  answer (isPort port) s fun s => s.bar0Write port .DBG_RSTCTL 0 0 fun s => s.startReset .register

/-- RESET_HOLD_END: the 1 ms of a reset that did not come from the pin. -/
def execResetHoldEnd (s : State) : Host.Outcome State Fault Refusal :=
  answer true s fun s => if s.pwr.softHold then (s.modPwr fun p => { p with softHold := false }).holdEnds else s

/-! ## Ports (R378, R438, R447) -/

/-- The HIF registers of a port return to their reset values; a port whose link stays up keeps PSTAT. -/
def State.resetPortRegs (s : State) (p : Nat) (keepLink : Bool) : State :=
  let st := s.reg .HIF_PSTAT p 0
  let lo := 0x10000 * (p + 1)
  let s := { s with regs := s.regs.filter fun e => decide (e.1 < lo) || decide (lo + 0x10000 ≤ e.1) }
  if keepLink then s.setReg .HIF_PSTAT p 0 st else s

/-- A pair after a reset of its port: its fetch numbers go on. -/
def Pair.afterReset (x : Pair) : Pair := { Pair.reset with nextId := x.nextId }

/-- An append that does not come from a port. -/
def notFrom (p : Nat) (e : Nat × List DWord × Issuer) : Bool :=
  match e.2.2 with
  | .queue x _ _ => x != p
  | _ => true

/-- A port's reset: link, configuration space, MSI-X, HIF registers and pairs; its descriptors stop without an entry. -/
def State.resetPort (s : State) (p : Nat) (keepLink : Bool) : State :=
  let s := (s.dropMoves p).resetPortRegs p keepLink
  let s := { s with mses := s.mses.map fun (m : Mse) => { m with waitAppend := m.waitAppend.filter (notFrom p) } }
  s.modPort p fun x => { Port.reset with
    inDetect := keepLink && x.inDetect, configured := keepLink && x.configured, pairs := x.pairs.map Pair.afterReset }

/-- PERST_ASSERT. -/
def execPerstAssert (port : Nat) (s : State) : Host.Outcome State Fault Refusal :=
  answer (isPort port) s fun s =>
    let s := s.modPwr fun p => { p with perstN := p.perstN.set port false }
    if s.powered then s.resetPort port false else s

/-- PERST_DEASSERT: the port proceeds to Detect (step 4). -/
def execPerstDeassert (port : Nat) (s : State) : Host.Outcome State Fault Refusal :=
  answer (isPort port) s fun s => (s.modPwr fun p => { p with perstN := p.perstN.set port true }).portsDetect

/-- FUNCTION_LEVEL_RESET: as PERST, with the link kept. -/
def execFunctionLevelReset (port : Nat) (s : State) : Host.Outcome State Fault Refusal :=
  answer (isPort port) s fun s => if s.powered && (s.port port).configured then s.resetPort port true else s

/-- A pair of a port that enters D3hot: disabled unless it is revoked; the entries of its descriptors are dropped. -/
def State.pairD3 (s : State) (p q : Nat) : State :=
  let s := s.modPair p q fun x => { x with fetched := x.fetched.map fun f => { f with dropped := true } }
  if s.qState p q == QS.disabled || s.qState p q == QS.revoked then s
  else ((s.setFld F.HIF_QCTL_EN 0 p q).setFld F.HIF_QSTAT_STATE QS.disabled p q).setFld F.HIF_QSTAT_ERR 0 p q

/-- A port enters D3hot. Pairs that were on their way to be revoked are no longer, and CLAIMED is raised (R378, R405). -/
def State.enterD3 (s : State) (p : Nat) : State :=
  let claimed := (List.range 256).any fun q => s.isRevoking p q
  let s := (List.range 256).foldl (fun s q => s.pairD3 p q) (s.modPort p fun x => { x with d3hot := true })
  if claimed then s.claimedDue p else s

/-- D3HOT_ENTRY. -/
def execD3hotEntry (port : Nat) (s : State) : Host.Outcome State Fault Refusal :=
  answer (isPort port) s fun s => if s.powered && (s.port port).configured then s.enterD3 port else s

/-- PORT_LINK_UP: a port in Detect with its reference clock trains (R459). -/
def execPortLinkUp (port : Nat) (width speed : BitVec 3) (s : State) : Host.Outcome State Fault Refusal :=
  answer (isPort port) s fun s =>
    if s.powered && (s.port port).inDetect && s.pwr.refclk.getD port false && decide (width.toNat ≤ 4)
        && decide (1 ≤ speed.toNat) && decide (speed.toNat ≤ 5) then
      ((s.setFld F.HIF_PSTAT_WIDTH width.toNat port).setFld F.HIF_PSTAT_SPEED speed.toNat port).setFld F.HIF_PSTAT_UP 1 port
    else s

/-- PORT_LINK_DOWN. -/
def execPortLinkDown (port : Nat) (s : State) : Host.Outcome State Fault Refusal :=
  answer (isPort port) s fun s => s.setReg .HIF_PSTAT port 0 0

/-- A held MSI-X message goes out once the port's masks allow it (R400); the output names the highest cause that stands
(log entry 113). -/
def State.flushMsix (s : State) (p : Nat) : State :=
  let x := s.port p
  if s.reg .HIF_MSIXPBA p 0 == 0 || !x.msixEnable || x.msixMask || x.d3hot || s.flag F.HIF_MSIXVCTL_MASK p then s
  else (s.setReg .HIF_MSIXPBA p 0 0).emit (.msix p (Nat.log2 (s.fld F.HIF_ALERT_CAUSE p)))

/-- A port returns to D0: its pairs stay disabled, and a message that it has held goes out. -/
def State.leaveD3 (s : State) (p : Nat) : State := (s.modPort p fun x => { x with d3hot := false }).flushMsix p

/-- D0_RETURN. -/
def execD0Return (port : Nat) (s : State) : Host.Outcome State Fault Refusal :=
  answer (isPort port) s fun s => s.leaveD3 port

/-! ## The configuration space (R377, R378, R382, R472) -/

/-- Address bits of a base address register that can be written: BAR0 of 64 MiB, BAR2 of 1 MiB, BAR4 of its present size. -/
def Port.barMask (x : Port) (i : Nat) : Word :=
  match i with
  | 0 => 0xFC000000
  | 2 => 0xFFF00000
  | 4 => BitVec.ofNat 32 (2 ^ 32 - 2 ^ min 32 x.bar4Log)
  | 5 => BitVec.ofNat 32 (2 ^ 32 - 2 ^ (x.bar4Log - 32))
  | _ => 0xFFFFFFFF

/-- Known bits of a register by a mask; the others are free (log entry 110). -/
def openBits (k : Nat) (mask v : Word) : Word := v ||| (Config.cfgBits k &&& ~~~ mask)

/-- What a read of a configuration register gives. -/
def State.configRead (s : State) (p : Nat) (r : CfgReg) : Word :=
  let x := s.port p
  match r with
  | .id => 0x09601F4B
  | .command => 0x00100000 ||| x.command ||| (if x.memSpace then 2 else 0)
  | .classRev => 0x12000003
  | .header => x.cacheLine.setWidth 32
  | .bar i => x.bars.getD i 0 ||| (if i = 4 then 0xC else if i = 0 ∨ i = 2 then 0x4 else 0)
  | .subsystem => if s.fuses.binS2 then 0x00021F4B else 0x00011F4B
  | .pmcsr => openBits 0 3 (if x.d3hot then 3 else 0)
  | .devCap => openBits 1 0x10000007 0x10000002
  | .devCtl => x.devCtl
  | .devCap2 => openBits 2 0x000333E0 0x00030000
  | .devCtl2 => x.devCtl2
  | .linkStat => BitVec.ofNat 32 (2 ^ s.fld F.HIF_PSTAT_WIDTH p * 2 ^ 20 + s.fld F.HIF_PSTAT_SPEED p * 2 ^ 16)
  | .msixCtl => openBits 3 0xC7FF00FF ((if x.msixEnable then 0x80000000 else 0) ||| (if x.msixMask then 0x40000000 else 0) ||| 0x11)
  | .msixTable => BitVec.ofNat 32 (0x10000 * (p + 1) + 0x4000)
  | .msixPba => BitVec.ofNat 32 (0x10000 * (p + 1) + 0x5000)
  | .aer i => x.aer.getD i 0
  | .dsnLo => BitVec.ofNat 32 s.fuses.serial.toNat
  | .dsnHi => BitVec.ofNat 32 (s.fuses.serial.toNat / 2 ^ 32)
  | .rebarCap => BitVec.ofNat 32 (((List.range 11).map fun i => 2 ^ (14 + i)).sum)
  | .rebarCtl => BitVec.ofNat 32 ((x.bar4Log - 20) * 2 ^ 8 + 2 ^ 5 + 4)

/-- A status double word of Advanced Error Reporting is cleared by ones; masks, severities and control take the value. -/
def aerWrite (l : List Word) (i : Nat) (v : Word) : List Word :=
  if i = 1 ∨ i = 4 then l.modify i fun w => w &&& ~~~ v else if i = 2 ∨ i = 3 ∨ i = 5 ∨ i = 6 then l.set i v else l

/-- What a configuration write does. A power state and a function-level reset are those of D3HOT_ENTRY, D0_RETURN and
FUNCTION_LEVEL_RESET; the size of BAR4 changes while Memory Space Enable is 0 (R382). -/
def State.configWrite (s : State) (p : Nat) (r : CfgReg) (v : Word) : State :=
  match r with
  | .command => s.modPort p fun x => { x with memSpace := v.getLsbD 1, command := v &&& 0x544 }
  | .header => s.modPort p fun x => { x with cacheLine := v.setWidth 8 }
  | .bar i => s.modPort p fun x => { x with bars := x.bars.set i (v &&& x.barMask i) }
  | .pmcsr => if v.toNat % 4 = 3 then s.enterD3 p else if v.toNat % 4 = 0 then s.leaveD3 p else s
  | .devCtl => if v.getLsbD 15 then s.resetPort p true else s.modPort p fun x => { x with devCtl := v &&& 0x7FFF ||| (x.devCtl &&& ~~~ v &&& 0xF0000) }
  | .devCtl2 => s.modPort p fun x => { x with devCtl2 := v &&& 0xFFFF }
  | .msixCtl => (s.modPort p fun x => { x with msixEnable := v.getLsbD 31, msixMask := v.getLsbD 30 }).flushMsix p
  | .aer i => s.modPort p fun x => { x with aer := aerWrite x.aer i v }
  | .rebarCtl =>
    let log := bitsOf v.toNat 13 8 + 20
    if 30 ≤ log ∧ log ≤ 40 ∧ !(s.port p).memSpace then s.modPort p fun x => { x with bar4Log := log } else s
  | _ => s

/-- A configuration request is performed, and its completion goes out. -/
def State.configure (s : State) (p : Nat) (rq : CfgReq) : State :=
  match rq with
  | .read r => s.emit (.config p false (some (s.configRead p r)))
  | .write r v => (s.configWrite p r v).emit (.config p false none)

/-- CONFIG_REQUEST: Request Retry Status until Ndomir runs, then the request is performed (step 5, R438). -/
def execConfigRequest (port : Nat) (rq : CfgReq) (s : State) : Host.Outcome State Fault Refusal :=
  answer (isPort port) s fun s =>
    if !s.powered || !s.flag F.HIF_PSTAT_UP port then s
    else if !s.ndRuns then s.emit (.config port true none)
    else (s.modPort port fun x => { x with configured := true }).configure port rq

end Sys2Proof.Machine
end

