-- ==== Sys2Proof/Machine/NdomirCore.lean ====
section
/-! DEFINITION. Ndomir's sensors and what it does at their thresholds (R327, R366, R408, R426), the position chain (R410 to
R412), the hourly writes (R420, R427), event retries (R417) and I3C (R413, R414). -/

namespace Sys2Proof.Machine

/-! ## Sensors -/

/-- Thermal cycles (R426): a rise of more than 40 K above the lowest value since the last fall of more than 40 K. -/
def State.cycleStep (s : State) (t : Nat) : State :=
  if s.nd.tRising then
    if t + 40 < s.nd.tHigh then s.modNd fun n => { n with tRising := false, tLow := t }
    else s.modNd fun n => { n with tHigh := max n.tHigh t }
  else if s.nd.tLow + 40 < t then
    (s.modNd fun n => { n with tRising := true, tHigh := t }).led fun l => { l with cycles := satAdd 32 l.cycles 1 }
  else s.modNd fun n => { n with tLow := min n.tLow t }

/-- Every core voltage goes to 0.55 V (R327). -/
def State.dropVolts (s : State) : State := if s.safe then s.throttleDown else s

/-- Over-temperature: the safe state at the first limit; at 110 °C a junction turns the converters off, after the event is in
the log (R327). -/
def State.overTemp (s : State) (die celsius limit : Nat) (junction : Bool) : State :=
  if celsius < limit then s
  else
    let s := if s.safe then s else s.fatal { source := 0x0E, cls := RC.fatal, level := 5, loc := hostLoc }
    let s := s.dropVolts
    if junction && decide (110 ≤ celsius) then
      ((s.logEntry (.overTemperature die celsius)).writeLog).modPwr fun p => { p with supply := .turnedOff }
    else s

/-- A phase is found faulty and shed: the third lowers the stage's rating, the fourth is the end (R366, R342). -/
def State.shedPhase (s : State) (i : Nat) : State :=
  let n := s.pwr.shed.getD i 0 + 1
  if 12 < n then s
  else
    let r (cls : Nat) : Rec :=
      { source := 0x0F, cls := cls, level := 4, loc := ⟨0x40 + i, 0xFF, 0xFF, Config.pick s.free % 12, 0xFF⟩ }
    let s := (s.modPwr fun p => { p with shed := p.shed.set i n }).showPhases i n
    let s := s.cellarChanged
    if n = 3 then (s.record (r RC.degraded)).drawn
    else if n = 4 then (s.fatal (r RC.fatal)).drawn
    else s

/-- One sample (Table 13.1). The host die runs at a fixed 0.72 V (R359); the input power is formed from VIN and the current
(R367). -/
def State.sample (s : State) (x : SensorSample) : State :=
  let s := s.modNd fun n => { n with sampled := true }
  match x with
  | .junction i c =>
    if 15 ≤ i then s
    else
      let s := s.showSample F.PWR_DSTAT_TJ c i
      (s.cycleStep s.hottest).overTemp i c 105 true
  | .stackTemp k c =>
    if 12 ≤ k then s
    else (s.modNd fun n => { n with stackTemp := n.stackTemp.set k c }).overTemp (0x10 + k / 2) c 100 false
  | .vin v => s.showSample F.PWR_INPUT_VIN v
  | .inputCurrent a => s.showSample F.PWR_INPUT_IIN a
  | .inputPower => s.showPower (s.fld F.PWR_INPUT_VIN * s.fld F.PWR_INPUT_IIN / 100)
  | .stageCurrent i a => if 16 ≤ i then s else s.modNd fun n => { n with stageCur := n.stageCur.set i a }
  | .rate i r => if 14 ≤ i then s else s.showSample F.PWR_DSTAT_RATE r i
  | .voltage i v => if 15 ≤ i then s else s.showSample F.PWR_DSTAT_VOLT (if i = 14 then 720 else v) i
  | .phaseFault i => if 16 ≤ i then s else s.shedPhase i

def execNdomirSensorPoll (x : SensorSample) (s : State) : Host.Outcome State Fault Refusal :=
  answer true s fun s => if s.ndRuns then s.sample x else s

/-! ## Position (R410 to R412) -/

/-- The position word of a good frame: start 0, stop 1, odd parity over word and parity bit. -/
def frameWord (f : BitVec 9) : Option (BitVec 6) :=
  let w := bitsOf f.toNat 7 2
  let ones := ((List.range 7).filter fun i => f.toNat.testBit (i + 1)).length
  if f.toNat.testBit 8 || !f.toNat.testBit 0 || ones % 2 = 0 then none else some (BitVec.ofNat 6 w)

/-- The frame of a position word (R410): start 0, the word with its most significant bit first, odd parity, stop 1. -/
def posFrame (w : BitVec 6) : BitVec 9 :=
  let parity := ((List.range 6).filter w.getLsbD).length % 2 == 0
  (0#1 ++ w) ++ BitVec.ofBool parity ++ 1#1

/-- The position is latched, once per power-up: the node id is known and fabric links may train. -/
def State.latchPosition (s : State) (w : BitVec 6) : State :=
  let s := s.modNd fun n => { n with position := some w, confRun := 0 }
  let s := (s.setFld F.MGT_POS_POSV 1).setFld F.MGT_POS_POS w.toNat
  ((s.setFld F.LNK_NODE_POSV 1).setFld F.LNK_NODE_POS w.toNat).trainEnabled

/-- A conflict (R412). -/
def State.positionConflict (s : State) (w : BitVec 6) : State :=
  let s := (s.setFld F.MGT_POS_CONFLICT 1).setFld F.MGT_POS_CWORD w.toNat
  (s.mgtAlert MA.conflict).queueEvent (.sensor 0x100 s.nd.devState)

/-- A good frame. -/
def State.goodFrame (s : State) (w : BitVec 6) : State :=
  match s.nd.position with
  | none =>
    let run := if s.nd.run ≠ 0 ∧ s.nd.lastWord = w then s.nd.run + 1 else 1
    let s := s.modNd fun n => { n with lastWord := w, run := run }
    if run = 3 then s.latchPosition w else s
  | some p =>
    if w = p then s.modNd fun n => { n with confRun := 0 }
    else
      let run := if s.nd.confRun ≠ 0 ∧ s.nd.confWord = w then s.nd.confRun + 1 else 1
      let s := s.modNd fun n => { n with confWord := w, confRun := run % 3 }
      if run = 3 then s.positionConflict w else s

/-- POSITION_FRAME: frames with bad parity or framing are ignored. -/
def execPositionFrame (frame : BitVec 9) (s : State) : Host.Outcome State Fault Refusal :=
  answer true s fun s =>
    let s := s.modPwr fun p => { p with posInLow := false }
    if !s.ndRuns then s
    else match frameWord frame with
      | none => s
      | some w => s.goodFrame w

/-- POS_IN_LOW_TIMEOUT: 5 ms low latch position 0. -/
def execPosInLowTimeout (s : State) : Host.Outcome State Fault Refusal :=
  answer true s fun s =>
    let s := s.modPwr fun p => { p with posInLow := true }
    if s.ndRuns && s.nd.position.isNone then s.latchPosition 0 else s

/-- POSITION_FRAME_SEND: the successor's position, every 1 ms. -/
def execPositionFrameSend (s : State) : Host.Outcome State Fault Refusal :=
  answer true s fun s =>
    match s.nd.position with
    | some p => if s.ndRuns && decide (p.toNat < 63) then s.emit (.posOut (posFrame (p + 1))) else s
    | none => s

/-! ## Hourly writes, events, nonces -/

/-- LEDGER_HOURLY: both counts of PWR.THRCNT in the log (R374), then the writes of the ledger and of the log. -/
def execLedgerHourly (s : State) : Host.Outcome State Fault Refusal :=
  answer true s fun s =>
    if !s.ndRuns then s
    else (s.logEntry (.throttleCounts (s.reg .PWR_THRCNT 0 0))).writeLedger.writeLog

/-- EVENT_RETRY_TIMEOUT: sent again, at most three times (R417). -/
def execEventRetryTimeout (s : State) : Host.Outcome State Fault Refusal :=
  answer true s fun s =>
    match s.nd.queue, s.nd.unacked with
    | e :: _, some n =>
      if s.ndRuns && decide (n < 3) then
        (s.modNd fun x => { x with unacked := some (n + 1) }).tell e
      else s
    | _, _ => s

/-- The front event leaves the queue. -/
def State.dropEvent (s : State) : State :=
  ((s.modNd fun n => { n with unacked := none, pendingIbi := false }).setEvents s.nd.queue.tail).sendEvent

/-- PLATFORM_EVENT_ACKNOWLEDGED. -/
def execPlatformEventAcknowledged (s : State) : Host.Outcome State Fault Refusal :=
  answer true s fun s => if s.ndRuns && s.nd.unacked.isSome then s.dropEvent else s

/-- NONCE_EXPIRY (R429). -/
def execNonceExpiry (s : State) : Host.Outcome State Fault Refusal :=
  answer true s fun s => s.modNd fun n => { n with nonce := none }

/-- ALERT_N is driven low (R417). -/
def State.alertLow (s : State) : Bool :=
  s.ndRuns && (s.safe || ((s.reg .MGT_ALERT 0 0) &&& (s.reg .MGT_ALERTEN 0 0) &&& 0xF) != 0)

/-! ## I3C common command codes (R413, R414) -/

/-- The dynamic address, shown in MGT.I3C. -/
def State.setDa (s : State) (a : Option (BitVec 7)) : State :=
  let s := s.modNd fun n => { n with da := a }
  match a with
  | some x => (s.setFld F.MGT_I3C_DAV 1).setFld F.MGT_I3C_DA x.toNat
  | none => (s.setFld F.MGT_I3C_DAV 0).setFld F.MGT_I3C_DA 0

/-- Traffic on the I3C bus that Ndomir does not serve yet: it asks for Hot-Join when it starts (R413, log entry 28). -/
def State.busSeen (s : State) : State := s.modPwr fun p => { p with busTraffic := true }

/-- A code that reaches Ndomir. -/
def onI3c (s : State) (f : State → State) : Host.Outcome State Fault Refusal :=
  answer true s fun s => if s.ndRuns then f s else s.busSeen

/-- An interrupt that pends is raised once nothing disables it. -/
def State.ibiDue (s : State) : State := if s.nd.pendingIbi then s.raiseIbi else s

/-- A code directed to Ndomir's dynamic address. -/
def onI3cDa (s : State) (f : State → State) : Host.Outcome State Fault Refusal :=
  onI3c s fun s => if s.nd.da.isSome then f s else s

def execEntdaa (da : BitVec 7) (s : State) : Host.Outcome State Fault Refusal :=
  onI3c s fun s => if s.nd.da.isNone then (s.setDa (some da)).ibiDue else s

def execRstdaa (s : State) : Host.Outcome State Fault Refusal := onI3c s fun s => s.setDa none

def execSetnewda (da : BitVec 7) (s : State) : Host.Outcome State Fault Refusal := onI3cDa s fun s => s.setDa (some da)

/-- ENEC: an interrupt that waits is raised once its event is enabled. -/
def execEnec (ev : Byte) (s : State) : Host.Outcome State Fault Refusal :=
  onI3c s fun s =>
    (s.modNd fun n => { n with events := n.events ||| ev }).ibiDue

def execDisec (ev : Byte) (s : State) : Host.Outcome State Fault Refusal :=
  onI3c s fun s => s.modNd fun n => { n with events := n.events &&& ~~~ev }

/-- The Provisional ID (R413). -/
def State.provisionalId (s : State) : Nat := 0x0593 * 2 ^ 33 + 2 ^ 32 + s.fuses.serial.toNat % 2 ^ 32

def execGetpid (s : State) : Host.Outcome State Fault Refusal :=
  onI3cDa s fun s => s.emit (.i3c (bigBytes 6 s.provisionalId))

def execGetbcr (s : State) : Host.Outcome State Fault Refusal := onI3cDa s fun s => s.emit (.i3c [0x06])

def execGetdcr (s : State) : Host.Outcome State Fault Refusal := onI3cDa s fun s => s.emit (.i3c [0x00])

/-- GETSTATUS: a pending interrupt shows in bits [3:0] (the I3C standard's layout, log entry 28). -/
def execGetstatus (s : State) : Host.Outcome State Fault Refusal :=
  onI3cDa s fun s => s.emit (.i3c [0x00, BitVec.ofNat 8 (b2n s.nd.pendingIbi)])

def execGetmwl (s : State) : Host.Outcome State Fault Refusal :=
  onI3cDa s fun s => s.emit (.i3c (bigBytes 2 s.nd.mwl.toNat))

def execSetmwl (v : BitVec 16) (s : State) : Host.Outcome State Fault Refusal :=
  onI3c s fun s => s.modNd fun n => { n with mwl := v }

def execGetmrl (s : State) : Host.Outcome State Fault Refusal :=
  onI3cDa s fun s => s.emit (.i3c (bigBytes 2 s.nd.mrl.toNat))

def execSetmrl (v : BitVec 16) (s : State) : Host.Outcome State Fault Refusal :=
  onI3c s fun s => s.modNd fun n => { n with mrl := v }

end Sys2Proof.Machine
end

