-- ==== Sys2Proof/Machine/Management.lean ====
section
/-! DEFINITION. Ndomir's answers over MCTP: control commands (R415), PLDM base, platform and firmware update (R408, R409, R416,
R417, R423), SPDM (R418, R419), and the bytes of the ledger and of the wipe record (Table 13.7, R433). Message codes and
completion codes are those of the DMTF standards that the rules name (log entry 28). -/

namespace Sys2Proof.Machine

/-! ## Reaching Ndomir -/

/-- The port of a medium. -/
def mediumIndex : Medium → Nat
  | .i3c => 0 | .pcie0 => 1 | .pcie1 => 2

/-- A message on a medium reaches the endpoint: over I3C with a dynamic address, over PCIe on a configured port whose link is
up; in recovery over I3C alone (R415, R422). -/
def State.reaches (s : State) (md : Medium) : Bool :=
  s.ndRuns && match md with
    | .i3c => s.nd.da.isSome
    | .pcie0 => !s.nd.recovery && (s.port 0).configured && s.flag F.HIF_PSTAT_UP 0
    | .pcie1 => !s.nd.recovery && (s.port 1).configured && s.flag F.HIF_PSTAT_UP 1

/-- The bytes of an answer before its data: message type, header and completion code of the standards (log entry 28). -/
def replyHeader (code : Nat) : Nat := if code / 0x1000 = 1 then 4 else 5

/-- An answer: cut into packets of the medium's transmission unit; over I3C it waits for the controller (R414, R415). -/
def State.reply (s : State) (md : Medium) (code cc : Nat) (data : List Byte) : State :=
  (s.emit (.mgmt md code (BitVec.ofNat 8 cc) (mctpPackets (s.unitOf md) (replyHeader code) data))).announce md

/-- A request that reaches the endpoint; one on the I3C bus of a device that does not run is traffic. -/
def onMedium (md : Medium) (s : State) (f : State → State) : Host.Outcome State Fault Refusal :=
  answer true s fun s => if s.reaches md then f s else if md = .i3c ∧ s.ndRuns = false then s.busSeen else s

/-- PLDM types (Table 13.2) that are served: types 0 and 5 alone in recovery (R422). -/
def State.pldmServed (s : State) (ty : Nat) : Bool :=
  ty == 0 || ty == 5 || (!s.nd.recovery && (ty == 2 || ty == 63))

/-- A PLDM request: `f` where its type is served, ERROR_UNSUPPORTED_PLDM_CMD otherwise (R416). -/
def onPldm (md : Medium) (ty cmd : Nat) (s : State) (f : State → State) : Host.Outcome State Fault Refusal :=
  onMedium md s fun s => if s.pldmServed ty then f s else s.reply md (ty * 256 + cmd) 0x05 []

/-- An SPDM request; not served in recovery. -/
def onSpdm (md : Medium) (s : State) (f : State → State) : Host.Outcome State Fault Refusal :=
  onMedium md s fun s => if s.nd.recovery then s else f s

/-- Bytes whose content the manual leaves to a standard: free values (log entry 28). -/
def State.stdBytes (s : State) (n : Nat) : List Byte := (List.range n).map fun i => Config.dmtf (256 * s.free + i)

/-! ## MCTP control (R415); message codes 0x1000 + command -/

/-- SET_ENDPOINT_ID: each medium has its own; the null and the broadcast id are refused. -/
def execSetEndpointId (md : Medium) (eid : Byte) (s : State) : Host.Outcome State Fault Refusal :=
  onMedium md s fun s =>
    if eid = 0 ∨ eid = 0xFF then s.reply md 0x1001 0x02 []
    else (s.modNd fun n => { n with eid := n.eid.set (mediumIndex md) eid }).reply md 0x1001 0 [eid]

def execGetEndpointId (md : Medium) (s : State) : Host.Outcome State Fault Refusal :=
  onMedium md s fun s => s.reply md 0x1002 0 [s.nd.eid.getD (mediumIndex md) 0]

def execGetEndpointUuid (md : Medium) (s : State) : Host.Outcome State Fault Refusal :=
  onMedium md s fun s => s.reply md 0x1003 0 (bigBytes 16 (Config.uuid s.fuses.serial).toNat)

/-- Major and minor version 1.3 for MCTP itself (0x00 and 0xFF); the bindings' versions are the standards' own. -/
def execGetMctpVersionSupport (md : Medium) (ty : Byte) (s : State) : Host.Outcome State Fault Refusal :=
  onMedium md s fun s =>
    if ty = 0 ∨ ty = 0xFF then s.reply md 0x1004 0 [1, 3]
    else if ty = 1 ∨ ty = 5 then (s.reply md 0x1004 0 (s.stdBytes 2)).drawn
    else s.reply md 0x1004 0x80 []

def execGetMessageTypeSupport (md : Medium) (s : State) : Host.Outcome State Fault Refusal :=
  onMedium md s fun s => s.reply md 0x1005 0 [0x00, 0x01, 0x05]

/-! ## PLDM base (type 0) -/

def execGetTid (md : Medium) (s : State) : Host.Outcome State Fault Refusal :=
  onPldm md 0 2 s fun s => s.reply md 0x0002 0 [s.nd.tid]

/-- SET_TID: 0 and 0xFF are no terminus ids. -/
def execSetTid (md : Medium) (tid : Byte) (s : State) : Host.Outcome State Fault Refusal :=
  onPldm md 0 1 s fun s =>
    if tid = 0 ∨ tid = 0xFF then s.reply md 0x0001 0x02 []
    else (s.modNd fun n => { n with tid := tid }).reply md 0x0001 0 []

/-- Major and minor versions of Table 13.2; the OEM type's is a free value. -/
def execGetPldmVersion (md : Medium) (ty : Byte) (s : State) : Host.Outcome State Fault Refusal :=
  onPldm md 0 3 s fun s =>
    if !s.pldmServed ty.toNat then s.reply md 0x0003 0x83 []
    else match ty.toNat with
      | 0 => s.reply md 0x0003 0 [1, 1]
      | 2 => s.reply md 0x0003 0 [1, 3]
      | 5 => s.reply md 0x0003 0 [1, 1]
      | _ => (s.reply md 0x0003 0 (s.stdBytes 2)).drawn

/-- A bit field of the listed numbers, in `n` bytes. -/
def bitField (n : Nat) (l : List Nat) : List Byte := toBytes n (l.foldl (fun a i => a ||| 2 ^ i) 0)

def execGetPldmTypes (md : Medium) (s : State) : Host.Outcome State Fault Refusal :=
  onPldm md 0 4 s fun s => s.reply md 0x0004 0 (bitField 8 ([0, 2, 5, 63].filter s.pldmServed))

/-- The commands of a type that Ndomir accepts (Tables 13.2 and 13.3), by their numbers in the standards. -/
def pldmCommands (ty : Nat) : List Nat :=
  match ty with
  | 0 => [1, 2, 3, 4, 5]
  | 2 => [0x04, 0x0B, 0x11, 0x21, 0x31, 0x32, 0x50, 0x51]
  | 5 => [0x01, 0x02, 0x10, 0x13, 0x14, 0x1A, 0x1B, 0x1C, 0x1D]
  | _ => [1, 2, 3, 4, 5, 6, 7, 8]

def execGetPldmCommands (md : Medium) (ty : Byte) (s : State) : Host.Outcome State Fault Refusal :=
  onPldm md 0 5 s fun s =>
    if s.pldmServed ty.toNat then s.reply md 0x0005 0 (bitField 32 (pldmCommands ty.toNat)) else s.reply md 0x0005 0x83 []

/-! ## PLDM platform (type 2) -/

/-- SET_EVENT_RECEIVER: what waits goes to the new receiver. -/
def execSetEventReceiver (md : Medium) (recv : Option Byte) (s : State) : Host.Outcome State Fault Refusal :=
  onPldm md 2 4 s fun s =>
    ((s.modNd fun n => { n with receiver := recv, recvMedium := md, unacked := none }).reply md 0x0204 0 []).sendEvent

/-- POLL_FOR_PLATFORM_EVENT_MESSAGE: the front event, where no receiver takes it or has failed to acknowledge it. -/
def execPollForPlatformEventMessage (md : Medium) (s : State) : Host.Outcome State Fault Refusal :=
  onPldm md 2 0x0B s fun s =>
    match s.nd.queue with
    | [] => s.reply md 0x020B 0 []
    | e :: _ =>
      if s.nd.receiver.isNone || s.nd.unacked == some 3 then (s.reply md 0x020B 0 e.bytes).dropEvent
      else s.reply md 0x020B 0 []

/-- A numeric sensor's reading (Table 13.1). -/
def State.sensorValue (s : State) (id : Nat) : Option Nat :=
  if 0x01 ≤ id ∧ id ≤ 0x0F then some (s.fld F.PWR_DSTAT_TJ (id - 1))
  else if 0x10 ≤ id ∧ id ≤ 0x1B then some (s.nd.stackTemp.getD (id - 0x10) 0)
  else if id = 0x20 then some (s.fld F.PWR_INPUT_VIN)
  else if id = 0x21 then some (s.fld F.PWR_INPUT_IIN)
  else if id = 0x22 then some (s.fld F.PWR_PIN_AVG)
  else if 0x30 ≤ id ∧ id ≤ 0x3F then some (s.nd.stageCur.getD (id - 0x30) 0)
  else if 0x40 ≤ id ∧ id ≤ 0x4D then some (s.fld F.PWR_DSTAT_RATE (id - 0x40))
  else if 0x50 ≤ id ∧ id ≤ 0x5E then some (s.fld F.PWR_DSTAT_VOLT (id - 0x50))
  else none

def execGetSensorReading (md : Medium) (id : BitVec 16) (s : State) : Host.Outcome State Fault Refusal :=
  onPldm md 2 0x11 s fun s =>
    match s.sensorValue id.toNat with
    | some v => s.reply md 0x0211 0 (toBytes 4 v)
    | none => s.reply md 0x0211 0x80 []

/-- A state sensor (R408). -/
def State.stateValue (s : State) (id : Nat) : Option Nat :=
  if id = 0x100 then some s.nd.devState
  else if id = 0x101 then some s.nd.live.grade
  else if id = 0x102 then some s.nd.throttleState
  else none

def execGetStateSensorReadings (md : Medium) (id : BitVec 16) (s : State) : Host.Outcome State Fault Refusal :=
  onPldm md 2 0x21 s fun s =>
    match s.stateValue id.toNat with
    | some v => s.reply md 0x0221 0 [BitVec.ofNat 8 v]
    | none => s.reply md 0x0221 0x80 []

/-- SET_NUMERIC_EFFECTER_VALUE: effecter 0x0200 writes PWR.CAP.WATTS (R409). -/
def execSetNumericEffecterValue (md : Medium) (id : BitVec 16) (v : Word) (s : State) : Host.Outcome State Fault Refusal :=
  onPldm md 2 0x31 s fun s =>
    if id = 0x200 then (s.setFld F.PWR_CAP_WATTS (min v.toNat 0xFFFF)).reply md 0x0231 0 [] else s.reply md 0x0231 0x80 []

def execGetNumericEffecterValue (md : Medium) (id : BitVec 16) (s : State) : Host.Outcome State Fault Refusal :=
  onPldm md 2 0x32 s fun s =>
    if id = 0x200 then s.reply md 0x0232 0 (toBytes 4 (s.fld F.PWR_CAP_WATTS)) else s.reply md 0x0232 0x80 []

/-- GET_PDR_REPOSITORY_INFO and GET_PDR: the repository's content is not the manual's to give (log entry 28). -/
def execGetPdrRepositoryInfo (md : Medium) (s : State) : Host.Outcome State Fault Refusal :=
  onPldm md 2 0x50 s fun s => (s.reply md 0x0250 0 (s.stdBytes 40)).drawn

def execGetPdr (md : Medium) (_h : Word) (s : State) : Host.Outcome State Fault Refusal :=
  onPldm md 2 0x51 s fun s => (s.reply md 0x0251 0 (s.stdBytes 64)).drawn

/-! ## PLDM firmware update (type 5, R423) -/

/-- QUERY_DEVICE_IDENTIFIERS: PCI vendor and device id (R472). -/
def execQueryDeviceIdentifiers (md : Medium) (s : State) : Host.Outcome State Fault Refusal :=
  onPldm md 5 1 s fun s => s.reply md 0x0501 0 (toBytes 2 0x1F4B ++ toBytes 2 0x0960)

/-- A byte in decimal, as ASCII. -/
def decimal (b : Nat) : List Byte :=
  let d (n : Nat) : Byte := BitVec.ofNat 8 (0x30 + n % 10)
  if b < 10 then [d b] else if b < 100 then [d (b / 10), d b] else [d (b / 100), d (b / 10), d b]

/-- The version string "x.y.z" of an image, from bytes 0x08 to 0x0A of its header (Table 13.6). -/
def versionString (v : BitVec 64) : List Byte :=
  let b (i : Nat) : List Byte := decimal (v.toNat / 256 ^ i % 256)
  b 0 ++ [0x2E] ++ b 1 ++ [0x2E] ++ b 2

/-- GET_FIRMWARE_PARAMETERS: the version string of each active image, after its type (ASCII) and its length (log entry 28). -/
def execGetFirmwareParameters (md : Medium) (s : State) : Host.Outcome State Fault Refusal :=
  onPldm md 5 2 s fun s => s.reply md 0x0502 0 ([1, 2, 3].flatMap fun c =>
    let v := (s.activeImage c).elim [] fun i => versionString i.version
    [0x01, BitVec.ofNat 8 v.length] ++ v)

/-- REQUEST_UPDATE: one agent at a time; busy while a wipe or a refurbishment runs (R423, R429). -/
def execRequestUpdate (md : Medium) (s : State) : Host.Outcome State Fault Refusal :=
  onPldm md 5 0x10 s fun s =>
    if s.nd.fwu != .idle then s.reply md 0x0510 0x81 []
    else if s.nd.wiping.isSome || s.nd.refurbishing then s.reply md 0x0510 0x86 []
    else ((s.modNd fun n => { n with fwu := .learn, fwuAgent := md, fwuComps := [], fwuVerified := [] }).showState).reply md 0x0510 0 []

/-- A request of the agent that holds update mode. -/
def onUpdate (md : Medium) (cmd : Nat) (s : State) (f : State → State) : Host.Outcome State Fault Refusal :=
  onPldm md 5 cmd s fun s =>
    if s.nd.fwu == .idle || s.nd.fwuAgent != md then s.reply md (0x500 + cmd) 0x80 [] else f s

/-- PASS_COMPONENT_TABLE. -/
def execPassComponentTable (md : Medium) (comps : List Nat) (s : State) : Host.Outcome State Fault Refusal :=
  onUpdate md 0x13 s fun s =>
    if s.nd.fwu == .learn then (s.modNd fun n => { n with fwu := .ready, fwuComps := comps }).reply md 0x0513 0 []
    else s.reply md 0x0513 0x84 []

/-- UPDATE_COMPONENT: the download of a component begins. -/
def execUpdateComponent (md : Medium) (comp : Nat) (s : State) : Host.Outcome State Fault Refusal :=
  onUpdate md 0x14 s fun s =>
    if s.nd.fwu != .ready then s.reply md 0x0514 0x84 []
    else if 1 ≤ comp ∧ comp ≤ 3 ∧ s.nd.fwuComps.contains comp then
      -- RequestFirmwareData goes to the agent
      (((s.modNd fun n => { n with fwu := .download, fwuComp := comp }).reply md 0x0514 0 []).reply md 0x0515 0 [])
    else s.reply md 0x0514 0x02 []

/-- The inactive bank of a component (true: b): the one that a start would not take; where none could be taken, the one that
loses the comparison (R423). -/
def State.inactive (s : State) (c : Nat) : Bool :=
  match s.chooseBank c with
  | some (b, _) => !b
  | none => !storeWinsB (s.fwStore c)

/-- A bank of a component is set. -/
def State.setBank (s : State) (c : Nat) (b : Bool) (x : NorBank (Option FwImage)) : State :=
  s.modNd fun n => { n with fw := n.fw.modify (c - 1) fun st => if b then { st with b := x } else { st with a := x } }

/-- The image goes into the inactive bank, without a sequence number: the bank cannot win. -/
def State.storeImage (s : State) (c : Nat) (i : FwImage) : State :=
  s.setBank c (s.inactive c) { valid := false, seqno := 0, val := some i }

/-- What a firmware image header says (Table 13.6). -/
def FwImage.ofFile (file : ImageFile) : FwImage :=
  let h := file.header
  let f (at_ n : Nat) : Nat := ofBytes ((h.drop at_).take n)
  let zeros := decide (f 6 2 < 16) && f 0x12 2 == 0 && f 0x78 72 == 0
  { wellFormed := h.length == 256 && f 0 4 == 0x4E444649 && zeros && decide (f 0x10 1 < 64) && decide (f 0x11 1 < 4)
      && decide (f 0x14 4 ≤ 2 ^ 24 - 256)
    component := f 4 2, revoke := BitVec.ofNat 4 (f 6 2), version := BitVec.ofNat 64 (f 8 8)
    svn := BitVec.ofNat 6 (f 0x10 1), keySlot := BitVec.ofNat 2 (f 0x11 1), pubkeyHash := Config.sha256 ((h.drop 0x38).take 64)
    digest := BitVec.ofNat 256 (ofBytes ((h.drop 0x18).take 32).reverse), digestOk := file.digestOk, sigOk := file.sigOk }

/-- FIRMWARE_DATA: the image is there; it is written and verified. TransferComplete, VerifyComplete and ApplyComplete tell the
agent. -/
def execFirmwareData (md : Medium) (file : ImageFile) (s : State) : Host.Outcome State Fault Refusal :=
  onUpdate md 0x15 s fun s =>
    let img := FwImage.ofFile file
    if s.nd.fwu != .download then s.reply md 0x0515 0x84 []
    else
      let c := s.nd.fwuComp
      let s := ((s.storeImage c img).reply md 0x0516 0 []).modNd fun n => { n with fwu := .ready }
      if imageFits img c && s.acceptable img then
        ((s.modNd fun n => { n with fwuVerified := n.fwuVerified.filter (· != c) ++ [c] }).reply md 0x0517 0 []).reply md 0x0518 0 []
      else ((s.modNd fun n => { n with fwuVerified := n.fwuVerified.filter (· != c) }).fwHistory c 1 img).reply md 0x0517 0x01 []

/-- The bank of a verified image gets its sequence number and wins (R420, R423). -/
def State.activate (s : State) (c : Nat) : State :=
  let st := s.fwStore c
  let b := s.inactive c
  let x := if b then st.b else st.a
  let s := s.setBank c b { x with valid := true, seqno := (if b then st.a else st.b).seqno + 1 }
  let s := if c = 1 then s else s.modPwr fun p => { p with imagePending := true }
  match x.val with
  | some i => s.fwHistory c 0 i
  | none => s

/-- ACTIVATE_FIRMWARE. -/
def execActivateFirmware (md : Medium) (s : State) : Host.Outcome State Fault Refusal :=
  onUpdate md 0x1A s fun s =>
    if s.nd.fwu != .ready then s.reply md 0x051A 0x84 []
    else if s.nd.fwuVerified.isEmpty then s.reply md 0x051A 0x85 []
    else
      let s := s.nd.fwuVerified.foldl State.activate s
      let s := s.modNd fun n => { n with fwu := .idle, fwuComps := [], fwuVerified := [], burnPending := true }
      ((s.mgtAlert MA.fwready).loadIds.showState).reply md 0x051A 0 []

def FwuState.code : FwuState → Nat
  | .idle => 0 | .learn => 1 | .ready => 2 | .download => 3 | .verify => 4 | .apply => 5 | .activate => 6

def execGetStatus (md : Medium) (s : State) : Host.Outcome State Fault Refusal :=
  onPldm md 5 0x1B s fun s => s.reply md 0x051B 0 [BitVec.ofNat 8 s.nd.fwu.code]

/-- CANCEL_UPDATE_COMPONENT: the component in progress is abandoned. -/
def execCancelUpdateComponent (md : Medium) (s : State) : Host.Outcome State Fault Refusal :=
  onUpdate md 0x1C s fun s =>
    if s.nd.fwu == .download then (s.modNd fun n => { n with fwu := .ready }).reply md 0x051C 0 [] else s.reply md 0x051C 0x84 []

/-- CANCEL_UPDATE: update mode ends; nothing becomes active. -/
def execCancelUpdate (md : Medium) (s : State) : Host.Outcome State Fault Refusal :=
  onUpdate md 0x1D s fun s =>
    ((s.modNd fun n => { n with fwu := .idle, fwuComps := [], fwuVerified := [] }).showState).reply md 0x051D 0 []

/-! ## Bytes of the ledger and the wipe record -/

def padTo (n : Nat) (l : List Byte) : List Byte := (l ++ List.replicate n 0).take n

def FwHist.bytes (h : FwHist) : List Byte :=
  toBytes 4 h.powered.toNat ++ toBytes 2 h.component ++ toBytes 1 h.svn ++ toBytes 1 h.result ++ toBytes 8 h.version.toNat

/-- Bytes 0x000 to 0x3FB of the ledger record (Table 13.7). -/
def Ledger.body (l : Ledger) (serial : DWord) (seqno : Word) : List Byte :=
  toBytes 4 0x4C444752 ++ toBytes 2 1 ++ toBytes 2 (b2n l.lost) ++ toBytes 8 serial.toNat
    ++ toBytes 4 l.powered ++ toBytes 4 l.hot ++ toBytes 4 l.cycles ++ toBytes 4 l.surges ++ toBytes 8 l.energy
    ++ toBytes 4 l.powerups ++ toBytes 4 l.safe ++ toBytes 2 l.nibs ++ toBytes 2 l.lanes ++ toBytes 1 l.slots
    ++ toBytes 1 l.linkLanes ++ toBytes 1 l.phases ++ toBytes 1 l.grade ++ toBytes 4 l.late ++ toBytes 4 l.hbmue
    ++ padTo 48 (l.hbmret.flatMap (toBytes 4)) ++ padTo 96 (l.hbmce.flatMap (toBytes 8))
    ++ bigBytes 32 l.ownerHash.toNat ++ toBytes 4 l.transfers ++ toBytes 2 l.wipes ++ toBytes 2 l.refurbs ++ toBytes 8 0
    ++ padTo 192 (l.margin.flatMap fun m => [m.2, m.1]) ++ List.replicate 64 0
    ++ padTo 256 (l.fwhist.flatMap FwHist.bytes) ++ List.replicate 248 0 ++ toBytes 4 seqno.toNat

/-- The ledger record as last written. -/
def State.ledgerBytes (s : State) : List Byte :=
  let st := s.nd.ledger
  let b := if storeWinsB st then st.b else st.a
  let body := b.val.body s.fuses.serial b.seqno
  body ++ toBytes 4 (crc32c body)

/-- The wipe record (R433). -/
def WipeRec.bytes (w : WipeRec) : List Byte :=
  padTo 64 (toBytes 4 w.wipes ++ toBytes 4 w.powered ++ toBytes 1 w.cause ++ toBytes 1 w.result ++ toBytes 4 w.failed
    ++ bigBytes 32 w.ownerHash.toNat)

/-! ## SPDM (R418, R419); message codes 0x2000 + request code -/

/-- The digest of an image's payload; zero where no image is. -/
def imageDigest (i : Option FwImage) : BitVec 256 :=
  match i with
  | some x => x.digest
  | none => 0

/-- The certificate chain of slot 0: it ends in the alias certificate of the Ndomir image that runs. -/
def State.chain (s : State) : List Byte :=
  let d := imageDigest (s.runImage 1)
  (List.range (Config.chainLen d)).map (Config.chainByte d)

/-- Signed with the alias key. -/
def State.signed (s : State) (m : List Byte) : List Byte :=
  m ++ bigBytes 64 (Config.sign (imageDigest (s.runImage 1)) m).toNat

def execSpdmGetVersion (md : Medium) (s : State) : Host.Outcome State Fault Refusal :=
  onSpdm md s fun s => s.reply md 0x2084 0 [0x12]

/-- CERT_CAP, CHAL_CAP and MEAS_CAP with signature. -/
def execGetCapabilities (md : Medium) (s : State) : Host.Outcome State Fault Refusal :=
  onSpdm md s fun s => s.reply md 0x20E1 0 (toBytes 4 0x16)

/-- ECDSA on P-256 and SHA-256. -/
def execNegotiateAlgorithms (md : Medium) (s : State) : Host.Outcome State Fault Refusal :=
  onSpdm md s fun s => s.reply md 0x20E3 0 (toBytes 4 0x10 ++ toBytes 4 0x01)

/-- GET_DIGESTS: slot 0 alone. -/
def execGetDigests (md : Medium) (s : State) : Host.Outcome State Fault Refusal :=
  onSpdm md s fun s => s.reply md 0x2081 0 ([0x01] ++ bigBytes 32 (Config.sha256 s.chain).toNat)

/-- GET_CERTIFICATE: a part of the chain of slot 0. -/
def execGetCertificate (md : Medium) (slot off n : Nat) (s : State) : Host.Outcome State Fault Refusal :=
  onSpdm md s fun s =>
    if slot ≠ 0 then s.reply md 0x2082 0x01 [] else s.reply md 0x2082 0 ((s.chain.drop off).take n)

/-- What the cellar map holds of a slot, as numbers. -/
def Slot.numbers (x : Slot) : List Nat :=
  x.bRet.map (fun c => c.elim 0 (· + 1)) ++ x.fRet.map (fun c => c.elim 0 fun e => 16 * e.1 + e.2 + 1)
    ++ x.lanes0 ++ x.lanes1.map (· + 128)

/-- The configuration store's content without the tenant region, as numbers: what its digest is taken of. -/
def ConfigStore.content (c : ConfigStore) : List (List Nat) :=
  [c.cmap.map (·.toNat), c.shed, c.redirect.flatMap fun e => [e.1, e.2], c.hbmret, c.spareLanes, c.owner.toList.map (·.toNat),
   c.tenants.map (·.toNat), c.pendingWipe.toList, [c.lcores]] ++ c.slots.map Slot.numbers

/-- The content of a measurement block (Table 13.4). -/
def State.measured (s : State) (i : Nat) : List Byte :=
  match i with
  | 1 => bigBytes 32 (Config.romDigest 0).toNat
  | 2 => bigBytes 32 (imageDigest (s.activeImage 1)).toNat
  | 3 => bigBytes 32 (imageDigest (s.activeImage 2)).toNat
  | 4 => bigBytes 32 (imageDigest (s.activeImage 3)).toNat
  | 5 => bigBytes 32 (Config.storeDigest ((storeValue s.nd.config).elim [] ConfigStore.content)).toNat
  | 6 => toBytes 1 s.fuses.svn ++ [1, 2, 3].flatMap fun c => match s.activeImage c with
    | some x => toBytes 1 x.svn.toNat
    | none => [0]
  | 7 => s.ledgerBytes
  | 8 => bigBytes 32 s.nd.live.ownerHash.toNat ++ toBytes 4 s.nd.live.transfers
  | 9 => s.nd.wipeRec.bytes
  | _ => []

/-- A measurement block: index, the DMTF specification, its size; the type, whose top bit marks a raw bit stream, the size of
the value, and the value (R418; the types and the places are the standard's, log entry 28). -/
def State.measurement (s : State) (i : Nat) : List Byte :=
  let v := s.measured i
  [BitVec.ofNat 8 i, 0x01] ++ toBytes 2 (v.length + 3) ++ [BitVec.ofBool (decide (6 ≤ i)) ++ Config.measType i]
    ++ toBytes 2 v.length ++ v

/-- CHALLENGE: a signed answer over the nonce and the digest of the chain. -/
def execChallenge (md : Medium) (slot : Nat) (idx : Byte) (nonce : BitVec 256) (s : State) : Host.Outcome State Fault Refusal :=
  onSpdm md s fun s =>
    if slot ≠ 0 then s.reply md 0x2083 0x01 []
    else (s.reply md 0x2083 0
      (s.signed (bigBytes 32 (Config.sha256 s.chain).toNat ++ bigBytes 32 nonce.toNat ++ [idx]))).drawn

/-- GET_MEASUREMENTS: index 0 gives the number of blocks, 0xFF all of them. -/
def execGetMeasurements (md : Medium) (slot : Nat) (idx : Byte) (nonce : BitVec 256) (s : State) :
    Host.Outcome State Fault Refusal :=
  onSpdm md s fun s =>
    if slot ≠ 0 ∨ (9 < idx.toNat ∧ idx ≠ 0xFF) then s.reply md 0x20E0 0x01 []
    else if idx = 0 then s.reply md 0x20E0 0 [9]
    else
      let blocks := if idx = 0xFF then ((List.range 9).map (· + 1)).flatMap s.measurement else s.measurement idx.toNat
      (s.reply md 0x20E0 0 (s.signed (blocks ++ bigBytes 32 nonce.toNat))).drawn

end Sys2Proof.Machine
end

