-- ==== Sys2Proof/Machine/Lifecycle.lean ====
section
/-! DEFINITION. Owner and tenant (R429), the tenant wipe (R430 to R433) and refurbishment (R434, R435). -/

namespace Sys2Proof.Machine

/-! ## OEM requests (Table 13.3) -/

/-- Completion codes of R429. -/
def OC.badSig : Nat := 0x80
def OC.badNonce : Nat := 0x81
def OC.state : Nat := 0x82
def OC.busy : Nat := 0x83

/-- An OEM request. -/
def onOem (md : Medium) (cmd : Nat) (s : State) (f : State → State) : Host.Outcome State Fault Refusal := onPldm md 63 cmd s f

/-- GET_NONCE: a fresh nonce replaces the one before. -/
def execGetNonce (md : Medium) (s : State) : Host.Outcome State Fault Refusal :=
  onOem md 1 s fun s =>
    let n := BitVec.ofNat 128 (Config.random s.free).toNat
    (s.drawn.modNd fun x => { x with nonce := some n }).reply md 0x3F01 0 (bigBytes 16 n.toNat)

/-- GET_LEDGER: 256 bytes of the record. -/
def execGetLedger (md : Medium) (piece : Nat) (s : State) : Host.Outcome State Fault Refusal :=
  onOem md 2 s fun s =>
    if piece < 4 then s.reply md 0x3F02 0 ((s.ledgerBytes.drop (256 * piece)).take 256) else s.reply md 0x3F02 0x02 []

/-- Firmware update mode, a wipe or a refurbishment is in progress. -/
def State.oemBusy (s : State) : Bool := s.nd.fwu != .idle || s.nd.wiping.isSome || s.nd.refurbishing

/-- What a request signs: its code, the serial number, the nonce and its body (R429; the byte orders are those of the ledger's
SERIAL and of GetNonce, log entry 32). -/
def State.toSign (s : State) (cmd : Nat) (nonce : BitVec 128) (body : List Byte) : List Byte :=
  toBytes 1 cmd ++ toBytes 8 s.fuses.serial.toNat ++ bigBytes 16 nonce.toNat ++ body

/-- The bytes of a list of keys in a body. -/
def keyBytes (l : List Key) : List Byte := l.flatMap fun k => bigBytes 64 k.toNat

/-- The signature was made over these bytes and verifies under one of the keys. -/
def sigVerifies (rq : SignedReq) (keys : List Key) (m : List Byte) : Bool :=
  keys.any (fun k => rq.signer == some k) && rq.covers == m

/-- The completion code of a signed request: busy, wrong state, no nonce that is valid, wrong signature, in this order (log
entry 32). -/
def State.oemCheck (s : State) (rq : SignedReq) (cmd : Nat) (body : List Byte) (stateOk : Bool) (keys : List Key) : Nat :=
  if s.oemBusy then OC.busy
  else if !stateOk then OC.state
  else match s.nd.nonce with
    | none => OC.badNonce
    | some n => if sigVerifies rq keys (s.toSign cmd n body) then 0 else OC.badSig

/-- A signed request with its body, what it asks of the state, and the keys that may sign it: one that passes uses up its nonce;
one that fails changes nothing. -/
def signedOem (rq : SignedReq) (cmd : Nat) (body : List Byte) (s : State) (stateOk : State → Bool) (keys : State → List Key)
    (f : State → State) : Host.Outcome State Fault Refusal :=
  onOem rq.medium cmd s fun s =>
    match s.oemCheck rq cmd body (stateOk s) (keys s) with
    | 0 => (f (s.modNd fun n => { n with nonce := none })).reply rq.medium (0x3F00 + cmd) 0 []
    | cc => s.reply rq.medium (0x3F00 + cmd) cc []

/-- A change of owner: the configuration store, with a pending wipe where one follows, then the ledger. -/
def State.setOwner (s : State) (k : Option Key) (wipe : Option Nat) : State :=
  ((s.modNd fun n => { n with owner := k }).writeConfigWith wipe).ledNow
    fun l => { l with ownerHash := ownerHashOf k, transfers := satAdd 32 l.transfers 1 }

/-! ## The tenant wipe (R430, R431) -/

/-- A wipe is authorised: its mark is in the store; SEQ halts, and the pairs are revoked. -/
def State.beginWipe (s : State) (cause : Nat) : State :=
  let s := (s.writeConfigWith (some cause)).modNd fun n => { n with wiping := some cause, wipeResume := false }
  let s := s.halt HC.host (BitVec.ofNat 16 s.node)
  let s := (List.range 2).foldl (fun s p => (List.range 256).foldl (fun s q => s.startRevoke p q) s) s
  s.showState

/-- TAKE_OWNERSHIP: an unowned part, over I3C. -/
def execTakeOwnership (rq : SignedReq) (key : Key) (s : State) : Host.Outcome State Fault Refusal :=
  signedOem rq 3 (keyBytes [key]) s (fun s => s.nd.owner.isNone && rq.medium == .i3c) (fun _ => [key])
    fun s => s.setOwner (some key) none

/-- TRANSFER_OWNERSHIP, with a wipe of cause 2. -/
def execTransferOwnership (rq : SignedReq) (key : Key) (s : State) : Host.Outcome State Fault Refusal :=
  signedOem rq 4 (keyBytes [key]) s (fun s => s.nd.owner.isSome) (fun s => s.nd.owner.toList)
    fun s => (s.setOwner (some key) (some 2)).beginWipe 2

/-- RELEASE_OWNERSHIP, with a wipe of cause 3. -/
def execReleaseOwnership (rq : SignedReq) (s : State) : Host.Outcome State Fault Refusal :=
  signedOem rq 5 [] s (fun s => s.nd.owner.isSome) (fun s => s.nd.owner.toList)
    fun s => (s.setOwner none (some 3)).beginWipe 3

/-- SET_TENANT_KEYS: 0 to 4 keys replace the set. -/
def execSetTenantKeys (rq : SignedReq) (keys : List Key) (s : State) : Host.Outcome State Fault Refusal :=
  if 4 < keys.length then onOem rq.medium 6 s fun s => s.reply rq.medium 0x3F06 0x03 []
  else
    signedOem rq 6 (keyBytes keys) s (fun s => s.nd.owner.isSome) (fun s => s.nd.owner.toList)
      fun s => (((s.modNd fun n => { n with tenants := keys }).writeConfig).writeLedger)

/-- TENANT_WIPE: ordered by the owner or a tenant. -/
def execTenantWipe (rq : SignedReq) (s : State) : Host.Outcome State Fault Refusal :=
  signedOem rq 7 [] s (fun s => s.nd.owner.isSome) (fun s => s.nd.owner.toList ++ s.nd.tenants) fun s => s.beginWipe 1

/-- ENTER_REFURBISHMENT: first a wipe, with cause 4. -/
def execEnterRefurbishment (rq : SignedReq) (s : State) : Host.Outcome State Fault Refusal :=
  signedOem rq 8 [] s (fun s => s.nd.owner.isSome) (fun s => s.nd.owner.toList)
    fun s => (s.modNd fun n => { n with refurbishing := true }).beginWipe 4

/-- What a wipe erases: HBM, the cores' and the MSE dies' storage, the tenant region and the tenant keys. -/
def State.erase (s : State) : State :=
  { s with
    hbm := { s.hbm with bytes := [], poison := [], latent := [], asleep := [], idle := false }
    lmem := []
    cores := s.cores.map fun k => { Core.reset with out := k.out, ill := k.ill, nextBlock := k.nextBlock, nextItem := k.nextItem }
    mses := s.mses.map fun m => { m with ranges := [], held := [] }
    nd := { s.nd with tenants := [], tenantRegion := [] } }

/-- The wipe record is written, the mark goes, and the ledger counts. -/
def State.recordWipe (s : State) (cause failed : Nat) (sramClean : Bool) : State :=
  let s := s.modNd fun n => { n with
    wipeRec := { wipes := satAdd 16 n.live.wipes 1, powered := n.live.powered, cause := cause
                 result := b2n (failed == 0) + 2 * b2n sramClean + 4, failed := failed, ownerHash := n.live.ownerHash }
    wiping := none, wipeResume := false }
  ((s.writeConfigWith none).ledNow fun l => { l with wipes := satAdd 16 l.wipes 1 }).mgtAlert MA.wiped

/-- A wipe completes: at once with a reset after it, or between steps 7 and 8 of a start (R430, R432). -/
def State.finishWipe (s : State) (cause failed : Nat) (sramClean : Bool) : State :=
  let resumed := s.nd.wipeResume
  let s := s.erase.recordWipe cause failed sramClean
  if resumed then s.showState.portsDetect else s.startReset .wipe

/-- WIPE_COMPLETE. -/
def execWipeComplete (failed : Nat) (sramClean : Bool) (s : State) : Host.Outcome State Fault Refusal :=
  answer true s fun s =>
    match s.nd.wiping with
    | none => s
    | some cause =>
      if s.diesUp && (if s.nd.wipeResume then s.pwr.step == 7 else decide (7 ≤ s.pwr.step)) then
        s.finishWipe cause failed sramClean
      else s

/-! ## Refurbishment (R434, R435) -/

/-- The engine, row and column of a nib's unit number (Table 10.3); a spare stands behind the last column of its row. -/
def nibOfUnit (unit : Nat) : Eng × Nat × Nat :=
  if unit < 0x20 then (.f, unit / 8, unit % 8)
  else if unit < 0x40 then (.f, unit % 2 * 2, 8)
  else if unit < 0x80 then (.b, unit / 16 % 4, unit % 16)
  else (.b, unit % 4, 16)

/-- A nib that fails: mapped out, or the slot is lost where the spare is used. -/
def State.refurbNib (s : State) (p unit : Nat) : State :=
  let (e, row, col) := nibOfUnit unit
  if (s.slot p).spareUsed e row then s.setRetired p
  else s.modSlot p fun x => match e with
    | .b => { x with bRet := x.bRet.set row (some col) }
    | .f => { x with fRet := x.fRet.set (row / 2) (some (row % 2, col)) }

/-- A vector lane that fails: mapped out, or the slot is lost with its third lane in a pipe. -/
def State.refurbLane (s : State) (p unit : Nat) : State :=
  let lanes := if unit < 0x80 then (s.slot p).lanes0 else (s.slot p).lanes1
  if 2 ≤ lanes.length then s.setRetired p
  else s.modSlot p fun x =>
    if unit < 0x80 then { x with lanes0 := x.lanes0 ++ [unit % 128] } else { x with lanes1 := x.lanes1 ++ [unit % 128] }

/-- The lane pair that a link lane belongs to (R241). -/
def lanePair (lane : Nat) : Nat := if lane < 384 then lane / 8 else lane - 384

/-- The cellar map rebuilt from the tests. -/
def State.rebuildMap (s : State) (r : RefurbResult) : State :=
  let step := BitVec.ofNat 32 s.stepNo
  let s := { s with
    saf := { s.saf with slots := (List.range 80).map fun _ => { Slot.reset with tested := true, passStep := step } }
    pwr := { s.pwr with shed := (List.range 16).map fun i =>
      ((r.failedPhases.filter fun e => e.1 == i).map (·.2)).foldl (· + ·) 0 }
    nd := { s.nd with spareLanes := (r.failedLinkLanes.map lanePair).eraseDups } }
  let s := (List.range 16).foldl (fun s q => s.setReg .SAF_CMAP q 0 cmapReset) s
  let s := r.failedSlots.foldl State.setRetired s
  let s := r.failedNibs.foldl (fun s e => s.refurbNib e.1 e.2) s
  let s := r.failedLanes.foldl (fun s e => s.refurbLane e.1 e.2) s
  (List.range 16).foldl (fun s i => s.showPhases i (s.pwr.shed.getD i 0)) s

/-- A cluster's cores take slots that pass, the lowest first; the rest are unavailable. -/
def State.refurbCores (s : State) (q : Nat) (good : List Nat) : List Nat → List Nat → State
  | [], free => s.setSpare q free.head?
  | c :: l, free =>
    if good.contains (s.phys c) then s.refurbCores q good l free
    else match free with
      | p :: f => (s.setCoreSlot c (p % 5)).refurbCores q good l f
      | [] => (s.setAvail c false).refurbCores q good l []

def State.refurbCluster (s : State) (q : Nat) : State :=
  let good := (List.range 5).filterMap fun i => if s.isRetired (5 * q + i) then none else some (5 * q + i)
  let cs := (List.range 4).map fun i => 4 * q + i
  s.refurbCores q good cs (good.filter fun p => !cs.any fun c => s.phys c == p)

/-- The grade of record is assigned, and shown (R435, R474). -/
def State.assignGrade (s : State) : State :=
  let g := s.gradeNow
  let old := s.nd.live.grade
  let s := s.modNd fun n => { n with lcores := s.coresAvail }
  let s := s.cellarChanged.ledNow fun l => { l with grade := g, refurbs := satAdd 16 l.refurbs 1 }
  let s := s.loadIds.loadMgt
  if g = old then s else s.queueEvent (.sensor 0x101 g)

/-- REFURBISHMENT_COMPLETE. -/
def execRefurbishmentComplete (r : RefurbResult) (s : State) : Host.Outcome State Fault Refusal :=
  answer true s fun s =>
    if s.nd.refurbishing && s.nd.wiping.isNone && s.diesUp && decide (8 ≤ s.pwr.step) then
      let s := ((List.range 16).foldl State.refurbCluster (s.rebuildMap r)).assignGrade
      (s.modNd fun n => { n with refurbishing := false }).startReset .refurbish
    else s

end Sys2Proof.Machine
end

