-- ==== Sys2Proof/Machine/MemOps.lean ====
section
/-! DEFINITION. Translation invalidation (R180), the BAR4 window (R176, R402, R443), block retirement (R187), patrol scrub
(R189) and the scrub of every SRAM word (R324, Table 10.6). -/

namespace Sys2Proof.Machine

/-! ## TLB invalidation (R180) -/

/-- TLB_INVALIDATE: a write of MEM.TLBINV starts the invalidation of PAGES pages from MEM.TLBVA, beside those that are not done
(log entry 102). -/
def State.tlbInvalidate (s : State) (v : Word) : State :=
  let first := s.fld F.MEM_TLBVAHI_VAHI * 2 ^ 20 + s.fld F.MEM_TLBVALO_VALO
  (s.modHbm fun h => { h with tlbInv := h.tlbInv ++ [(first, v.toNat % 2 ^ 20)] }).setFld F.MEM_TLBINV_DONE 0

def execTlbInvalidate (port : Nat) (v : Word) (s : State) : Host.Outcome State Fault Refusal :=
  answer (isPort port) s fun s => s.bar0Write port .MEM_TLBINV 0 0 fun s => s.tlbInvalidate v

/-- A page that an invalidation covers; 0 pages stand for everything. -/
def tlbCovers (inv : Nat × Nat) (page : Nat) : Bool := inv.2 == 0 || decide (inv.1 ≤ page ∧ page < inv.1 + inv.2)

/-- A load that has not completed read a page that an invalidation covers. -/
def State.loadUnder (s : State) (inv : Nat × Nat) (x : Group) : Bool :=
  x.wait == .load && match x.load with
    | none => false
    | some o => o.lanes.any fun e => !s.isPeer e.2.toNat && tlbCovers inv (gVa e.2.toNat / 4096)

/-- A transfer that has not completed has an end on a page that an invalidation covers. -/
def State.moveUnder (s : State) (inv : Nat × Nat) (b : DmaBusy) : Bool :=
  b.cmd.extents.any fun x => !isRaw x.lo && !s.farGa x.lo && decide (0 < x.n)
    && (inv.2 == 0 || decide (inv.1 * 4096 < x.lo % 2 ^ 48 + x.n ∧ x.lo % 2 ^ 48 < (inv.1 + inv.2) * 4096))

/-- An access that may have been translated under an old entry has not completed (R180; log entry 102). -/
def State.underOld (s : State) : Bool :=
  s.hbm.tlbInv.any fun inv =>
    (s.cores.any fun k => k.groups.any fun e => s.loadUnder inv e.2)
      || s.dmas.any fun d => match d.busy with
        | none => false
        | some b => s.moveUnder inv b

/-- TLB_INVALIDATE_DONE: no agent holds a translation for the ranges, and every access under an old entry has completed. -/
def execTlbInvalidateDone (s : State) : Host.Outcome State Fault Refusal :=
  answer true s fun s =>
    if s.hbm.tlbInv.isEmpty || s.underOld then s
    else (s.modHbm fun h => { h with
      tlb := h.tlb.filter fun e => !h.tlbInv.any (tlbCovers · e.1), tlbInv := [] }).setFld F.MEM_TLBINV_DONE 1

/-! ## BAR4 (R176) -/

/-- A memory request to a port's BAR4 reaches the device: the port is up in D0 with Memory Space Enable, and the bytes lie
within the BAR. -/
def State.bar4Hit (s : State) (p off n : Nat) : Bool :=
  s.barLive p && decide (1 ≤ n) && decide (off + n ≤ 2 ^ (s.port p).bar4Log)

/-- HBM answers: step 7 of the start is complete (R443). -/
def State.hbmReady (s : State) : Bool := s.diesUp && decide (7 ≤ s.pwr.step)

/-- BAR4 serves: HBM is there, and no tenant wipe is pending (R432, R443). -/
def State.bar4Ready (s : State) : Bool := s.hbmReady && s.wipeMark.isNone

/-- BAR4_READ: data, Unsupported Request where translation fails, Completer Abort on an uncorrectable unit or before HBM is
there. -/
def execBar4Read (port off n : Nat) (s : State) : Host.Outcome State Fault Refusal :=
  answer (isPort port) s fun s =>
    if !s.bar4Hit port off n then s
    else if !s.bar4Ready then (s.aerError port 15 true).emit (.bar4 port none true)
    else match s.read (agentBar4 port) off n with
      | (s1, .ok b) => s1.emit (.bar4 port (some b) false)
      | (s1, .error .ecc) => (s1.aerError port 15 true).emit (.bar4 port none true)
      | (s1, .error _) => (s1.aerError port 20 true).emit (.bar4 port none false)

/-- Posted writes, one for each page: each is performed or discarded for itself. -/
def State.bar4Store (s : State) (agent : Nat) : List (Nat × Nat) → List Byte → State
  | [], _ => s
  | (va, n) :: r, b => (s.put agent va (b.take n)).bar4Store agent r (b.drop n)

/-- BAR4_WRITE: discarded from a standby port and before HBM is there (R402, R443). -/
def execBar4Write (port off : Nat) (bytes : List Byte) (s : State) : Host.Outcome State Fault Refusal :=
  answer (isPort port) s fun s =>
    if s.bar4Hit port off bytes.length && s.bar4Ready && !s.isStandby port then
      s.bar4Store (agentBar4 port) (chunksOf off bytes.length) bytes
    else s

/-! ## Retirement and patrol (R187, R189) -/

/-- The key of a block, and of a unit, of a stack. -/
def blockKey (stack blk : Nat) : Nat := stack * 2 ^ 24 + blk
def unitKey (stack u : Nat) : Nat := stack * 2 ^ 31 + u

/-- The copy meets the cell errors that lie in the block's units. -/
def State.copyBlock (s : State) (blk : Nat) : State :=
  (s.hbm.latent.filter fun e => unitBlock e.1 == blk).foldl (fun s e => s.meetUnit e.1) s

/-- Bytes and poison of a block are copied into a reserve block: its units are as those of the block, and meet no error
(R187). -/
def Hbm.copyInto (h : Hbm) (blk dst : Nat) : Hbm :=
  let moved (n k : Nat) : Nat := dst * n + k % n
  let old := h.bytes.filter fun e => e.1 / 4096 != dst
  { h with
    bytes := (old.filter fun e => e.1 / 4096 == blk).foldl (fun m e => Sparse.set 0 m (moved 4096 e.1) e.2) old
    poison := (h.poison.filter fun u => unitBlock u == blk).foldl (fun l u => insertNat (moved 128 u) l)
      (h.poison.filter fun u => unitBlock u != dst)
    latent := h.latent.filter fun e => unitBlock e.1 != dst }

/-- A block's offsets lead to reserve block `i` of its stack, and so do those of the block that this one stood in for. -/
def Hbm.redirectTo (h : Hbm) (blk i : Nat) : Hbm :=
  { h with redirect := Sparse.put (h.redirect.map fun e =>
      if reserveKey (e.1 / 2 ^ 24) e.2 = blk then (e.1, i) else e) blk i }

/-- RETIREMENT_COMPLETE: the copy is done and the redirection is in force; Ndomir keeps it. Data and poison stay. -/
def execRetirementComplete (stack blk : Nat) (s : State) : Host.Outcome State Fault Refusal :=
  answer (isStack stack) s fun s =>
    let k := blockKey stack blk
    if !s.hbmReady then s
    else match s.hbm.retiring.find? fun e => e.1 == k with
      | none => s
      | some e =>
        let s := s.copyBlock k
        let s := (s.modHbm fun h => { (h.copyInto k (reserveKey stack e.2)).redirectTo k e.2 with
          retiring := h.retiring.erase e, asleep := h.asleep.filter (· != stack) }).cellarChanged
        s.ledNow fun l => { l with hbmret := l.hbmret.set stack (s.fld F.MEM_HBMRET_USED stack) }

/-- PATROL_SCRUB: patrol reads one unit, corrects it, or finds it uncorrectable; no agent gets a fault (R189). The percentage
of the pass rises by a free amount (log entry 7). -/
def execPatrolScrub (stack unit : Nat) (found : ScrubResult) (s : State) : Host.Outcome State Fault Refusal :=
  answer (isStack stack && decide (unit < 3 * 2 ^ 29)) s fun s =>
    if !s.hbmReady then s
    else
      let u := unitKey stack unit
      let s := s.rouse [32 * u]
      let s := if (Sparse.find s.hbm.latent u).isSome then s.meetUnit u else s.meet u found
      let now := s.fld F.MEM_SCRUB_PROGRESS
      (s.setFld F.MEM_SCRUB_PROGRESS (now + Config.pick s.free % (101 - min now 100))).drawn

/-- PATROL_PASS_COMPLETE: the counts of corrected errors per block are cleared (R187). -/
def execPatrolPassComplete (s : State) : Host.Outcome State Fault Refusal :=
  answer true s fun s =>
    if s.hbmReady then (s.modHbm fun h => { h with blockCe := [] }).setFld F.MEM_SCRUB_PROGRESS 0 else s

/-! ## SRAM scrub (Table 10.6) -/

/-- A word of core SRAM in error: corrected, and retired with its slot where it fails again; an uncorrectable one is an error
of its core (R328; DEDUCED, log entry 24). The syndrome is a free value (log entry 14). -/
def State.coreSram (s : State) (p addr : Nat) (corrected again : Bool) : State :=
  let r : Rec := { source := 0x04, cls := if !corrected then RC.recovered else if again then RC.spared else RC.corrected, level := 2
                   loc := s.slotLoc p 0xFF, rowmask := Config.pick s.free, addr := addr }
  match s.logicalOf p with
  | some c => if corrected || again then (let s := (s.record r).drawn; if again then s.wordLost p else s)
    else s.drawn.coreFault c r
  | none => (let s := (s.record r).drawn; if again then s.wordLost p else s)

/-- A word of accumulation SRAM in error: an uncorrectable one poisons its range, one that fails again loses its granule. -/
def State.mseSram (s : State) (k i : Nat) (corrected again : Bool) : State :=
  let va := match (s.mse k).ranges[i]? with
    | some r => r.dst
    | none => 0
  let s := if corrected then s
    else s.modMse k fun m => { m with ranges := m.ranges.modify i fun r => { r with poisoned := true } }
  s.mseWord k va corrected again

def State.sramFinding (s : State) (f : SramFinding) : State :=
  match f with
  | .core p a c g => if p < 80 && decide (8 ≤ s.pwr.step) then s.coreSram p a c g else s
  | .mse k i c g => if k < 6 && decide (7 ≤ s.pwr.step) then s.mseSram k i c g else s

/-- SRAM_SCRUB: the pass over every SRAM word and register, with the words found in error (R324). -/
def execSramScrub (found : List SramFinding) (s : State) : Host.Outcome State Fault Refusal :=
  answer true s fun s => if s.diesUp && !found.isEmpty then (found.foldl State.sramFinding s).pump else s

end Sys2Proof.Machine
end

