-- ==== Sys2Proof/Machine/Packets.lean ====
section
/-! DEFINITION. Packets that arrive on Morov Links (spec/08 R259 to R265, R270, R271; spec/09 R306): admission, transit, and
what each type does at its destination. -/

namespace Sys2Proof.Machine

/-! ## Admission -/

/-- The packet is for this device. -/
def State.mine (s : State) (p : Packet) : Bool := p.dst.toNat == s.node

/-- A PTYPE that Table 8.9 does not have. -/
def reservedType (p : Packet) : Bool := p.ptype == 0 || decide (9 < p.ptype.toNat)

/-- A packet has been dealt with: unless a die holds it in the input buffer, its slots are free and their credit returns. -/
def State.freed (s : State) (l : Nat) (p : Packet) : State :=
  if (List.range 6).any (fun k => (s.mse k).held.contains (l, p)) then s else s.owes l p

/-- A packet that waits in the receive buffer of its link, or comes in whole on a link that is up, where it is one of the
event's: a packet that breaks R259 or R270 is refused, the others are handed on out of the buffer. -/
def State.takeIn (s : State) (l : Nat) (p : Packet) (of : Packet → Bool) (f : State → Packet → State) : State :=
  if !s.diesUp || (List.range 6).any (fun k => (s.mse k).held.contains (l, p)) then s
  else if (s.link l).rxBuf.contains p then
    (if of p then (f (s.modLink l fun x => { x with rxBuf := x.rxBuf.erase p }) p).freed l p else s)
  else if !s.linkUp l || !(of p || reservedType p) then s
  else if s.unfit l p then (s.refuse l).owes l p
  else (f s (s.restored l p)).freed l (s.restored l p)

/-- A packet of a type for this device; fenced it is discarded (R264). -/
def State.deliver (s : State) (l : Nat) (p : Packet) (of : Packet → Bool) (f : State → Packet → State) : State :=
  s.takeIn l p (fun q => s.mine q && of q) fun t q => if t.safe then t else f t q

/-! ## Transit (R250, R271) -/

/-- A packet for another node goes on, one hop further; one that would exceed its hops is refused. -/
def State.transit (s : State) (l : Nat) (p : Packet) : State :=
  let most := if p.cls = .control then 2 else 4
  if most ≤ p.hops.toNat then s.refuse l else s.forward { p with hops := p.hops + 1 }

def execTransitForward (l : Nat) (p : Packet) (s : State) : Host.Outcome State Fault Refusal :=
  answer (isLink l) s fun s => s.takeIn l p (fun q => !s.mine q) fun t q => t.transit l q

/-! ## WRITE and READ (R261) -/

/-- A write from a node was refused: a frozen bit, or an other-cause bit, for its next READRESP. -/
def State.refuseWrite (s : State) (l : Nat) (p : Packet) (frozen : Bool) : State :=
  (s.refuse l).modNet fun n =>
    let o := Sparse.get (false, false) n.refusal p.src.toNat
    { n with refusal := Sparse.put n.refusal p.src.toNat (o.1 || frozen, o.2 || !frozen) }

/-- The bytes of a one-slot WRITE that its mask selects, as writes of one byte each (Table 8.9). -/
def maskedBytes (va mask : Nat) (b : List Byte) : List (Nat × Byte) :=
  (b.zipIdx.filter fun x => mask.testBit x.2).map fun x => (va + x.2, x.1)

/-- Write single bytes, up to the first that fails. -/
def State.writeBytes (s : State) (agent : Nat) (upd : Bool) : List (Nat × Byte) → State × Option MErr
  | [] => (s, none)
  | (va, b) :: r => match s.write agent upd va [b] with
    | (s1, some e) => (s1, some e)
    | (s1, none) => s1.writeBytes agent upd r

/-- A WRITE at its target: all of it or nothing. -/
def State.pktWrite (s : State) (l : Nat) (p : Packet) : State :=
  let va := 16 * p.addr.toNat
  let n := p.payload.length
  if hbmWindow < va + n then s.refuseWrite l p false
  else match s.probe (agentLink l) p.upd va n with
    | (s1, some e) => s1.refuseWrite l p (e == .mmu 5)
    | (s1, none) =>
      (if p.len = 1 then s1.writeBytes (agentLink l) p.upd (maskedBytes va p.tag.toNat p.payload)
        else s1.write (agentLink l) p.upd va p.payload).1

def execPktWrite (l : Nat) (p : Packet) (s : State) : Host.Outcome State Fault Refusal :=
  answer (isLink l) s fun s => s.deliver l p (fun q => q.ptype == PT.write) fun t q => t.pktWrite l q

/-- A READ at its target: data, or RANGE, or FAULT; fenced, FENCED (R264). -/
def State.pktRead (s : State) (l : Nat) (p : Packet) : State :=
  let va := 16 * p.addr.toNat
  let n := 16 * (p.tag.toNat % 32 + 1)
  let id := p.tag &&& 0xFFE0
  let no (s : State) (st : Nat) : State := s.readResp p.src.toNat id st []
  if s.safe then no s 0x0D
  else if hbmWindow < va + n then no s 0x05
  else match s.read (agentLink l) va n with
    | (s1, .ok b) => s1.readResp p.src.toNat id 0 b
    | (s1, .error (.mmu _)) => no s1 0x05
    | (s1, .error _) => no s1 0x07

def execPktRead (l : Nat) (p : Packet) (s : State) : Host.Outcome State Fault Refusal :=
  answer (isLink l) s fun s => s.takeIn l p (fun q => s.mine q && q.ptype == PT.read) fun t q => t.pktRead l q

/-! ## Responses (R262) and notices (R263) -/

/-- A remote read ends: its waiter gets status, refusal bits and data. -/
def State.readEnds (s : State) (id waiter status : Nat) (pf other : Bool) (data : List Byte) : State :=
  if waiter < 4096 then s.groupRead (waiter / 64) (waiter % 64) false id status pf data
  else if waiter < 8192 then s.groupRead ((waiter - 4096) / 64) (waiter % 64) true id status pf data
  else if waiter < 16384 then s.dmaResponse (waiter - 8192) id status pf other data
  else s.markRead ((waiter - 16384) / 256) (waiter % 256) status pf other

/-- The read of an id ends, where it is outstanding at the node given, if one is given. -/
def State.endRead (s : State) (id : Nat) (node : Option (BitVec 16)) (status : Nat) (pf other : Bool) (data : List Byte) : State :=
  match s.net.reads.find? fun e => e.1 == id && (node.isNone || node == some e.2.1) with
  | none => s
  | some e =>
    (s.modNet fun n => { n with reads := n.reads.filter fun x => x.1 != id }).readEnds id e.2.2 status pf other data

/-- A READRESP; FENCED tells that its sender is fenced (R264, R303). -/
def State.pktReadResp (s : State) (p : Packet) : State :=
  let status := p.addr.toNat % 256
  let s := s.endRead (p.tag.toNat / 32) (some p.src) status p.pf (p.x.toNat % 2 == 1) p.payload
  if status = 0x0D then s.peerFenced p.src.toNat else s

def execPktReadResp (l : Nat) (p : Packet) (s : State) : Host.Outcome State Fault Refusal :=
  answer (isLink l) s fun s =>
    s.deliver l p (fun q => q.ptype == PT.readResp && q.tag != 0xFFFF) fun t q => t.pktReadResp q

/-- READ_TIMEOUT: 10 ms without a response (R262). -/
def execReadTimeout (id : Nat) (s : State) : Host.Outcome State Fault Refusal :=
  answer (decide (id < 2048)) s fun s => if s.diesUp then s.endRead id none 0x0E false false [] else s

/-- A link named by a LOST notice joins the exclusion table; the oldest entry makes room (R273). -/
def State.exclude (s : State) (node : BitVec 16) (l : Nat) : State :=
  let s := s.modNet fun n =>
    let rest := n.excl.filter fun e => !(e.1 == node && e.2 == l)
    { n with excl := (if rest.length < 256 then rest else rest.drop 1) ++ [(node, l)] }
  s.setFld F.LNK_EXCL_COUNT s.net.excl.length

/-- What a loss means for the packet's source: a READ completes with LOST, contributions and control packets are SEQ's. -/
def State.onLost (s : State) (p : Packet) : State :=
  if p.ptype = PT.read then s.endRead (p.tag.toNat / 32) (some p.dst) 0x0C false false []
  else if p.ptype = PT.write then s
  else (s.seqLost p).pump

/-- A LOST notice: the lost packet's header, the reporting node and its link (R263). -/
def State.lostNotice (s : State) (p : Packet) : State :=
  let b := p.payload
  let q := Packet.ofHeader (toDWord (b.take 8)) (toDWord ((b.drop 8).take 8))
  let node := BitVec.ofNat 16 (ofBytes ((b.drop 16).take 2))
  (s.exclude node (b.getD 18 0).toNat).onLost q

def isNotice (p : Packet) : Bool := p.ptype == PT.readResp && p.tag == 0xFFFF

/-- LOST_NOTICE: one that arrives, or the device's own for a packet lost here. -/
def execLostNotice (l : Nat) (p : Packet) (s : State) : Host.Outcome State Fault Refusal :=
  answer (isLink l) s fun s =>
    match s.net.selfLost.find? fun e => s.notice e.1 e.2 == p with
    | some e => (s.modNet fun n => { n with selfLost := n.selfLost.erase e }).lostNotice p
    | none => s.deliver l p (fun q => isNotice q) fun t q => t.lostNotice q

/-- EXCLUSION_EXPIRY: an entry leaves the table after one second (R273). -/
def execExclusionExpiry (node l : Nat) (s : State) : Host.Outcome State Fault Refusal :=
  answer (isLink l && decide (node < 65536)) s fun s =>
    let s := s.modNet fun n => { n with excl := n.excl.filter fun e => !(e.1.toNat == node && e.2 == l) }
    s.setFld F.LNK_EXCL_COUNT s.net.excl.length

/-! ## Contributions (R155, R156) -/

/-- A contribution is added or discarded, refused, or held in the input buffer where no range is open over it. -/
def State.pktContrib (s : State) (l : Nat) (p : Packet) : State :=
  let y := s.contribute l p
  match y.2 with
  | .refused => y.1.refuse l
  | .done => y.1.pump
  | .held k => (y.1.modLink l fun x => { x with rxBuf := x.rxBuf ++ [p] }).modMse k fun m => { m with held := m.held ++ [(l, p)] }

def execPktContrib (l : Nat) (p : Packet) (s : State) : Host.Outcome State Fault Refusal :=
  answer (isLink l) s fun s => s.deliver l p (fun q => q.ptype == PT.contrib) fun t q => t.pktContrib l q

/-! ## Collective packets (Table 9.5) -/

/-- A control packet of a type, refused where its argument is not one the table has, with its number of slots. -/
def State.collective (s : State) (l : Nat) (p : Packet) (ty : BitVec 4) (other : Nat → Bool) (arg len : Nat)
    (f : State → Packet → State) : State :=
  s.deliver l p (fun q => q.ptype == ty && (q.arg == arg || other q.arg)) fun t q =>
    if q.arg == arg && q.len.toNat == len then (f t q).pump else t.refuse l

/-- SEAL CLEAN (R287); an argument of SEAL that Table 9.5 does not have is refused here. -/
def execSealClean (l : Nat) (p : Packet) (s : State) : Host.Outcome State Fault Refusal :=
  answer (isLink l) s fun s =>
    s.collective l p PT.seal (fun a => a != 2 && a != 3) 1 0 fun t q => t.cleanFrom q.src q.tag.toNat q.step

/-- SEAL UP (R289). -/
def execSealUp (l : Nat) (p : Packet) (s : State) : Host.Outcome State Fault Refusal :=
  answer (isLink l) s fun s =>
    s.collective l p PT.seal (fun _ => false) 2 1 fun t q => t.upFrom q.src q.step (Verdict.ofBytes q.payload)

/-- SEAL DOWN (R291). -/
def execSealDown (l : Nat) (p : Packet) (s : State) : Host.Outcome State Fault Refusal :=
  answer (isLink l) s fun s =>
    s.collective l p PT.seal (fun _ => false) 3 1 fun t q => t.downFrom q.src q.step (Verdict.ofBytes q.payload)

/-- RETRACT (R298): SENDPATH, HELD or COMPUTE. -/
def execPktRetract (l : Nat) (p : Packet) (s : State) : Host.Outcome State Fault Refusal :=
  answer (isLink l) s fun s =>
    s.deliver l p (fun q => q.ptype == PT.retract) fun t q =>
      if 1 ≤ q.arg ∧ q.arg ≤ 3 ∧ q.len = 0 then (t.retractFrom q.src q.tag.toNat q.step).pump else t.refuse l

/-- RESEND (R299). -/
def execPktResend (l : Nat) (p : Packet) (s : State) : Host.Outcome State Fault Refusal :=
  answer (isLink l) s fun s =>
    s.collective l p PT.resend (fun _ => true) 1 1 fun t q =>
      t.resendFrom q.src q.tag.toNat q.step (ofBytes (q.payload.take 2))

/-- ARRIVE of a child on the verdict tree; one that comes before the own barrier runs is kept. -/
def State.arriveFrom (s : State) (n : BitVec 16) : State :=
  match s.ex with
  | none => s
  | some x =>
    if (x.p.children x.me.node).contains n && !s.seq.barArrived.contains n then
      s.modSeq fun q => { q with barArrived := q.barArrived ++ [n] }
    else s

/-- BARRIER ARRIVE (R306). -/
def execBarrierArrive (l : Nat) (p : Packet) (s : State) : Host.Outcome State Fault Refusal :=
  answer (isLink l) s fun s =>
    s.collective l p PT.barrier (fun a => a != 2) 1 0 fun t q => t.arriveFrom q.src

/-- RELEASE from the parent: it goes on down the tree, and the run begins. -/
def State.releaseFrom (s : State) (n : BitVec 16) : State :=
  match s.ex, s.seq.barrier with
  | some x, some u =>
    if s.isRunning && s.seq.barSent && x.p.parent x.me.node == some n then
      ((x.p.children x.me.node).foldl (fun s c => s.send (s.barrierPacket c 2)) s).runBegins x u
    else s
  | _, _ => s

/-- BARRIER RELEASE (R306). -/
def execBarrierRelease (l : Nat) (p : Packet) (s : State) : Host.Outcome State Fault Refusal :=
  answer (isLink l) s fun s =>
    s.collective l p PT.barrier (fun _ => false) 2 0 fun t q => t.releaseFrom q.src

/-! ## Messages -/

/-- A MESSAGE of a class. -/
def State.onMessage (s : State) (l : Nat) (p : Packet) (cls : Nat → Bool) (f : State → Packet → State) : State :=
  s.deliver l p (fun q => q.ptype == PT.message && cls q.tag.toNat) f

/-- GATHERED (R295). -/
def execGathered (l : Nat) (p : Packet) (s : State) : Host.Outcome State Fault Refusal :=
  answer (isLink l) s fun s => s.onMessage l p (· == msgGathered) fun t q => (t.gatheredFrom q.src q.addr.toNat).pump

/-- REPLAYING (R300). -/
def execReplaying (l : Nat) (p : Packet) (s : State) : Host.Outcome State Fault Refusal :=
  answer (isLink l) s fun s => s.onMessage l p (· == msgReplaying) fun t q =>
    (t.replayingFrom q.src (BitVec.ofNat 16 q.addr.toNat)).pump

/-- HALTSTEP (R303). -/
def execHaltstep (l : Nat) (p : Packet) (s : State) : Host.Outcome State Fault Refusal :=
  answer (isLink l) s fun s => s.onMessage l p (· == msgHaltstep) fun t q => t.haltstepFrom q.src (q.addr.toNat % 2 ^ 24)

/-- One entry of a link-state notice (R265): the chassis map learns it; a link shown up leaves the exclusion table; a fenced
member halts the step. -/
def State.mapEntry (s : State) (node : Nat) (b : List Byte) : State :=
  let w := ofBytes b
  let l := bitsOf w 31 25
  let st := bitsOf w 24 22
  let s := s.modNet fun n => { n with map := Sparse.put n.map (node % 64 * 128 + l) (st, w.testBit 21, bitsOf w 20 10) }
  if l = 127 then (if st = 6 then s.peerFenced node else s)
  else if st = LS.up then
    let s := s.modNet fun n => { n with excl := n.excl.filter fun e => !(e.1.toNat == node && e.2 == l) }
    s.setFld F.LNK_EXCL_COUNT s.net.excl.length
  else s

/-- LINK_STATE_NOTICE: from a peer of the chassis. -/
def execLinkStateNotice (l : Nat) (p : Packet) (s : State) : Host.Outcome State Fault Refusal :=
  answer (isLink l) s fun s => s.onMessage l p (· == 0x8000) fun t q =>
    if q.src.toNat / 64 = t.chassis then
      (List.range (q.payload.length / 4)).foldl (fun t i => t.mapEntry q.src.toNat ((q.payload.drop (4 * i)).take 4)) t
    else t

/-- NDOMIR_MESSAGE: classes 0x8001 to 0x80FF go to Ndomir, which the manual gives no state for them; the classes that no
table has are refused (R260, R306). -/
def execNdomirMessage (l : Nat) (p : Packet) (s : State) : Host.Outcome State Fault Refusal :=
  answer (isLink l) s fun s => s.onMessage l p (fun c => c == 0 || (decide (3 < c) && c != 0x8000)) fun t q =>
    if 0x8001 ≤ q.tag.toNat ∧ q.tag.toNat ≤ 0x80FF then t else t.refuse l

end Sys2Proof.Machine
end

