-- ==== Sys2Proof/Machine/RegWrite.lean ====
section
/-! DEFINITION. REGISTER_WRITE (spec/16 R468 to R471): a 32-bit write to any register. A register with a behaviour of its own
is handed to the operation that its own commands use; every other one takes the written value by its access codes (R10). -/

namespace Sys2Proof.Machine

/-- A write by the access codes of the field map (R10, R470). -/
def State.plainWrite (s : State) (r : Reg) (i j : Nat) (v : Word) : State := s.setReg r i j (r.written (s.reg r i j) v)

/-- One field keeps its value under a plain write. -/
def State.writeBut (s : State) (f : Field) (i j : Nat) (v : Word) : State :=
  s.plainWrite f.reg i j (f.into v (s.fld f i j))

/-- SEQ.CMD: a one in DROP clears it; CODE 0 beside it names no command (DEDUCED, log entry 34). -/
def State.seqCmdReg (s : State) (v : Word) : State :=
  let clear := F.SEQ_CMD_DROP.of v == 1
  let s := if clear then s.setFld F.SEQ_CMD_DROP 0 else s
  if clear && F.SEQ_CMD_CODE.of v == 0 && !s.flag F.SEQ_CMD_BUSY then s else s.seqCmdWrite (F.SEQ_CMD_CODE.of v)

/-- MEM.IMODE: a value of GRAN above 0b100 leaves the field unchanged. -/
def State.imodeWrite (s : State) (g : Nat) (v : Word) : State :=
  if 4 < F.MEM_IMODE_GRAN.of v then s.writeBut F.MEM_IMODE_GRAN g 0 v else s.plainWrite .MEM_IMODE g 0 v

/-- Each of ML00 to ML94 is disabled (R266). -/
def State.fabricDisabled (s : State) : Bool := (List.range 95).all fun l => s.linkSt l == LS.disabled

/-- A number of the node id or of the wiring changes only while the fabric links are disabled (R266). -/
def State.wiringWrite (s : State) (f : Field) (v : Word) : State :=
  if s.fabricDisabled then s.plainWrite f.reg 0 0 v else s.writeBut f 0 0 v

/-- LNK.GPORT: a change of the substitution is told to the chassis (R265, R269). -/
def State.gportWrite (s : State) (l : Nat) (v : Word) : State :=
  let s1 := s.plainWrite .LNK_GPORT l 0 v
  if s.diesUp && s.reg .LNK_GPORT l 0 != s1.reg .LNK_GPORT l 0 then s1.tellLink l else s1

/-- A base or a size of a command ring: commands of SEQ's that wait for ring 0 are tried (log entry 101). -/
def State.ringWrite (s : State) (r : Reg) (k j : Nat) (v : Word) : State :=
  let s := s.plainWrite r k j v
  if j = 0 then s.seqRetry k else s

/-- Loss scale and fall-back control: a write while a step runs waits for the boundary (R111), and a later write replaces
one that waits; one that would leave LSMIN above LSMAX is ignored (R106). Between steps it takes effect at once, with LSEXP
clamped and the fall-back following FORCE (R106, R112). -/
def State.lscaleWrite (s : State) (v : Word) : State :=
  if F.NUM_LSCALE_LSMAX.of v < F.NUM_LSCALE_LSMIN.of v then s
  else if s.isRunning then s.modSeq fun q => { q with pendLscale := some v }
  else
    let s := (s.modSeq fun q => { q with pendLscale := none }).plainWrite .NUM_LSCALE 0 0 v
    s.setLsexp (s.fld F.NUM_LSCALE_LSEXP)

def State.lsgrowWrite (s : State) (v : Word) : State :=
  if s.isRunning then s.modSeq fun q => { q with pendLsgrow := some v }
  else (s.modSeq fun q => { q with pendLsgrow := none }).plainWrite .NUM_LSGROW 0 0 v

def State.fbctlWrite (s : State) (v : Word) : State :=
  if s.isRunning then s.modSeq fun q => { q with pendFbctl := some v }
  else ((s.modSeq fun q => { q with pendFbctl := none }).plainWrite .NUM_FBCTL 0 0 v).settleFallBack

/-- HIF.ALERT: software clears causes. A message that is still held goes with the last cause that called for it, by the MSI-X rules
for pending bits (R400; log entry 113). -/
def State.alertWrite (s : State) (p : Nat) (v : Word) : State :=
  let s := s.plainWrite .HIF_ALERT p 0 v
  if s.fld F.HIF_ALERT_CAUSE p &&& s.fld F.HIF_ALERTEN_EN p = 0 then s.setReg .HIF_MSIXPBA p 0 0 else s

/-- A base of a pair is written: ignored while EN is 1 (R384). -/
def State.baseWrite (s : State) (r : Reg) (p q : Nat) (v : Word) : State :=
  if s.flag F.HIF_QCTL_EN p q then s else s.plainWrite r p q v

/-- HIF.QCTL with EN = 0 in the write: drains a pair whose EN is 1, and writes the fields of another (R384, R385). -/
def State.qctlClear (s : State) (p q : Nat) (v : Word) : State :=
  if s.flag F.HIF_QCTL_EN p q then s.disablePair p q else s.plainWrite .HIF_QCTL p q v

/-- A write that reaches the register. -/
def State.regWrite (s : State) (port : Nat) (r : Reg) (i j : Nat) (v : Word) : State :=
  match r with
  | .HIF_MODE => s.setMode port v
  | .HIF_HBEAT => s.heartbeat i
  | .HIF_CLAIM => if F.HIF_CLAIM_CLAIM.of v = 1 then s.claim i else s
  | .HIF_QSQLO | .HIF_QSQHI | .HIF_QCQLO | .HIF_QCQHI | .HIF_QSTLO | .HIF_QSTHI => s.baseWrite r i j v
  | .HIF_QCTL => s.qctlClear i j v
  | .HIF_ALERT => s.alertWrite i v
  | .HIF_MSIXVCTL => (s.plainWrite r i j v).flushMsix i
  | .SEQ_CMD => s.seqCmdReg v
  | .SEQ_DRTAIL => s.drtailWrite v
  | .MEM_TLBINV => s.tlbInvalidate v
  | .MEM_IMODE => s.imodeWrite i v
  | .MSE_RINGLO | .MSE_RINGHI => s.ringWrite r i j v
  | .MSE_RTAIL => s.mseTailWrite i j v
  | .DMA_CHTAIL => s.dmaTailWrite i v
  | .LNK_CTL => s.linkCtl i v
  | .LNK_GPORT => s.gportWrite i v
  | .LNK_NODE => s.wiringWrite F.LNK_NODE_CHASSIS v
  | .LNK_SYSCFG => s.wiringWrite F.LNK_SYSCFG_NCHM1 v
  | .SAF_ERHEAD => s.erheadWrite v
  | .NUM_LSCALE => s.lscaleWrite v
  | .NUM_LSGROW => s.lsgrowWrite v
  | .NUM_FBCTL => s.fbctlWrite v
  | .PWR_TSOFFHI => s.tsoffWrite v
  | .DBG_RSTCTL =>
    if F.DBG_RSTCTL_KEY.of v = 0xD5A7 ∧ F.DBG_RSTCTL_DEVRST.of v = 1 then s.startReset .register else s
  | .CORE_PSQLO | .CORE_PSQHI => if s.progLoaded then s else s.plainWrite r i j v
  | .CORE_PSTAIL => s.pstailWrite i j v
  | .CORE_FECTL => s.fectlWrite i v
  | .CORE_GCTL => s.gctlWrite i j v
  | .CORE_DBGDATA => s.dbgdataWrite i v
  | r => s.plainWrite r i j v

/-- An aligned 32-bit write at a BAR0 offset; a RSVD offset holds nothing (R10). An EN = 1 for a queue pair is checked even for a
standby port (Table 12.15). -/
def State.wordWrite (s : State) (port off : Nat) (v : Word) : State :=
  match Reg.at_ off with
  | none => s
  | some (r, i, j) =>
    if r = .HIF_QCTL ∧ F.HIF_QCTL_EN.of v = 1 then (if s.qctlWrite port i then s.enablePair i j v else s)
    else if s.writable port off then s.regWrite port r i j v
    else s

/-- REGISTER_WRITE (R381): a 64-bit write is two of 32 bits in ascending order; a narrower or a misaligned one is discarded. -/
def execRegisterWrite (port off : Nat) (x : BarWrite) (s : State) : Host.Outcome State Fault Refusal :=
  answer (isPort port) s fun s =>
    match x with
    | .word v => s.wordWrite port off v
    | .pair lo hi => if off % 8 = 0 then (s.wordWrite port off lo).wordWrite port (off + 4) hi else s
    | .narrow _ => s

end Sys2Proof.Machine
end

