-- ==== Sys2Proof/Machine/TestPort.lean ====
section
/-! DEFINITION. The test access port (spec/15 R461): the controller of IEEE 1149.1, its instruction register and the data
registers whose length the manual gives. -/

namespace Sys2Proof.Machine

/-- The controller's next state on a rising edge of TCK. -/
def TapState.next (t : TapState) (tms : Bool) : TapState :=
  match t with
  | .testLogicReset => if tms then .testLogicReset else .runTestIdle
  | .runTestIdle => if tms then .selectDr else .runTestIdle
  | .selectDr => if tms then .selectIr else .captureDr
  | .captureDr => if tms then .exit1Dr else .shiftDr
  | .shiftDr => if tms then .exit1Dr else .shiftDr
  | .exit1Dr => if tms then .updateDr else .pauseDr
  | .pauseDr => if tms then .exit2Dr else .pauseDr
  | .exit2Dr => if tms then .updateDr else .shiftDr
  | .updateDr => if tms then .selectDr else .runTestIdle
  | .selectIr => if tms then .testLogicReset else .captureIr
  | .captureIr => if tms then .exit1Ir else .shiftIr
  | .shiftIr => if tms then .exit1Ir else .shiftIr
  | .exit1Ir => if tms then .updateIr else .pauseIr
  | .pauseIr => if tms then .exit2Ir else .pauseIr
  | .exit2Ir => if tms then .updateIr else .shiftIr
  | .updateIr => if tms then .selectDr else .runTestIdle

/-- The instructions of R461 by number. -/
def tapInstrOf (n : Nat) : TapInstr :=
  match n with
  | 0 => .idcode
  | 1 => .samplePreload
  | 2 => .extest
  | 3 => .clamp
  | 4 => .highz
  | 5 => .extestPulse
  | 6 => .extestTrain
  | _ => .bypass

/-- The instruction that a pattern selects: all ones select BYPASS (IEEE 1149.1); the others' codes are not given (log entry
29). -/
def tapSelected (bits : List Bool) : TapInstr := if bits.all id then .bypass else tapInstrOf (Config.tapDecode bits)

/-- What is loaded: outside a DEVRST_N-scope reset BYPASS stands in for an instruction that would seize the pins. -/
def State.tapLoads (s : State) (i : TapInstr) : TapInstr := if i.seizes && s.pwr.hold.isNone then .bypass else i

/-- Instructions that select the boundary register. -/
def TapInstr.onBoundary : TapInstr → Bool
  | .samplePreload | .extest | .extestPulse | .extestTrain => true
  | .bypass | .idcode | .clamp | .highz => false

/-- What Capture-DR loads, least significant bit first: one bit of BYPASS, the 32 of IDCODE (R472), or the levels of the lands in
the boundary's cells, whose number and order are not given. -/
def State.captured (s : State) : List Bool :=
  match s.tap.ir with
  | .idcode => (List.range 32).map (Nat.testBit 0x3096094F)
  | .bypass | .clamp | .highz => [false]
  | .samplePreload | .extest | .extestPulse | .extestTrain => (List.range Config.boundaryLen).map (Config.land s.free)

/-- The TAP as it becomes; a change of what drives the lands shows. -/
def State.setTap (s : State) (t : Tap) : State :=
  let u := { s with tap := t }
  if u.landsDriven = s.landsDriven then u else u.emit (.lands u.landsDriven)

/-- A rising edge of TCK: what the present state does, then the next state. -/
def State.tapRise (s : State) (tms tdi : Bool) : State :=
  let t := s.tap
  let st := t.st.next tms
  let t := match t.st with
    | .captureDr => { t with drShift := s.captured }
    | .shiftDr => { t with drShift := match t.drShift with
        | [] => []
        | _ :: r => r ++ [tdi] }
    | .captureIr => { t with irShift := [] }
    | .shiftIr => { t with irShift := tdi :: t.irShift }
    | _ => t
  let u := s.setTap { t with st := st, ir := if st = .testLogicReset then .idcode else t.ir }
  if s.tap.st = .captureDr && s.tap.ir.onBoundary then u.drawn else u

/-- A falling edge of TCK: Update-IR loads, Update-DR takes over the boundary's content, and TDO shows the next bit in a shift
state, free where the register is not given, and is three-stated elsewhere. -/
def State.tapFall (s : State) : State :=
  match s.tap.st with
  | .updateIr => (s.setTap { s.tap with ir := s.tapLoads (tapSelected s.tap.irShift) }).emit (.tdo none)
  | .updateDr =>
    (if s.tap.ir.onBoundary then s.setTap { s.tap with boundary := s.tap.drShift } else s).emit (.tdo none)
  | .shiftDr => match s.tap.drShift with
    | b :: _ => s.emit (.tdo (some b))
    | [] => (s.emit (.tdo (some (Config.choice s.free)))).drawn
  | .shiftIr => match s.tap.irShift with
    | [] => s.emit (.tdo (some true))
    | [_] => s.emit (.tdo (some false))
    | _ => (s.emit (.tdo (some (Config.choice s.free)))).drawn
  | _ => s.emit (.tdo none)

/-- TCK_EDGE, with the levels of TMS, TDI and TRST_N at the edge: the port works whenever VIN is present, and a TRST_N that is low,
as it is undriven, holds it in reset (R456, R461). -/
def execTckEdge (rising tms : Bool) (tdi : TapIn) (s : State) : Host.Outcome State Fault Refusal :=
  answerTap s fun s =>
    if s.pwr.supply == .absent then s
    else if !tdi.trstN then s.setTap Tap.reset
    else if rising then s.tapRise tms tdi.tdi else s.tapFall

/-- TRST_N_FALL. -/
def execTrstNFall (s : State) : Host.Outcome State Fault Refusal :=
  answerTap s fun s => s.setTap Tap.reset

end Sys2Proof.Machine
end

