-- ==== Sys2Proof/Machine/Special.lean ====
section
/-! DEFINITION. The special functions (R220): the manual bounds their results and does not give them, so a result is a free
code within the bound of Table 7.7; the exact function is enclosed by fixed-point arithmetic far finer than the bound. -/

namespace Sys2Proof.Machine

/-- Bits behind the point of the fixed-point arithmetic. -/
def fixP : Nat := 96

/-- A finite magnitude that is tiny in W32 (R60). -/
def tinyW32 (m : Nat) (e : Int) : Bool := m != 0 && (Fmt.w32.round .rne m e).2.2

/-- The flags of an inexact special result: underflow where the exact value is tiny or has become zero (Table 2.15). -/
def inexactFlags (tiny : Bool) (r : Word) : Flags :=
  Flags.nx ||| flagIf (r.toNat % 2 ^ 31 == 0x7F800000) Flags.of ||| flagIf (tiny || r.toNat % 2 ^ 31 == 0) Flags.uf

/-- A result within `k` ulp of an exact value close to m × 2^e: the free code where it lies within the bound and the
correctly rounded one otherwise; `exact` where the value is exactly m × 2^e and a W32 value. -/
def withinUlp (k : Nat) (neg : Bool) (m : Nat) (e : Int) (exact : Bool) (cand : Word) : Word × Flags :=
  let near := toW32 .rne (.fin neg m e)
  let lo := (toW32 .rtz (.fin neg m e)).1.toNat % 2 ^ 31
  let low := if exact then lo - k else lo + 1 - k
  let mag := cand.toNat % 2 ^ 31
  if 0x7F800000 ≤ near.1.toNat % 2 ^ 31 then near
  else
    let r := if cand.toNat.testBit 31 = neg ∧ low ≤ mag ∧ mag ≤ lo + k ∧ mag ≤ 0x7F800000 then cand else near.1
    (r, if exact && r == near.1 then 0 else inexactFlags (tinyW32 m e) r)

/-- A finite non-zero magnitude that some W32 code has exactly. -/
def exactW32 (m : Nat) (e : Int) : Bool := (Fmt.w32.finite .rne m e).2 == 0

/-- inv: 1/a within 1 ulp. -/
def specialInv (a cand : Word) : Word × Flags :=
  match w32Val a with
  | .nan => (w32Nan, Flags.iv)
  | .inf n => (if n then 0x80000000 else 0, 0)
  | .fin n m e =>
    if m = 0 then (if n then 0xFF800000 else 0x7F800000, 0)
    else
      let q := quotient 1 0 m e
      withinUlp 1 n q.1 q.2 (q.1 % 2 == 0 && exactW32 q.1 q.2) cand

/-- invsqrt: 1/√a within 1 ulp. -/
def specialInvsqrt (a cand : Word) : Word × Flags :=
  match w32Val a with
  | .nan => (w32Nan, Flags.iv)
  | .inf n => if n then (w32Nan, Flags.iv) else (0, 0)
  | .fin n m e =>
    if m = 0 then (if n then 0xFF800000 else 0x7F800000, 0)
    else if n then (w32Nan, Flags.iv)
    else
      let q := quotient 1 0 m e
      match (Num.fin false q.1 q.2).sqrt.1 with
      | .fin _ m' e' => withinUlp 1 false m' e' (q.1 % 2 == 0 && m' % 2 == 0 && exactW32 m' e') cand
      | _ => (w32Nan, Flags.iv)

/-- m × 2^e with a sign, in units of 2^-96, rounded down. -/
def toFix (neg : Bool) (m : Nat) (e : Int) : Int :=
  let k := e + fixP
  let v : Int := if 0 ≤ k then (m * 2 ^ k.toNat : Nat) else 0
  if 0 ≤ k then (if neg then -v else v)
  else
    let d := 2 ^ (-k).toNat
    if neg then -((m + d - 1) / d : Nat) else (m / d : Nat)

/-- 2^F for a fraction F, in units of 2^-96, by square roots of 2: `i` bits left, `f` the fraction's bits yet to take from
the top, `s` the root in hand, `r` the product so far. -/
def exp2Frac : Nat → Nat → Nat → Nat → Nat
  | 0, _, _, r => r
  | i + 1, f, s, r =>
    let s' := isqrt (s * 2 ^ fixP)
    let r' := if f.testBit i then r * s' / 2 ^ fixP else r
    exp2Frac i f s' r'

/-- pow2: 2^a within 2 ulp. -/
def specialPow2 (a cand : Word) : Word × Flags :=
  match w32Val a with
  | .nan => (w32Nan, Flags.iv)
  | .inf n => (if n then 0 else 0x7F800000, 0)
  | .fin n m e =>
    if m = 0 then (0x3F800000, 0)
    else if !magLt m e 300 0 then
      if n then (0, Flags.uf ||| Flags.nx) else (0x7F800000, Flags.of ||| Flags.nx)
    else
      let v := toFix n m e
      let whole := v / 2 ^ fixP
      let frac := (v % 2 ^ fixP).toNat
      let int := decide (0 ≤ e) || decide (m % 2 ^ (-e).toNat = 0)
      let r := exp2Frac fixP frac (2 * 2 ^ fixP) (2 ^ fixP)
      withinUlp 2 false r (whole - fixP) (int && exactW32 1 whole) cand

/-- Bits of the binary logarithm of x in [1, 2), in units of 2^-96: `i` bits left. -/
def log2Frac : Nat → Nat → Nat → Nat
  | 0, _, acc => acc
  | i + 1, x, acc =>
    let y := x * x / 2 ^ fixP
    if 2 * 2 ^ fixP ≤ y then log2Frac i (y / 2) (2 * acc + 1) else log2Frac i y (2 * acc)

/-- lgb: the binary logarithm within 2 ulp. -/
def specialLgb (a cand : Word) : Word × Flags :=
  match w32Val a with
  | .nan => (w32Nan, Flags.iv)
  | .inf n => if n then (w32Nan, Flags.iv) else (0x7F800000, 0)
  | .fin n m e =>
    if m = 0 then (0xFF800000, 0)
    else if n then (w32Nan, Flags.iv)
    else
      let k := bitLen m
      let whole : Int := e + k - 1
      let pow := decide (m = 2 ^ (k - 1))
      let frac : Nat := if pow then 0 else log2Frac 80 (m * 2 ^ (fixP + 1 - k)) 0
      let v : Int := whole * 2 ^ 80 + frac
      if v = 0 then (0, 0) else withinUlp 2 (decide (v < 0)) v.natAbs (-80) pow cand

/-- π in units of 2^-96. -/
def piFix : Nat := 248902613312231085230521944622

/-- Taylor sum of the sine or cosine of x in units of 2^-96: the next term, its index, and `k` terms left. -/
def trigSeries (x : Int) : Nat → Int → Nat → Int → Int
  | 0, _, _, acc => acc
  | k + 1, term, i, acc =>
    trigSeries x k (-(term * x / 2 ^ fixP * x / 2 ^ fixP) / ((i + 1) * (i + 2))) (i + 2) (acc + term)

def sinFix (x : Int) : Int := trigSeries x 16 x 1 0
def cosFix (x : Int) : Int := trigSeries x 16 (2 ^ fixP) 0 0

/-- sin(2π t) for t in turns, `k` quarter turns ahead, in units of 2^-96; and whether t is a whole number of quarters. -/
def turnSine (neg : Bool) (m : Nat) (e : Int) (k : Int) : Int × Bool :=
  let q := 4 * (toFix neg m e % 2 ^ fixP)
  let quad := (q / 2 ^ fixP + k) % 4
  let x := (q % 2 ^ fixP) * piFix / 2 ^ (fixP + 1)
  let exact := decide (0 ≤ e + 2) || decide (m % 2 ^ (-(e + 2)).toNat = 0)
  let v := if quad = 0 then sinFix x else if quad = 1 then cosFix x else if quad = 2 then -sinFix x else -cosFix x
  (if exact then (if quad = 1 then 2 ^ fixP else if quad = 3 then -(2 ^ fixP) else 0) else v, exact)

/-- A result within 2^-22 of an exact value near v × 2^-96; `tiny`: the exact value is tiny. -/
def withinAbs (v : Int) (exact tiny : Bool) (cand : Word) : Word × Flags :=
  let x : Num := .fin (decide (v < 0)) v.natAbs (-fixP)
  let near := toW32 .rne x
  let ok := match ((w32Val cand).add x.neg).1 with
    | .fin _ m e => !magLt 1 (-22) m e
    | _ => false
  let r := if ok then cand else near.1
  (r, if exact && ((w32Val r).add x.neg).1.isZero then 0 else inexactFlags tiny r)

/-- sin.t and cos.t within 2^-22 for |a| up to 2^20; beyond it the canonical NaN and invalid. Only the sine of an argument
so small that it is 2πt can be tiny: every other argument lies at least 2^-26 from a zero of the function. -/
def specialTrig (cosine : Bool) (a cand : Word) : Word × Flags :=
  match w32Val a with
  | .nan => (w32Nan, Flags.iv)
  | .inf _ => (w32Nan, Flags.iv)
  | .fin n m e =>
    if magLt (2 ^ 20) 0 m e then (w32Nan, Flags.iv)
    else if m = 0 then (if cosine then 0x3F800000 else a, 0)
    else
      let r := turnSine n m e (if cosine then 1 else 0)
      withinAbs r.1 r.2 (!cosine && tinyW32 (2 * m * piFix) (e - fixP)) cand

end Sys2Proof.Machine
end

