-- ==== Sys2Proof/Machine/ThreadInt.lean ====
section
/-! DEFINITION. Integer, move and predicate instructions of Table 7.5 (R217). -/

namespace Sys2Proof.Machine

def formAB : Form := { d := .reg, a := .reg, b := .reg }
def formA : Form := { d := .reg, a := .reg }

/-- An integer operation over a and b. -/
def State.intOp (s : State) (c g opc : Nat) (w : IFields) (f : Form) (op : Word → Word → Word) : State :=
  s.perLane c g opc w f fun _ x l => (op (x.av w l) (x.bv w l), 0)

/-- nop: nothing. -/
def execNop (c g : Nat) (w : IFields) (s : State) : Host.Outcome State Fault Refusal :=
  answer (isCore c && isGroup g) s fun s => s.issue c g 0x00 w {} fun s _ => s.advance c g

/-- add.i: d = a + b mod 2^32. -/
def execAddI (c g : Nat) (w : IFields) (s : State) : Host.Outcome State Fault Refusal :=
  answer (isCore c && isGroup g) s fun s => s.intOp c g 0x01 w formAB (· + ·)

/-- addk.i: d = a + sext(IMM) mod 2^32. -/
def execAddkI (c g : Nat) (w : IFields) (s : State) : Host.Outcome State Fault Refusal :=
  answer (isCore c && isGroup g) s fun s =>
    s.perLane c g 0x02 w { d := .reg, a := .reg, imm := true } fun _ x l => (x.av w l + BitVec.ofInt 32 w.simm, 0)

/-- sub.i: d = a − b mod 2^32. -/
def execSubI (c g : Nat) (w : IFields) (s : State) : Host.Outcome State Fault Refusal :=
  answer (isCore c && isGroup g) s fun s => s.intOp c g 0x03 w formAB (· - ·)

/-- mul.i: low 32 bits of a × b. -/
def execMulI (c g : Nat) (w : IFields) (s : State) : Host.Outcome State Fault Refusal :=
  answer (isCore c && isGroup g) s fun s => s.intOp c g 0x04 w formAB (· * ·)

/-- High half of the product, signed or not. -/
def mulHigh (sgn : Bool) (a b : Word) : Word :=
  if sgn then BitVec.ofInt 32 ((a.toInt * b.toInt) / 2 ^ 32) else BitVec.ofNat 32 (a.toNat * b.toNat / 2 ^ 32)

/-- mulh.i: high 32 bits of the 64-bit product; MOD[0] = 1 treats both operands as signed. -/
def execMulhI (c g : Nat) (w : IFields) (s : State) : Host.Outcome State Fault Refusal :=
  answer (isCore c && isGroup g) s fun s => s.intOp c g 0x05 w { formAB with mods := 3 } (mulHigh (w.m 0))

/-- mac.i: low 32 bits of a × b + c. -/
def execMacI (c g : Nat) (w : IFields) (s : State) : Host.Outcome State Fault Refusal :=
  answer (isCore c && isGroup g) s fun s =>
    s.perLane c g 0x06 w { formAB with c := .reg } fun _ x l => (x.av w l * x.bv w l + x.cv w l, 0)

/-- and: d = a AND b. -/
def execAndW (c g : Nat) (w : IFields) (s : State) : Host.Outcome State Fault Refusal :=
  answer (isCore c && isGroup g) s fun s => s.intOp c g 0x07 w formAB (· &&& ·)

/-- or: d = a OR b. -/
def execOrW (c g : Nat) (w : IFields) (s : State) : Host.Outcome State Fault Refusal :=
  answer (isCore c && isGroup g) s fun s => s.intOp c g 0x08 w formAB (· ||| ·)

/-- xor: d = a XOR b. -/
def execXorW (c g : Nat) (w : IFields) (s : State) : Host.Outcome State Fault Refusal :=
  answer (isCore c && isGroup g) s fun s => s.intOp c g 0x09 w formAB (· ^^^ ·)

/-- shl: a shifted left by b[4:0]. -/
def execShl (c g : Nat) (w : IFields) (s : State) : Host.Outcome State Fault Refusal :=
  answer (isCore c && isGroup g) s fun s => s.intOp c g 0x0A w formAB fun a b => a <<< (b.toNat % 32)

/-- shr: a shifted right by b[4:0]; MOD[0] = 0 zeros enter, 1 copies of bit 31. -/
def execShr (c g : Nat) (w : IFields) (s : State) : Host.Outcome State Fault Refusal :=
  answer (isCore c && isGroup g) s fun s =>
    s.intOp c g 0x0B w { formAB with mods := 3 } fun a b =>
      if w.m 0 then a.sshiftRight (b.toNat % 32) else a >>> (b.toNat % 32)

/-- rotl: a rotated left by b[4:0]. -/
def execRotl (c g : Nat) (w : IFields) (s : State) : Host.Outcome State Fault Refusal :=
  answer (isCore c && isGroup g) s fun s => s.intOp c g 0x0C w formAB fun a b => a.rotateLeft (b.toNat % 32)

/-- a is less than b, as signed numbers or not. -/
def intLess (sgn : Bool) (a b : Word) : Bool := if sgn then a.slt b else a.ult b

/-- min.i: the lesser of a and b; MOD[0] = 1 compares as signed. -/
def execMinI (c g : Nat) (w : IFields) (s : State) : Host.Outcome State Fault Refusal :=
  answer (isCore c && isGroup g) s fun s =>
    s.intOp c g 0x0D w { formAB with mods := 3 } fun a b => if intLess (w.m 0) b a then b else a

/-- max.i: the greater of a and b; MOD[0] = 1 compares as signed. -/
def execMaxI (c g : Nat) (w : IFields) (s : State) : Host.Outcome State Fault Refusal :=
  answer (isCore c && isGroup g) s fun s =>
    s.intOp c g 0x0E w { formAB with mods := 3 } fun a b => if intLess (w.m 0) a b then b else a

/-- Set bits of a word. -/
def popCount (a : Word) : Nat := (List.range 32).foldl (fun n i => if a.toNat.testBit i then n + 1 else n) 0

/-- ones: count of set bits in a. -/
def execOnes (c g : Nat) (w : IFields) (s : State) : Host.Outcome State Fault Refusal :=
  answer (isCore c && isGroup g) s fun s =>
    s.perLane c g 0x0F w formA fun _ x l => (BitVec.ofNat 32 (popCount (x.av w l)), 0)

/-- clz: zero bits above the highest set bit; 32 for zero. -/
def execClz (c g : Nat) (w : IFields) (s : State) : Host.Outcome State Fault Refusal :=
  answer (isCore c && isGroup g) s fun s =>
    s.perLane c g 0x10 w formA fun _ x l => (BitVec.ofNat 32 (32 - bitLen (x.av w l).toNat), 0)

/-- ldk: d = instruction bits [31:0]. -/
def execLdk (c g : Nat) (w : IFields) (s : State) : Host.Outcome State Fault Refusal :=
  answer (isCore c && isGroup g) s fun s =>
    s.perLane c g 0x11 w { d := .reg, b := .bits, c := .bits, imm := true } fun _ _ _ => (w.imm32, 0)

/-- mov: d = a. -/
def execMov (c g : Nat) (w : IFields) (s : State) : Host.Outcome State Fault Refusal :=
  answer (isCore c && isGroup g) s fun s => s.perLane c g 0x12 w formA fun _ x l => (x.av w l, 0)

/-- pick: d = a where p[C] holds, otherwise b. -/
def execPick (c g : Nat) (w : IFields) (s : State) : Host.Outcome State Fault Refusal :=
  answer (isCore c && isGroup g) s fun s =>
    s.perLane c g 0x13 w { formAB with c := .pred } fun _ x l =>
      (if x.pred l w.c.toNat then x.av w l else x.bv w l, 0)

/-- The comparison that MOD[2:0] names: equal, not equal, less, less or equal, greater, greater or equal. -/
def compareBy (k : Nat) (lt eq gt : Bool) : Bool :=
  match k with
  | 0 => eq
  | 1 => !eq
  | 2 => lt
  | 3 => lt || eq
  | 4 => gt
  | _ => gt || eq

/-- cmp.i: p[D] = a compared with b; MOD[3] = 1 compares as unsigned. -/
def execCmpI (c g : Nat) (w : IFields) (s : State) : Host.Outcome State Fault Refusal :=
  answer (isCore c && isGroup g) s fun s =>
    s.perLanePred c g 0x14 w { d := .pred, a := .reg, b := .reg, mods := 0x3F3F } fun x l =>
      let a := x.av w l
      let b := x.bv w l
      (compareBy (w.md.toNat % 8) (intLess (!w.m 3) a b) (a == b) (intLess (!w.m 3) b a), 0)

/-- System values of Table 7.6; none traps ILLEGAL. The timer value is the die's own and carries no offset (R355). -/
def State.sysValue (s : State) (c g : Nat) (x : Group) (l n : Nat) : Option Nat :=
  let b := s.blockOf c x.block
  match n with
  | 0 => some l
  | 1 => some g
  | 2 => some (match b with | some y => y.index | none => 0)
  | 3 => some x.index
  | 4 => some c
  | 5 => some (match x.stream with | .f => 0 | .b => 1 | .u => 2)
  | 6 => some (match b.bind fun y => (s.core c).items.find? fun i => i.id == y.item with
      | some i => i.itemId.toNat | none => 0)
  | 7 => some s.stepNo
  | 8 => some (match b with | some y => y.lmemBase | none => 0)
  | 9 => some (s.dieTimer (s.phys c / 20) % 2 ^ 32)
  | 10 => some s.node
  | _ => none

/-- getsys: d = system value IMM. -/
def execGetsys (c g : Nat) (w : IFields) (s : State) : Host.Outcome State Fault Refusal :=
  answer (isCore c && isGroup g) s fun s =>
    s.issue c g 0x15 w { d := .reg, imm := true } fun s x =>
      if 10 < w.imm.toNat then s.trap c g TC.illegal 0x15 x.pc.toNat false
      else
        let s := s.tickTimer
        let r := writeLanes x w.d.toNat (lanesOf (x.exec w)) fun l =>
          (BitVec.ofNat 32 ((s.sysValue c g x l w.imm.toNat).getD 0), 0)
        (s.setGroup c g r.1).advance c g

/-- plog: p[D] = p[A] combined with p[B]. -/
def execPlog (c g : Nat) (w : IFields) (s : State) : Host.Outcome State Fault Refusal :=
  answer (isCore c && isGroup g) s fun s =>
    s.perLanePred c g 0x16 w { d := .pred, a := .pred, b := .pred, mods := 0xF } fun x l =>
      let p := x.pred l w.a.toNat
      let q := x.pred l w.b.toNat
      ((match w.md.toNat with
        | 0 => p && q
        | 1 => p || q
        | 2 => p != q
        | _ => p && !q), 0)

/-- The lane that xlane reads for lane l, by MOD. -/
def xlaneOf (md l : Nat) (b : Word) : Int :=
  match md with
  | 0 => (b.toNat % 64 : Nat)
  | 1 => (l : Int) - b.toNat
  | 2 => (l : Int) + b.toNat
  | _ => ((l ^^^ (b.toNat % 64) : Nat) : Int)

/-- xlane: d = a as held by lane L; own a where L lies outside 0 to 63 or is not active. -/
def execXlane (c g : Nat) (w : IFields) (s : State) : Host.Outcome State Fault Refusal :=
  answer (isCore c && isGroup g) s fun s =>
    s.perLane c g 0x70 w { formAB with mods := 0xF } fun _ x l =>
      let t := xlaneOf w.md.toNat l (x.bv w l)
      (if 0 ≤ t ∧ t < 64 ∧ inMask x.active t.toNat then x.av w t.toNat else x.av w l, 0)

/-- poll: over the active lanes, whether any or every lane holds p[C], or the mask of lanes that do. -/
def execPoll (c g : Nat) (w : IFields) (s : State) : Host.Outcome State Fault Refusal :=
  answer (isCore c && isGroup g) s fun s =>
    s.issue c g 0x71 w { d := if w.md = 2 then .pair else .pred, c := .pred, mods := 7 } fun s x =>
      let lanes := lanesOf (x.exec w)
      let act := lanesOf x.active
      let y := if w.md = 2 then
          let m := maskOf fun l => act.contains l && x.pred l w.c.toNat
          lanes.foldl (fun y l => y.setPair l w.d.toNat m) x
        else
          let v := if w.md = 0 then act.any (fun l => x.pred l w.c.toNat) else act.all fun l => x.pred l w.c.toNat
          lanes.foldl (fun y l => y.setPred l w.d.toNat v) x
      (s.setGroup c g y).advance c g

/-- stip: d = stipple output word MOD (R219). -/
def execStip (c g : Nat) (w : IFields) (s : State) : Host.Outcome State Fault Refusal :=
  answer (isCore c && isGroup g) s fun s =>
    s.perLane c g 0x88 w { formAB with mods := 0xF } fun s x l =>
      ((s.stipple x.ctxDraw (x.av w l)
        (BitVec.ofNat 32 (x.ctxStream.toNat * 65536 + (x.bv w l).toNat % 65536)) x.ctxTensor).out w.md.toNat, 0)

end Sys2Proof.Machine
end

