-- ==== Sys2Proof/Machine/ThreadFloat.lean ====
section
/-! DEFINITION. W32, packed B16, conversion and special-function instructions of Table 7.5 (R217 to R220). -/

namespace Sys2Proof.Machine

/-! ## Modifiers (R218) -/

/-- MOD values of arithmetic that takes a rounding mode and the modifiers of a: RNE or RTZ. -/
def arithMods : Nat := 0x5555

/-- The rounding mode of MOD[1:0] for arithmetic. -/
def IFieldsRnd (w : IFields) : Rnd := if w.md.toNat % 4 = 2 then .rtz else .rne

/-- MOD[2] takes the magnitude of a, then MOD[3] negates it. -/
def modifyW (w : IFields) (a : Word) : Word :=
  let x := if w.m 2 then a &&& 0x7FFFFFFF else a
  if w.m 3 then x ^^^ 0x80000000 else x

def modifyH (w : IFields) (a : BitVec 16) : BitVec 16 :=
  let x := if w.m 2 then a &&& 0x7FFF else a
  if w.m 3 then x ^^^ 0x8000 else x

/-- Round an exact result with its flags. -/
def finishW (r : Rnd) (x : Num × Flags) : Word × Flags :=
  let y := toW32 r x.1
  (y.1, x.2 ||| y.2)

def finishH (r : Rnd) (x : Num × Flags) : BitVec 16 × Flags :=
  let y := toB16 r x.1
  (y.1, x.2 ||| y.2)

/-- A W32 operation over a, b and c with the modifiers. -/
def State.wOp (s : State) (c g opc : Nat) (w : IFields) (f : Form) (op : Num → Num → Num → Num × Flags) : State :=
  s.perLane c g opc w { f with mods := arithMods } fun _ x l =>
    finishW (IFieldsRnd w) (op (w32Val (modifyW w (x.av w l))) (w32Val (x.bv w l)) (w32Val (x.cv w l)))

/-- The halves of a packed register. -/
def loHalf (a : Word) : BitVec 16 := a.setWidth 16
def hiHalf (a : Word) : BitVec 16 := (a >>> 16).setWidth 16

/-- A packed operation: each half computed and rounded on its own. -/
def State.hOp (s : State) (c g opc : Nat) (w : IFields) (f : Form) (op : Num → Num → Num → Num × Flags) : State :=
  s.perLane c g opc w { f with mods := arithMods } fun _ x l =>
    let half (k : Word → BitVec 16) : BitVec 16 × Flags :=
      finishH (IFieldsRnd w) (op (b16Val (modifyH w (k (x.av w l)))) (b16Val (k (x.bv w l))) (b16Val (k (x.cv w l))))
    let lo := half loHalf
    let hi := half hiHalf
    (hi.1 ++ lo.1, lo.2 ||| hi.2)

/-- IEEE 754-2019 minimum and maximum: −0 < +0; a NaN operand gives NaN and sets invalid. -/
def Num.minimum (a b : Num) : Num × Flags :=
  if a.isNan || b.isNan then (.nan, Flags.iv)
  else if a.lt b then (a, 0) else if b.lt a then (b, 0) else (if a.isNeg then a else b, 0)

def Num.maximum (a b : Num) : Num × Flags :=
  if a.isNan || b.isNan then (.nan, Flags.iv)
  else if a.lt b then (b, 0) else if b.lt a then (a, 0) else (if a.isNeg then b else a, 0)

/-! ## W32 -/

/-- add.w: d = a + b. -/
def execAddW (c g : Nat) (w : IFields) (s : State) : Host.Outcome State Fault Refusal :=
  answer (isCore c && isGroup g) s fun s => s.wOp c g 0x20 w formAB fun a b _ => a.add b

/-- mul.w: d = a × b. -/
def execMulW (c g : Nat) (w : IFields) (s : State) : Host.Outcome State Fault Refusal :=
  answer (isCore c && isGroup g) s fun s => s.wOp c g 0x21 w formAB fun a b _ => a.mul b

/-- fma.w: d = a × b + c, one rounding. -/
def execFmaW (c g : Nat) (w : IFields) (s : State) : Host.Outcome State Fault Refusal :=
  answer (isCore c && isGroup g) s fun s => s.wOp c g 0x22 w { formAB with c := .reg } fun a b k => a.fma b k

/-- min.w: minimum. -/
def execMinW (c g : Nat) (w : IFields) (s : State) : Host.Outcome State Fault Refusal :=
  answer (isCore c && isGroup g) s fun s => s.wOp c g 0x23 w formAB fun a b _ => Num.minimum a b

/-- max.w: maximum. -/
def execMaxW (c g : Nat) (w : IFields) (s : State) : Host.Outcome State Fault Refusal :=
  answer (isCore c && isGroup g) s fun s => s.wOp c g 0x24 w formAB fun a b _ => Num.maximum a b

/-- cmp.w: p[D] = a compared with b; with a NaN operand true only for not equal, and the NaN consumed sets invalid. -/
def execCmpW (c g : Nat) (w : IFields) (s : State) : Host.Outcome State Fault Refusal :=
  answer (isCore c && isGroup g) s fun s =>
    s.perLanePred c g 0x25 w { d := .pred, a := .reg, b := .reg, mods := 0x3F } fun x l =>
      let a := w32Val (x.av w l)
      let b := w32Val (x.bv w l)
      if a.isNan || b.isNan then (w.md == 1, Flags.iv)
      else (compareBy w.md.toNat (a.lt b) (a.eqv b) (b.lt a), 0)

/-- div.w: d = a / b, correctly rounded. -/
def execDivW (c g : Nat) (w : IFields) (s : State) : Host.Outcome State Fault Refusal :=
  answer (isCore c && isGroup g) s fun s => s.wOp c g 0x26 w formAB fun a b _ => a.div b

/-- sqrt.w: d = √a, correctly rounded. -/
def execSqrtW (c g : Nat) (w : IFields) (s : State) : Host.Outcome State Fault Refusal :=
  answer (isCore c && isGroup g) s fun s => s.wOp c g 0x27 w formA fun a _ _ => a.sqrt

/-- flt.i: the integer a as W32 with RNE; MOD[0] = 1 reads a as signed. -/
def execFltI (c g : Nat) (w : IFields) (s : State) : Host.Outcome State Fault Refusal :=
  answer (isCore c && isGroup g) s fun s =>
    s.perLane c g 0x28 w { formA with mods := 3 } fun _ x l =>
      let v : Int := if w.m 0 then (x.av w l).toInt else (x.av w l).toNat
      toW32 .rne (.fin (decide (v < 0)) v.natAbs 0)

/-- An integer from a number (R218): truncated toward zero, saturating, NaN to 0. -/
def truncInt (sgn : Bool) (x : Num) : Word × Flags :=
  let top : Int := if sgn then 2 ^ 31 - 1 else 2 ^ 32 - 1
  let bot : Int := if sgn then -(2 ^ 31) else 0
  match x with
  | .nan => (0, Flags.iv)
  | .inf n => (BitVec.ofInt 32 (if n then bot else top), Flags.of ||| Flags.nx)
  | .fin n m e =>
    let mag : Nat := if 0 ≤ e then m * 2 ^ e.toNat else m / 2 ^ (-e).toNat
    let inexact := decide (e < 0) && m % 2 ^ (-e).toNat != 0
    let v : Int := if n then -(mag : Int) else mag
    if top < v then (BitVec.ofInt 32 top, Flags.of ||| Flags.nx)
    else if v < bot then (BitVec.ofInt 32 bot, Flags.of ||| Flags.nx)
    else (BitVec.ofInt 32 v, flagIf inexact Flags.nx)

/-- int.w: a truncated toward zero; MOD[0] = 1 gives a signed result. -/
def execIntW (c g : Nat) (w : IFields) (s : State) : Host.Outcome State Fault Refusal :=
  answer (isCore c && isGroup g) s fun s =>
    s.perLane c g 0x29 w { formA with mods := 0x3333 } fun _ x l => truncInt (w.m 0) (w32Val (modifyW w (x.av w l)))

/-! ## Packed B16 -/

/-- add.b2: per half d = a + b. -/
def execAddB2 (c g : Nat) (w : IFields) (s : State) : Host.Outcome State Fault Refusal :=
  answer (isCore c && isGroup g) s fun s => s.hOp c g 0x30 w formAB fun a b _ => a.add b

/-- mul.b2: per half d = a × b. -/
def execMulB2 (c g : Nat) (w : IFields) (s : State) : Host.Outcome State Fault Refusal :=
  answer (isCore c && isGroup g) s fun s => s.hOp c g 0x31 w formAB fun a b _ => a.mul b

/-- fma.b2: per half d = a × b + c, one rounding. -/
def execFmaB2 (c g : Nat) (w : IFields) (s : State) : Host.Outcome State Fault Refusal :=
  answer (isCore c && isGroup g) s fun s => s.hOp c g 0x32 w { formAB with c := .reg } fun a b k => a.fma b k

/-- min.b2: per half minimum. -/
def execMinB2 (c g : Nat) (w : IFields) (s : State) : Host.Outcome State Fault Refusal :=
  answer (isCore c && isGroup g) s fun s => s.hOp c g 0x33 w formAB fun a b _ => Num.minimum a b

/-- max.b2: per half maximum. -/
def execMaxB2 (c g : Nat) (w : IFields) (s : State) : Host.Outcome State Fault Refusal :=
  answer (isCore c && isGroup g) s fun s => s.hOp c g 0x34 w formAB fun a b _ => Num.maximum a b

/-! ## Conversions -/

/-- The rounding mode of MOD[1:0] for a conversion; SR draws u from the stipple generator with the element index in c
(R52, R219). -/
def State.convRnd (s : State) (x : Group) (w : IFields) (l : Nat) : Rnd :=
  match w.md.toNat % 4 with
  | 0 => .rne
  | 1 => .ro
  | 2 => .rtz
  | _ => .sr (srBits (s.stipple x.ctxDraw (x.cv w l) (BitVec.ofNat 32 (x.ctxStream.toNat * 65536)) x.ctxTensor))

/-- nar.b16: a to B16 (R55); MOD[2] 0: the result below zeros, 1: the result above b[15:0]. -/
def execNarB16 (c g : Nat) (w : IFields) (s : State) : Host.Outcome State Fault Refusal :=
  answer (isCore c && isGroup g) s fun s =>
    s.perLane c g 0x38 w { formAB with c := .reg, mods := 0xFF } fun s x l =>
      let r := narrow (s.convRnd x w l) (x.av w l)
      (if w.m 2 then r.1 ++ loHalf (x.bv w l) else r.1.setWidth 32, r.2)

/-- wid.b16: exact W32 of half MOD[2] of a. -/
def execWidB16 (c g : Nat) (w : IFields) (s : State) : Host.Outcome State Fault Refusal :=
  answer (isCore c && isGroup g) s fun s =>
    s.perLane c g 0x39 w { formA with mods := 0x11 } fun _ x l =>
      widen (if w.m 2 then hiHalf (x.av w l) else loHalf (x.av w l))

/-- a encoded to F8 with a given block exponent and coarse scale (R56, R58). -/
def encodeGiven (r : Rnd) (coarse : Word) (ex : Nat) (a : Word) : Byte × Flags :=
  let y := encF8 r (unscale ex ((w32Val a).mul (w32Val (recip coarse))).1)
  (y.code, y.flags)

/-- Bits of d above a narrow result, which the manual does not give: a free value (log entry 16). -/
def State.above (s : State) (n l : Nat) (v : Nat) : Word :=
  BitVec.ofNat 32 (v % 2 ^ n + Config.pick (64 * s.free + l) * 2 ^ n)

/-- What enc.f8 gives in a lane. -/
def State.encoded (s : State) (w : IFields) (x : Group) (l : Nat) : LaneRes :=
  let r := encodeGiven (s.convRnd x w l) x.ctxCoarse ((x.bv w l).toNat % 256) (x.av w l)
  (s.above 8 l r.1.toNat, r.2)

/-- enc.f8: d[7:0] = a encoded with E = b[7:0]. -/
def execEncF8 (c g : Nat) (w : IFields) (s : State) : Host.Outcome State Fault Refusal :=
  answer (isCore c && isGroup g) s fun s =>
    s.perLane c g 0x3A w { formAB with c := .reg, mods := 0xD } (fun s x l => s.encoded w x l) State.drawn

/-- What dec.n gives in a lane: MOD[3] picks H4 or F8, MOD[2] B16 or W32. -/
def State.decoded (s : State) (w : IFields) (x : Group) (l : Nat) : LaneRes :=
  let a := x.av w l
  let v := if w.m 3 then h4Val (a.toNat % 16) else f8Val (a.setWidth 8)
  let y := scaled ((x.bv w l).setWidth 8) v
  if w.m 2 then let r := widenB16 y x.ctxCoarse; (s.above 16 l r.1.toNat, r.2) else widenW32 y x.ctxCoarse

/-- dec.n: widen an F8 or H4 element with E = b[7:0] to W32 or B16 (R43). -/
def execDecN (c g : Nat) (w : IFields) (s : State) : Host.Outcome State Fault Refusal :=
  answer (isCore c && isGroup g) s fun s =>
    s.perLane c g 0x3B w { formAB with mods := 0x1111 } (fun s x l => s.decoded w x l) State.drawn

/-! ## Special functions (R220) -/

/-- A special function of the modified a; its free code is drawn by function and operand, so that equal operands give
equal bits. -/
def State.special (s : State) (c g opc : Nat) (w : IFields) (op : Word → Word → Word × Flags) : State :=
  s.perLane c g opc w { formA with mods := 0x1111 } fun _ x l =>
    let a := modifyW w (x.av w l)
    op a (Config.special opc a)

/-- inv: d ≈ 1/a. -/
def execInv (c g : Nat) (w : IFields) (s : State) : Host.Outcome State Fault Refusal :=
  answer (isCore c && isGroup g) s fun s => s.special c g 0x40 w specialInv

/-- invsqrt: d ≈ 1/√a. -/
def execInvsqrt (c g : Nat) (w : IFields) (s : State) : Host.Outcome State Fault Refusal :=
  answer (isCore c && isGroup g) s fun s => s.special c g 0x41 w specialInvsqrt

/-- pow2: d ≈ 2^a. -/
def execPow2 (c g : Nat) (w : IFields) (s : State) : Host.Outcome State Fault Refusal :=
  answer (isCore c && isGroup g) s fun s => s.special c g 0x42 w specialPow2

/-- lgb: d ≈ binary logarithm of a. -/
def execLgb (c g : Nat) (w : IFields) (s : State) : Host.Outcome State Fault Refusal :=
  answer (isCore c && isGroup g) s fun s => s.special c g 0x43 w specialLgb

/-- sin.t: d ≈ sin(2π a). -/
def execSinT (c g : Nat) (w : IFields) (s : State) : Host.Outcome State Fault Refusal :=
  answer (isCore c && isGroup g) s fun s => s.special c g 0x44 w (specialTrig false)

/-- cos.t: d ≈ cos(2π a). -/
def execCosT (c g : Nat) (w : IFields) (s : State) : Host.Outcome State Fault Refusal :=
  answer (isCore c && isGroup g) s fun s => s.special c g 0x45 w (specialTrig true)

end Sys2Proof.Machine
end

