-- ==== Sys2Proof/Machine/Dispatch.lean ====
section
/-! DEFINITION. The meaning of each command: one arm per constructor of `Instr`, in the order of the table of operations. -/

namespace Sys2Proof.Machine

def exec (i : Instr) (s : State) : Host.Outcome State Fault Refusal :=
  match i with
  | .registerWrite port off x => Sys2Proof.Machine.execRegisterWrite port off x s
  | .vinRise => Sys2Proof.Machine.execVinRise s
  | .vinFall => Sys2Proof.Machine.execVinFall s
  | .vinSurge => Sys2Proof.Machine.execVinSurge s
  | .converterSoftStartComplete => Sys2Proof.Machine.execConverterSoftStartComplete s
  | .firmwareVerified => Sys2Proof.Machine.execFirmwareVerified s
  | .hbmTrainingComplete failed qual repair => Sys2Proof.Machine.execHbmTrainingComplete failed qual repair s
  | .coreSelfTestComplete once twice => Sys2Proof.Machine.execCoreSelfTestComplete once twice s
  | .linkWaitEnd => Sys2Proof.Machine.execLinkWaitEnd s
  | .configRequest port rq => Sys2Proof.Machine.execConfigRequest port rq s
  | .devrstNFall => Sys2Proof.Machine.execDevrstNFall s
  | .devrstNQualify => Sys2Proof.Machine.execDevrstNQualify s
  | .devrstNRise => Sys2Proof.Machine.execDevrstNRise s
  | .devrst port => Sys2Proof.Machine.execDevrst port s
  | .resetHoldEnd => Sys2Proof.Machine.execResetHoldEnd s
  | .perstAssert port => Sys2Proof.Machine.execPerstAssert port s
  | .perstDeassert port => Sys2Proof.Machine.execPerstDeassert port s
  | .functionLevelReset port => Sys2Proof.Machine.execFunctionLevelReset port s
  | .d3hotEntry port => Sys2Proof.Machine.execD3hotEntry port s
  | .d0Return port => Sys2Proof.Machine.execD0Return port s
  | .nop c g w => Sys2Proof.Machine.execNop c g w s
  | .addI c g w => Sys2Proof.Machine.execAddI c g w s
  | .addkI c g w => Sys2Proof.Machine.execAddkI c g w s
  | .subI c g w => Sys2Proof.Machine.execSubI c g w s
  | .mulI c g w => Sys2Proof.Machine.execMulI c g w s
  | .mulhI c g w => Sys2Proof.Machine.execMulhI c g w s
  | .macI c g w => Sys2Proof.Machine.execMacI c g w s
  | .andW c g w => Sys2Proof.Machine.execAndW c g w s
  | .orW c g w => Sys2Proof.Machine.execOrW c g w s
  | .xorW c g w => Sys2Proof.Machine.execXorW c g w s
  | .shl c g w => Sys2Proof.Machine.execShl c g w s
  | .shr c g w => Sys2Proof.Machine.execShr c g w s
  | .rotl c g w => Sys2Proof.Machine.execRotl c g w s
  | .minI c g w => Sys2Proof.Machine.execMinI c g w s
  | .maxI c g w => Sys2Proof.Machine.execMaxI c g w s
  | .ones c g w => Sys2Proof.Machine.execOnes c g w s
  | .clz c g w => Sys2Proof.Machine.execClz c g w s
  | .ldk c g w => Sys2Proof.Machine.execLdk c g w s
  | .mov c g w => Sys2Proof.Machine.execMov c g w s
  | .pick c g w => Sys2Proof.Machine.execPick c g w s
  | .cmpI c g w => Sys2Proof.Machine.execCmpI c g w s
  | .getsys c g w => Sys2Proof.Machine.execGetsys c g w s
  | .plog c g w => Sys2Proof.Machine.execPlog c g w s
  | .addW c g w => Sys2Proof.Machine.execAddW c g w s
  | .mulW c g w => Sys2Proof.Machine.execMulW c g w s
  | .fmaW c g w => Sys2Proof.Machine.execFmaW c g w s
  | .minW c g w => Sys2Proof.Machine.execMinW c g w s
  | .maxW c g w => Sys2Proof.Machine.execMaxW c g w s
  | .cmpW c g w => Sys2Proof.Machine.execCmpW c g w s
  | .divW c g w => Sys2Proof.Machine.execDivW c g w s
  | .sqrtW c g w => Sys2Proof.Machine.execSqrtW c g w s
  | .fltI c g w => Sys2Proof.Machine.execFltI c g w s
  | .intW c g w => Sys2Proof.Machine.execIntW c g w s
  | .addB2 c g w => Sys2Proof.Machine.execAddB2 c g w s
  | .mulB2 c g w => Sys2Proof.Machine.execMulB2 c g w s
  | .fmaB2 c g w => Sys2Proof.Machine.execFmaB2 c g w s
  | .minB2 c g w => Sys2Proof.Machine.execMinB2 c g w s
  | .maxB2 c g w => Sys2Proof.Machine.execMaxB2 c g w s
  | .narB16 c g w => Sys2Proof.Machine.execNarB16 c g w s
  | .widB16 c g w => Sys2Proof.Machine.execWidB16 c g w s
  | .encF8 c g w => Sys2Proof.Machine.execEncF8 c g w s
  | .decN c g w => Sys2Proof.Machine.execDecN c g w s
  | .inv c g w => Sys2Proof.Machine.execInv c g w s
  | .invsqrt c g w => Sys2Proof.Machine.execInvsqrt c g w s
  | .pow2 c g w => Sys2Proof.Machine.execPow2 c g w s
  | .lgb c g w => Sys2Proof.Machine.execLgb c g w s
  | .sinT c g w => Sys2Proof.Machine.execSinT c g w s
  | .cosT c g w => Sys2Proof.Machine.execCosT c g w s
  | .lrd c g w => Sys2Proof.Machine.execLrd c g w s
  | .lwr c g w => Sys2Proof.Machine.execLwr c g w s
  | .ld c g w => Sys2Proof.Machine.execLd c g w s
  | .st c g w => Sys2Proof.Machine.execSt c g w s
  | .ldAcq c g w => Sys2Proof.Machine.execLdAcq c g w s
  | .stRel c g w => Sys2Proof.Machine.execStRel c g w s
  | .loadComplete c g fail => Sys2Proof.Machine.execLoadComplete c g fail s
  | .atAdd c g w => Sys2Proof.Machine.execAtAdd c g w s
  | .atAnd c g w => Sys2Proof.Machine.execAtAnd c g w s
  | .atOr c g w => Sys2Proof.Machine.execAtOr c g w s
  | .atXor c g w => Sys2Proof.Machine.execAtXor c g w s
  | .atMin c g w => Sys2Proof.Machine.execAtMin c g w s
  | .atMax c g w => Sys2Proof.Machine.execAtMax c g w s
  | .atAddw c g w => Sys2Proof.Machine.execAtAddw c g w s
  | .atSwap c g w => Sys2Proof.Machine.execAtSwap c g w s
  | .atCmpx c g w => Sys2Proof.Machine.execAtCmpx c g w s
  | .xlane c g w => Sys2Proof.Machine.execXlane c g w s
  | .poll c g w => Sys2Proof.Machine.execPoll c g w s
  | .bwait c g w => Sys2Proof.Machine.execBwait c g w s
  | .bmark c g w => Sys2Proof.Machine.execBmark c g w s
  | .barrierWatchdogExpiry c blk => Sys2Proof.Machine.execBarrierWatchdogExpiry c blk s
  | .fence c g w => Sys2Proof.Machine.execFence c g w s
  | .tissue c g w => Sys2Proof.Machine.execTissue c g w s
  | .twait c g w => Sys2Proof.Machine.execTwait c g w s
  | .msereq c g w => Sys2Proof.Machine.execMsereq c g w s
  | .dmareq c g w => Sys2Proof.Machine.execDmareq c g w s
  | .stip c g w => Sys2Proof.Machine.execStip c g w s
  | .setctx c g w => Sys2Proof.Machine.execSetctx c g w s
  | .jump c g w => Sys2Proof.Machine.execJump c g w s
  | .jumpr c g w => Sys2Proof.Machine.execJumpr c g w s
  | .call c g w => Sys2Proof.Machine.execCall c g w s
  | .cede c g w => Sys2Proof.Machine.execCede c g w s
  | .probe c g w => Sys2Proof.Machine.execProbe c g w s
  | .doneW c g w => Sys2Proof.Machine.execDoneW c g w s
  | .trapSoft c g w => Sys2Proof.Machine.execTrapSoft c g w s
  | .pstailWrite port slot st v => Sys2Proof.Machine.execPstailWrite port slot st v s
  | .workItemNop c st => Sys2Proof.Machine.execWorkItemNop c st s
  | .launch c st => Sys2Proof.Machine.execLaunch c st s
  | .workItemMark c st => Sys2Proof.Machine.execWorkItemMark c st s
  | .blockStart c st => Sys2Proof.Machine.execBlockStart c st s
  | .groupReplay port slot g => Sys2Proof.Machine.execGroupReplay port slot g s
  | .groupKill port slot g => Sys2Proof.Machine.execGroupKill port slot g s
  | .groupStep port slot g => Sys2Proof.Machine.execGroupStep port slot g s
  | .groupHalt port slot g => Sys2Proof.Machine.execGroupHalt port slot g s
  | .parkTimeout c g => Sys2Proof.Machine.execParkTimeout c g s
  | .icinv port slot v => Sys2Proof.Machine.execIcinv port slot v s
  | .dbgdataWrite port slot v => Sys2Proof.Machine.execDbgdataWrite port slot v s
  | .tileNop c e => Sys2Proof.Machine.execTileNop c e s
  | .mma c e => Sys2Proof.Machine.execMma c e s
  | .descriptorComplete c e => Sys2Proof.Machine.execDescriptorComplete c e s
  | .chunkMismatch c e m => Sys2Proof.Machine.execChunkMismatch c e m s
  | .recomputationComplete c e r => Sys2Proof.Machine.execRecomputationComplete c e r s
  | .engineIdle c e => Sys2Proof.Machine.execEngineIdle c e s
  | .blotterSampleComplete cl => Sys2Proof.Machine.execBlotterSampleComplete cl s
  | .mseRtailWrite port k r v => Sys2Proof.Machine.execMseRtailWrite port k r v s
  | .mseNop k r => Sys2Proof.Machine.execMseNop k r s
  | .mseAmax k r => Sys2Proof.Machine.execMseAmax k r s
  | .mseEncode k r => Sys2Proof.Machine.execMseEncode k r s
  | .mseWiden k r => Sys2Proof.Machine.execMseWiden k r s
  | .mseFill k r => Sys2Proof.Machine.execMseFill k r s
  | .mseCopy k r => Sys2Proof.Machine.execMseCopy k r s
  | .mseHist k r => Sys2Proof.Machine.execMseHist k r s
  | .openRange k r => Sys2Proof.Machine.execOpenRange k r s
  | .openWaitEnd k r => Sys2Proof.Machine.execOpenWaitEnd k r s
  | .clearRange k r => Sys2Proof.Machine.execClearRange k r s
  | .finishRange k r => Sys2Proof.Machine.execFinishRange k r s
  | .closeRange k r => Sys2Proof.Machine.execCloseRange k r s
  | .mseCommandComplete k r => Sys2Proof.Machine.execMseCommandComplete k r s
  | .notopenTimeout k => Sys2Proof.Machine.execNotopenTimeout k s
  | .dmaChtailWrite port n v => Sys2Proof.Machine.execDmaChtailWrite port n v s
  | .dmaNop n => Sys2Proof.Machine.execDmaNop n s
  | .dmaLinear n => Sys2Proof.Machine.execDmaLinear n s
  | .dmaTile n => Sys2Proof.Machine.execDmaTile n s
  | .dmaTileSkew n => Sys2Proof.Machine.execDmaTileSkew n s
  | .dmaTileUnskew n => Sys2Proof.Machine.execDmaTileUnskew n s
  | .dmaComplete n linkFail => Sys2Proof.Machine.execDmaComplete n linkFail s
  | .tlbInvalidate port v => Sys2Proof.Machine.execTlbInvalidate port v s
  | .tlbInvalidateDone => Sys2Proof.Machine.execTlbInvalidateDone s
  | .bar4Read port off n => Sys2Proof.Machine.execBar4Read port off n s
  | .bar4Write port off bytes => Sys2Proof.Machine.execBar4Write port off bytes s
  | .retirementComplete stack blk => Sys2Proof.Machine.execRetirementComplete stack blk s
  | .patrolScrub stack unit found => Sys2Proof.Machine.execPatrolScrub stack unit found s
  | .patrolPassComplete => Sys2Proof.Machine.execPatrolPassComplete s
  | .hbmIdleTimeout => Sys2Proof.Machine.execHbmIdleTimeout s
  | .sramScrub found => Sys2Proof.Machine.execSramScrub found s
  | .linkEnable port l v => Sys2Proof.Machine.execLinkEnable port l v s
  | .linkDisable port l v => Sys2Proof.Machine.execLinkDisable port l v s
  | .retrain port l v => Sys2Proof.Machine.execRetrain port l v s
  | .capabilityBlock l blk => Sys2Proof.Machine.execCapabilityBlock l blk s
  | .linkUp l margin => Sys2Proof.Machine.execLinkUp l margin s
  | .linkTrainingFail l => Sys2Proof.Machine.execLinkTrainingFail l s
  | .trainingRetryWaitEnd l => Sys2Proof.Machine.execTrainingRetryWaitEnd l s
  | .laneDegraded l lane partnerSpare => Sys2Proof.Machine.execLaneDegraded l lane partnerSpare s
  | .dataFlit l flit => Sys2Proof.Machine.execDataFlit l flit s
  | .idleFlit l flit => Sys2Proof.Machine.execIdleFlit l flit s
  | .nak l flit => Sys2Proof.Machine.execNak l flit s
  | .replayTimeout l => Sys2Proof.Machine.execReplayTimeout l s
  | .transitForward l p => Sys2Proof.Machine.execTransitForward l p s
  | .pktWrite l p => Sys2Proof.Machine.execPktWrite l p s
  | .pktRead l p => Sys2Proof.Machine.execPktRead l p s
  | .pktReadResp l p => Sys2Proof.Machine.execPktReadResp l p s
  | .readTimeout id => Sys2Proof.Machine.execReadTimeout id s
  | .lostNotice l p => Sys2Proof.Machine.execLostNotice l p s
  | .pktContrib l p => Sys2Proof.Machine.execPktContrib l p s
  | .sealClean l p => Sys2Proof.Machine.execSealClean l p s
  | .sealUp l p => Sys2Proof.Machine.execSealUp l p s
  | .sealDown l p => Sys2Proof.Machine.execSealDown l p s
  | .pktRetract l p => Sys2Proof.Machine.execPktRetract l p s
  | .pktResend l p => Sys2Proof.Machine.execPktResend l p s
  | .barrierArrive l p => Sys2Proof.Machine.execBarrierArrive l p s
  | .barrierRelease l p => Sys2Proof.Machine.execBarrierRelease l p s
  | .gathered l p => Sys2Proof.Machine.execGathered l p s
  | .replaying l p => Sys2Proof.Machine.execReplaying l p s
  | .haltstep l p => Sys2Proof.Machine.execHaltstep l p s
  | .linkStateNotice l p => Sys2Proof.Machine.execLinkStateNotice l p s
  | .ndomirMessage l p => Sys2Proof.Machine.execNdomirMessage l p s
  | .exclusionExpiry node l => Sys2Proof.Machine.execExclusionExpiry node l s
  | .counterIncrement die cnt => Sys2Proof.Machine.execCounterIncrement die cnt s
  | .checkpointWriteComplete ok => Sys2Proof.Machine.execCheckpointWriteComplete ok s
  | .sealTimeout => Sys2Proof.Machine.execSealTimeout s
  | .hmTimeout => Sys2Proof.Machine.execHmTimeout s
  | .hmReopenWaitEnd bucket => Sys2Proof.Machine.execHmReopenWaitEnd bucket s
  | .replayingTimer => Sys2Proof.Machine.execReplayingTimer s
  | .stepStatusTimer => Sys2Proof.Machine.execStepStatusTimer s
  | .drtailWrite port v hw => Sys2Proof.Machine.execDrtailWrite port v hw s
  | .seqLoad src => Sys2Proof.Machine.execSeqLoad src s
  | .seqStart src => Sys2Proof.Machine.execSeqStart src s
  | .seqResume src => Sys2Proof.Machine.execSeqResume src s
  | .seqPause src => Sys2Proof.Machine.execSeqPause src s
  | .seqContinue src => Sys2Proof.Machine.execSeqContinue src s
  | .seqHalt src => Sys2Proof.Machine.execSeqHalt src s
  | .seqRetry src => Sys2Proof.Machine.execSeqRetry src s
  | .seqCheckpoint src => Sys2Proof.Machine.execSeqCheckpoint src s
  | .seqUnload src => Sys2Proof.Machine.execSeqUnload src s
  | .seqHmput src => Sys2Proof.Machine.execSeqHmput src s
  | .iftTestStart slot => Sys2Proof.Machine.execIftTestStart slot s
  | .iftTestComplete slot r => Sys2Proof.Machine.execIftTestComplete slot r s
  | .preemptTimeout c => Sys2Proof.Machine.execPreemptTimeout c s
  | .contextMove c => Sys2Proof.Machine.execContextMove c s
  | .contextMoveComplete c => Sys2Proof.Machine.execContextMoveComplete c s
  | .watchdogStall u => Sys2Proof.Machine.execWatchdogStall u s
  | .inputOvercurrent => Sys2Proof.Machine.execInputOvercurrent s
  | .erheadWrite port v => Sys2Proof.Machine.execErheadWrite port v s
  | .governorPeriod m => Sys2Proof.Machine.execGovernorPeriod m s
  | .rateMonitorReport die rates => Sys2Proof.Machine.execRateMonitorReport die rates s
  | .ndomirSensorPoll x => Sys2Proof.Machine.execNdomirSensorPoll x s
  | .throttleNFall => Sys2Proof.Machine.execThrottleNFall s
  | .throttleQualify => Sys2Proof.Machine.execThrottleQualify s
  | .throttleNRise => Sys2Proof.Machine.execThrottleNRise s
  | .throttleHoldEnd => Sys2Proof.Machine.execThrottleHoldEnd s
  | .throttleSustained => Sys2Proof.Machine.execThrottleSustained s
  | .tsoffWrite port v => Sys2Proof.Machine.execTsoffWrite port v s
  | .queueEnable port tgt q v => Sys2Proof.Machine.execQueueEnable port tgt q v s
  | .queueDisable port tgt q => Sys2Proof.Machine.execQueueDisable port tgt q s
  | .sqDoorbell port q v hw => Sys2Proof.Machine.execSqDoorbell port q v hw s
  | .cqDoorbell port q v => Sys2Proof.Machine.execCqDoorbell port q v s
  | .descriptorFetch port q fail => Sys2Proof.Machine.execDescriptorFetch port q fail s
  | .queueNop port q idx => Sys2Proof.Machine.execQueueNop port q idx s
  | .queueMove port q idx fail => Sys2Proof.Machine.execQueueMove port q idx fail s
  | .queueMse port q idx => Sys2Proof.Machine.execQueueMse port q idx s
  | .queueMark port q idx fail => Sys2Proof.Machine.execQueueMark port q idx fail s
  | .queueDescriptorComplete port q idx => Sys2Proof.Machine.execQueueDescriptorComplete port q idx s
  | .statusBlockWrite port q => Sys2Proof.Machine.execStatusBlockWrite port q s
  | .heartbeat port tgt => Sys2Proof.Machine.execHeartbeat port tgt s
  | .heartbeatExpiry => Sys2Proof.Machine.execHeartbeatExpiry s
  | .claim port tgt => Sys2Proof.Machine.execClaim port tgt s
  | .failover port v => Sys2Proof.Machine.execFailover port v s
  | .positionFrame frame => Sys2Proof.Machine.execPositionFrame frame s
  | .posInLowTimeout => Sys2Proof.Machine.execPosInLowTimeout s
  | .positionFrameSend => Sys2Proof.Machine.execPositionFrameSend s
  | .ledgerHourly => Sys2Proof.Machine.execLedgerHourly s
  | .eventRetryTimeout => Sys2Proof.Machine.execEventRetryTimeout s
  | .nonceExpiry => Sys2Proof.Machine.execNonceExpiry s
  | .entdaa da => Sys2Proof.Machine.execEntdaa da s
  | .rstdaa => Sys2Proof.Machine.execRstdaa s
  | .setnewda da => Sys2Proof.Machine.execSetnewda da s
  | .enec ev => Sys2Proof.Machine.execEnec ev s
  | .disec ev => Sys2Proof.Machine.execDisec ev s
  | .getpid => Sys2Proof.Machine.execGetpid s
  | .getbcr => Sys2Proof.Machine.execGetbcr s
  | .getdcr => Sys2Proof.Machine.execGetdcr s
  | .getstatus => Sys2Proof.Machine.execGetstatus s
  | .getmwl => Sys2Proof.Machine.execGetmwl s
  | .setmwl v => Sys2Proof.Machine.execSetmwl v s
  | .getmrl => Sys2Proof.Machine.execGetmrl s
  | .setmrl v => Sys2Proof.Machine.execSetmrl v s
  | .setEndpointId md eid => Sys2Proof.Machine.execSetEndpointId md eid s
  | .getEndpointId md => Sys2Proof.Machine.execGetEndpointId md s
  | .getEndpointUuid md => Sys2Proof.Machine.execGetEndpointUuid md s
  | .getMctpVersionSupport md ty => Sys2Proof.Machine.execGetMctpVersionSupport md ty s
  | .getMessageTypeSupport md => Sys2Proof.Machine.execGetMessageTypeSupport md s
  | .getTid md => Sys2Proof.Machine.execGetTid md s
  | .setTid md tid => Sys2Proof.Machine.execSetTid md tid s
  | .getPldmVersion md ty => Sys2Proof.Machine.execGetPldmVersion md ty s
  | .getPldmTypes md => Sys2Proof.Machine.execGetPldmTypes md s
  | .getPldmCommands md ty => Sys2Proof.Machine.execGetPldmCommands md ty s
  | .setEventReceiver md recv => Sys2Proof.Machine.execSetEventReceiver md recv s
  | .pollForPlatformEventMessage md => Sys2Proof.Machine.execPollForPlatformEventMessage md s
  | .getSensorReading md id => Sys2Proof.Machine.execGetSensorReading md id s
  | .getStateSensorReadings md id => Sys2Proof.Machine.execGetStateSensorReadings md id s
  | .setNumericEffecterValue md id v => Sys2Proof.Machine.execSetNumericEffecterValue md id v s
  | .getNumericEffecterValue md id => Sys2Proof.Machine.execGetNumericEffecterValue md id s
  | .getPdrRepositoryInfo md => Sys2Proof.Machine.execGetPdrRepositoryInfo md s
  | .getPdr md h => Sys2Proof.Machine.execGetPdr md h s
  | .queryDeviceIdentifiers md => Sys2Proof.Machine.execQueryDeviceIdentifiers md s
  | .getFirmwareParameters md => Sys2Proof.Machine.execGetFirmwareParameters md s
  | .requestUpdate md => Sys2Proof.Machine.execRequestUpdate md s
  | .passComponentTable md comps => Sys2Proof.Machine.execPassComponentTable md comps s
  | .updateComponent md comp => Sys2Proof.Machine.execUpdateComponent md comp s
  | .firmwareData md img => Sys2Proof.Machine.execFirmwareData md img s
  | .activateFirmware md => Sys2Proof.Machine.execActivateFirmware md s
  | .getStatus md => Sys2Proof.Machine.execGetStatus md s
  | .cancelUpdateComponent md => Sys2Proof.Machine.execCancelUpdateComponent md s
  | .cancelUpdate md => Sys2Proof.Machine.execCancelUpdate md s
  | .spdmGetVersion md => Sys2Proof.Machine.execSpdmGetVersion md s
  | .getCapabilities md => Sys2Proof.Machine.execGetCapabilities md s
  | .negotiateAlgorithms md => Sys2Proof.Machine.execNegotiateAlgorithms md s
  | .getDigests md => Sys2Proof.Machine.execGetDigests md s
  | .getCertificate md slot off n => Sys2Proof.Machine.execGetCertificate md slot off n s
  | .challenge md slot idx nonce => Sys2Proof.Machine.execChallenge md slot idx nonce s
  | .getMeasurements md slot idx nonce => Sys2Proof.Machine.execGetMeasurements md slot idx nonce s
  | .getNonce md => Sys2Proof.Machine.execGetNonce md s
  | .getLedger md piece => Sys2Proof.Machine.execGetLedger md piece s
  | .takeOwnership rq key => Sys2Proof.Machine.execTakeOwnership rq key s
  | .transferOwnership rq key => Sys2Proof.Machine.execTransferOwnership rq key s
  | .releaseOwnership rq => Sys2Proof.Machine.execReleaseOwnership rq s
  | .setTenantKeys rq keys => Sys2Proof.Machine.execSetTenantKeys rq keys s
  | .tenantWipe rq => Sys2Proof.Machine.execTenantWipe rq s
  | .enterRefurbishment rq => Sys2Proof.Machine.execEnterRefurbishment rq s
  | .wipeComplete failed sramClean => Sys2Proof.Machine.execWipeComplete failed sramClean s
  | .refurbishmentComplete r => Sys2Proof.Machine.execRefurbishmentComplete r s
  | .refclkLoss port => Sys2Proof.Machine.execRefclkLoss port s
  | .refclkReturn port => Sys2Proof.Machine.execRefclkReturn port s
  | .portLinkUp port width speed => Sys2Proof.Machine.execPortLinkUp port width speed s
  | .portLinkDown port => Sys2Proof.Machine.execPortLinkDown port s
  | .linkPartnerDisabled l => Sys2Proof.Machine.execLinkPartnerDisabled l s
  | .platformEventAcknowledged => Sys2Proof.Machine.execPlatformEventAcknowledged s
  | .tckEdge rising tms tdi => Sys2Proof.Machine.execTckEdge rising tms tdi s
  | .trstNFall => Sys2Proof.Machine.execTrstNFall s

end Sys2Proof.Machine
end

