-- ==== Sys2Proof/Machine/Shown.lean ====
section
/-! DEFINITION. What a register shows to a reader: the registers whose fields SEQ, a core or a die computes when they are
read (CORE.GSTAT, CORE.MXSTAT, CORE.DBGDATA, NUM.FLAGSUM) from the state that has its home elsewhere, and every other one as it
stands; and what a read of BAR0 or BAR2 returns (R381, R386). -/

namespace Sys2Proof.Machine

def GState.code : GState → Nat
  | .free => 0 | .running => 1 | .blocked => 2 | .parked => 3 | .halted => 4 | .yielded => 5

/-- CORE.GSTAT of a group slot (Table 7.11). -/
def gstat : Option Group → Word
  | none => 0
  | some x => BitVec.ofNat 32 (x.state.code * 2 ^ 29
      + (match x.stream with | .f => 0 | .b => 1 | .u => 2) * 2 ^ 27
      + b2n x.partly * 2 ^ 26
      + (match x.atBarrier with | some n => 2 ^ 25 + n % 16 * 2 ^ 21 | none => 0)
      + x.cause.toNat * 2 ^ 8)

/-- An engine executes a descriptor. -/
def Engine.busy (e : Engine) : Bool := e.queue.any (·.taken)

/-- CORE.MXSTAT of a logical core (R101). -/
def State.mxstat (s : State) (c : Nat) : Word :=
  let f := s.eng c .f
  let b := s.eng c .b
  BitVec.ofNat 32 (b2n f.busy + 2 * b2n b.busy + 4 * b2n f.up + 8 * b2n b.up)

/-- The stack entry at a place from the oldest; none above the depth where nothing has written it. -/
def Group.entry (x : Group) (e : Nat) : Option StackEntry :=
  if e < x.stack.length then x.stack.reverse[e]? else Sparse.find x.above e

/-- The item of a group that CORE.DBGSEL selects (Table 7.12); an index that names nothing shows 0. -/
def Group.item (x : Group) (sel : Word) : Word :=
  let lane := F.CORE_DBGSEL_LANE.of sel
  let i := F.CORE_DBGSEL_INDEX.of sel
  let lo (m : BitVec 64) : Word := m.setWidth 32
  let hi (m : BitVec 64) : Word := (m >>> 32).setWidth 32
  match F.CORE_DBGSEL_CLASS.of sel with
  | 0 => if i < x.nregs then x.reg lane i else 0
  | 1 => BitVec.ofNat 32 ((Sparse.get 0 x.preds lane).toNat / 2 * 2 + 1)
  | 2 =>
    if i = 0 then x.pc.setWidth 32
    else if i = 1 then (x.pc >>> 32).setWidth 32
    else if i = 2 then lo x.active
    else if i = 3 then hi x.active
    else if i = 4 then BitVec.ofNat 32 x.stack.length
    else if 8 ≤ i ∧ i < 104 then
      match x.entry ((i - 8) / 3) with
      | none => 0
      | some e =>
        if (i - 8) % 3 = 0 then e.pc.setWidth 32
        else if (i - 8) % 3 = 1 then BitVec.ofNat 32 ((e.pc >>> 32).toNat + (if e.kind = .pending then 2 ^ 31 else 0))
        else lo e.mask
    else match x.entry (i - 104) with
      | some e => if 104 ≤ i then hi e.mask else 0
      | none => 0
  | _ =>
    if i = 0 then x.ctxStream.setWidth 32
    else if i = 1 then x.ctxTensor
    else if i = 2 then x.ctxDraw
    else if i = 3 then x.ctxCoarse
    else if i = 4 then BitVec.ofNat 32 x.outstanding
    else 0

/-- CORE.DBGDATA of a slot: all ones unless the selected group is parked or halted. -/
def State.dbgdata (s : State) (slot : Nat) : Word :=
  let sel := s.reg .CORE_DBGSEL slot 0
  match (s.logicalOf slot).bind fun c => s.group c (F.CORE_DBGSEL_GROUP.of sel) with
  | some x => if x.isParked || x.isHalted then x.item sel else 0xFFFFFFFF
  | none => 0xFFFFFFFF

/-- A block is not there yet, and its registers read their reset values (R443). -/
def State.absent (s : State) (b : BlockId) : Bool :=
  match b with
  | .mem | .mse | .dma => decide (s.pwr.step < 7)
  | .core | .num => decide (s.pwr.step < 8)
  | _ => false

/-- What the register holds for a reader, its block being there. -/
def State.present (s : State) (r : Reg) (i j : Nat) : Word :=
  match r with
  | .NUM_FLAGSUM => s.flagSum
  | .CORE_GSTAT => (match s.logicalOf i with | some c => gstat (s.group c j) | none => s.reg r i j)
  | .CORE_DBGDATA => s.dbgdata i
  | .CORE_MXSTAT => (match s.logicalOf i with | some c => s.mxstat c | none => s.reg r i j)
  | _ => s.reg r i j

/-- What a read of the register shows. -/
def State.shown (s : State) (r : Reg) (i j : Nat) : Word :=
  match BlockId.ofOffset (r.addr i j) with
  | some b => if s.absent b then r.resetAt i j else s.present r i j
  | none => s.present r i j

/-- A byte of BAR0 as a read returns it: of the enclosing 32-bit register, or zero at a RSVD offset (R381). -/
def State.bar0Byte (s : State) (off : Nat) : Byte :=
  match Reg.at_ (off - off % 4) with
  | some (r, i, j) => (s.shown r i j >>> (8 * (off % 4))).setWidth 8
  | none => 0

/-- The data of a read of `n` bytes of BAR0. -/
def State.bar0Read (s : State) (off n : Nat) : List Byte := (List.range n).map fun k => s.bar0Byte (off + k)

/-- The data of a 32-bit read of BAR2 of a port: the doorbells read back what was last accepted (R386). -/
def State.bar2Read (s : State) (p off : Nat) : Word :=
  let x := s.pair p (off / 0x1000)
  if off % 0x1000 = 0 then x.sqDb else if off % 0x1000 = 0x40 then x.cqDb else 0

end Sys2Proof.Machine
end

