-- ==== Sys2Proof/Safety.lean ====
section
/-! DEFINITION. The terms in which claims are made: what it takes for a command to have its own effect, what that effect
leaves alone, and the invariant that every step keeps. -/

namespace Sys2Proof.Machine

/-! ## Outcomes -/

/-- The command answers a next state of which `P` holds. -/
def Gives (i : Instr) (s : State) (P : State → Prop) : Prop := ∃ t, exec i s = .next t ∧ P t

/-- What memory accesses, packets, events and records leave alone. -/
def State.units (s : State) : List Core × List Mse × List Dma × List (List BlotSample) := (s.cores, s.mses, s.dmas, s.blot)

/-! ## Thread groups -/

/-- The group `x` in slot `g` of logical core `c` reaches the instruction word of an opcode: the core runs, the group is
running, nothing halts it, its PC is aligned, it is granted the issue slot, and the fetch succeeds and leaves `s1`, in which the
group is still there (R204, R209, R211, R228, R238). -/
structure Reaches (s s1 : State) (c g opc : Nat) (w : IFields) (x : Group) : Prop where
  core : c < 64
  slot : g < 64
  held : s.group c g = some x
  runs : s.coreRuns c = true
  running : x.state = .running
  alive : x.killed = false
  noHalt : x.stepping = true ∨ (s.haltBit c g = false ∧ (s.debugMode c = false ∨ s.breakpoint c x.pc = false))
  aligned : x.pc.toNat % 8 = 0
  fetched : ∃ s0, s.grant c g opc x = some s0 ∧ s0.fetch c x.pc (w.word opc) = (s1, none)
  still : s1.group c g = some x

/-- The instruction word that the group reaches is legal for its threads' register count (R214 to R216), and no word of its source
registers is in error (R323). -/
structure Issuing (s s1 : State) (c g opc : Nat) (w : IFields) (f : Form) (x : Group) : Prop extends Reaches s s1 c g opc w x where
  legal : f.legal x.nregs w = true
  sources : s1.meetWords c (x.regSpans g w f) = (s1, true, false)

/-- The word executes, and the unit on which it runs is sound: no word of the core's storage holds an error, and no lane of its
vector pipes is faulty (R323, R337). What a faulty one does is stated beside. -/
structure Issues (s s1 : State) (c g opc : Nat) (w : IFields) (f : Form) (x : Group) : Prop
    extends Issuing s s1 c g opc w f x where
  words : s1.saf.sram = []
  lanes : s1.lanesBad c = []

/-- The lanes in which the instruction executes: active lanes whose guard holds (R215). -/
def Group.lanes (x : Group) (w : IFields) : List Nat := lanesOf (x.exec w)

/-- The group as it goes on at `pc` (R226): lanes reconverge where they meet, and a step or a HALT stops it (R238). -/
def Group.at_ (x : Group) (pc : BitVec 48) (halt : Bool) : Group := (Group.settle { x with pc := pc, partly := false }).ended halt

/-- Nothing but group `g` of core `c`, and the sticky flags of that core's vector engine where `fl` are raised, differs
between `s1` and `t`: no byte of memory, no register of the device, no other group, engine or queue. -/
structure OnlyGroup (s1 t : State) (c g : Nat) (fl : Flags) : Prop where
  rest : t = { s1 with cores := t.cores, regs := t.regs }
  groups : ∀ c' g', (c' ≠ c ∨ g' ≠ g) → t.group c' g' = s1.group c' g'
  engines : ∀ c', t.core c' = { s1.core c' with groups := (t.core c').groups }
  sticky : t.reg .NUM_CFLAGS c 0 = s1.reg .NUM_CFLAGS c 0 ||| BitVec.ofNat 32 (fl.toNat * 256)
  others : ∀ r i j, Reg.addr r i j ≠ Reg.addr .NUM_CFLAGS c 0 → t.reg r i j = s1.reg r i j

/-- The command answers a state in which its own effect is `P`; where the group's running path has ended with it at one that is
blocked at a barrier, the block's barriers are checked behind it (R226, R230). -/
def Advances (i : Instr) (s : State) (c g : Nat) (P : State → Prop) : Prop :=
  ∃ u, P u ∧ exec i s = .next (keepFixed s (u.pathEnds c g))

/-- OR of the flags that the executing lanes raise. -/
def orFlags (lanes : List Nat) (f : Nat → LaneRes) : Flags := lanes.foldl (fun a l => a ||| (f l).2) 0

/-- The effect of an instruction with a register result (R217): each executing lane's register `d` receives its result, every
other register and every predicate keeps its value, and the group goes on with the next instruction. -/
def LaneEffect (s1 t : State) (c g : Nat) (w : IFields) (x : Group) (res : Nat → LaneRes) : Prop :=
  OnlyGroup s1 t c g (orFlags (x.lanes w) res) ∧
  ∃ y, t.group c g = some y ∧ y = { x.at_ (x.pc + 8) (s1.haltBit c g) with regs := y.regs } ∧
    ∀ l < 64, ∀ n < 256, y.reg l n = if l ∈ x.lanes w ∧ n = w.d.toNat then (res l).1 else x.reg l n

/-- The effect of an instruction with a predicate result: each executing lane's predicate `d` receives its result, p0 stays
true, and every other predicate and every register keeps its value (R215, R217). -/
def PredEffect (s1 t : State) (c g : Nat) (w : IFields) (x : Group) (res : Nat → Bool × Flags) : Prop :=
  OnlyGroup s1 t c g ((x.lanes w).foldl (fun a l => a ||| (res l).2) 0) ∧
  ∃ y, t.group c g = some y ∧ y = { x.at_ (x.pc + 8) (s1.haltBit c g) with preds := y.preds } ∧
    ∀ l < 64, ∀ k < 8, y.pred l k = if l ∈ x.lanes w ∧ k = w.d.toNat ∧ k ≠ 0 then (res l).1 else x.pred l k

/-- One instruction of classes P and S with a register result: constructor, opcode, form, and what a lane receives. -/
structure LaneOp where
  cmd : Nat → Nat → IFields → Instr
  opcode : Nat
  form : Form
  res : State → IFields → Group → Nat → LaneRes

/-- One instruction with a predicate result. -/
structure PredOp where
  cmd : Nat → Nat → IFields → Instr
  opcode : Nat
  form : Form
  res : IFields → Group → Nat → Bool × Flags

/-- A result without flags, from a number, modulo 2^32. -/
def plainNat (n : Nat) : LaneRes := (BitVec.ofNat 32 n, 0)
def plainInt (n : Int) : LaneRes := (BitVec.ofInt 32 n, 0)

/-- d, a and b are registers; MOD takes the values of a bit set. -/
def dab (mods : Nat) : Form := { d := .reg, a := .reg, b := .reg, mods := mods }
def dabc (mods : Nat) : Form := { d := .reg, a := .reg, b := .reg, c := .reg, mods := mods }
def da (mods : Nat) : Form := { d := .reg, a := .reg, mods := mods }

/-- The integer and move instructions of Table 7.5, in the numbers that the table gives. -/
def intOps : List LaneOp := [
  ⟨.addI, 0x01, dab 1, fun _ w x l => plainNat ((x.av w l).toNat + (x.bv w l).toNat)⟩,
  ⟨.addkI, 0x02, { d := .reg, a := .reg, imm := true }, fun _ w x l => plainInt ((x.av w l).toNat + w.imm.toInt)⟩,
  ⟨.subI, 0x03, dab 1, fun _ w x l => plainInt ((x.av w l).toNat - (x.bv w l).toNat)⟩,
  ⟨.mulI, 0x04, dab 1, fun _ w x l => plainNat ((x.av w l).toNat * (x.bv w l).toNat)⟩,
  ⟨.mulhI, 0x05, dab 3, fun _ w x l =>
    if w.md = 1 then plainInt ((x.av w l).toInt * (x.bv w l).toInt / 2 ^ 32)
    else plainNat ((x.av w l).toNat * (x.bv w l).toNat / 2 ^ 32)⟩,
  ⟨.macI, 0x06, dabc 1, fun _ w x l => plainNat ((x.av w l).toNat * (x.bv w l).toNat + (x.cv w l).toNat)⟩,
  ⟨.andW, 0x07, dab 1, fun _ w x l => plainNat ((x.av w l).toNat &&& (x.bv w l).toNat)⟩,
  ⟨.orW, 0x08, dab 1, fun _ w x l => plainNat ((x.av w l).toNat ||| (x.bv w l).toNat)⟩,
  ⟨.xorW, 0x09, dab 1, fun _ w x l => plainNat ((x.av w l).toNat ^^^ (x.bv w l).toNat)⟩,
  ⟨.shl, 0x0A, dab 1, fun _ w x l => plainNat ((x.av w l).toNat * 2 ^ ((x.bv w l).toNat % 32))⟩,
  ⟨.shr, 0x0B, dab 3, fun _ w x l =>
    if w.md = 1 then plainInt ((x.av w l).toInt / 2 ^ ((x.bv w l).toNat % 32))
    else plainNat ((x.av w l).toNat / 2 ^ ((x.bv w l).toNat % 32))⟩,
  ⟨.rotl, 0x0C, dab 1, fun _ w x l =>
    plainNat ((x.av w l).toNat * 2 ^ ((x.bv w l).toNat % 32) % 2 ^ 32 + (x.av w l).toNat / 2 ^ (32 - (x.bv w l).toNat % 32))⟩,
  ⟨.minI, 0x0D, dab 3, fun _ w x l =>
    if w.md = 1 then plainInt (min (x.av w l).toInt (x.bv w l).toInt) else plainNat (min (x.av w l).toNat (x.bv w l).toNat)⟩,
  ⟨.maxI, 0x0E, dab 3, fun _ w x l =>
    if w.md = 1 then plainInt (max (x.av w l).toInt (x.bv w l).toInt) else plainNat (max (x.av w l).toNat (x.bv w l).toNat)⟩,
  ⟨.ones, 0x0F, da 1, fun _ w x l => plainNat ((List.range 32).countP fun i => (x.av w l).getLsbD i)⟩,
  ⟨.clz, 0x10, da 1, fun _ w x l => plainNat (if x.av w l = 0 then 32 else 31 - Nat.log2 (x.av w l).toNat)⟩,
  ⟨.ldk, 0x11, { d := .reg, b := .bits, c := .bits, imm := true }, fun _ w _ _ =>
    plainNat (w.b.toNat * 2 ^ 24 + w.c.toNat * 2 ^ 16 + w.imm.toNat)⟩,
  ⟨.mov, 0x12, da 1, fun _ w x l => (x.av w l, 0)⟩,
  ⟨.pick, 0x13, { dab 1 with c := .pred }, fun _ w x l => (if x.pred l w.c.toNat then x.av w l else x.bv w l, 0)⟩,
  ⟨.xlane, 0x70, dab 0xF, fun _ w x l =>
    let b : Int := (x.bv w l).toNat
    let t : Int := if w.md = 0 then b % 64 else if w.md = 1 then l - b else if w.md = 2 then l + b
      else ((l ^^^ ((x.bv w l).toNat % 64) : Nat) : Int)
    (if 0 ≤ t ∧ t < 64 ∧ x.active.getLsbD t.toNat then x.av w t.toNat else x.av w l, 0)⟩]

/-- Two numbers compared as MOD[2:0] of cmp.i and cmp.w says. -/
def ordered (k : Nat) (a b : Int) : Bool :=
  if k = 0 then decide (a = b) else if k = 1 then decide (a ≠ b) else if k = 2 then decide (a < b)
  else if k = 3 then decide (a ≤ b) else if k = 4 then decide (b < a) else decide (b ≤ a)

/-- The integer comparison and the predicate logic of Table 7.5. -/
def predOps : List PredOp := [
  ⟨.cmpI, 0x14, { d := .pred, a := .reg, b := .reg, mods := 0x3F3F }, fun w x l =>
    (if w.md.toNat < 8 then ordered w.md.toNat (x.av w l).toInt (x.bv w l).toInt
     else ordered (w.md.toNat - 8) (x.av w l).toNat (x.bv w l).toNat, 0)⟩,
  ⟨.plog, 0x16, { d := .pred, a := .pred, b := .pred, mods := 0xF }, fun w x l =>
    let p := x.pred l w.a.toNat
    let q := x.pred l w.b.toNat
    (if w.md = 0 then p && q else if w.md = 1 then p || q else if w.md = 2 then p != q else p && !q, 0)⟩]

/-- The W32 result of an exact value and flags, rounded once by MOD[1:0] (R218). -/
def roundedW (w : IFields) (r : Num × Flags) : LaneRes := ((toW32 (IFieldsRnd w) r.1).1, r.2 ||| (toW32 (IFieldsRnd w) r.1).2)

/-- The same for a half of a packed register (R218). -/
def roundedH (w : IFields) (r : Num × Flags) : BitVec 16 × Flags :=
  ((toB16 (IFieldsRnd w) r.1).1, r.2 ||| (toB16 (IFieldsRnd w) r.1).2)

/-- A W32 instruction: op over the modified a, b and c. -/
def ofW (op : Num → Num → Num → Num × Flags) (w : IFields) (x : Group) (l : Nat) : LaneRes :=
  roundedW w (op (w32Val (modifyW w (x.av w l))) (w32Val (x.bv w l)) (w32Val (x.cv w l)))

/-- A packed B16 instruction: each half on its own. -/
def ofH (op : Num → Num → Num → Num × Flags) (w : IFields) (x : Group) (l : Nat) : LaneRes :=
  let lo := roundedH w (op (b16Val (modifyH w ((x.av w l).setWidth 16))) (b16Val ((x.bv w l).setWidth 16))
    (b16Val ((x.cv w l).setWidth 16)))
  let hi := roundedH w (op (b16Val (modifyH w ((x.av w l >>> 16).setWidth 16))) (b16Val ((x.bv w l >>> 16).setWidth 16))
    (b16Val ((x.cv w l >>> 16).setWidth 16)))
  (hi.1 ++ lo.1, lo.2 ||| hi.2)

/-- A special function of the modified a, with the free code of that function and operand (log entry 8). -/
def ofSpecial (op : Word → Word → Word × Flags) (opc : Nat) (w : IFields) (x : Group) (l : Nat) : LaneRes :=
  op (modifyW w (x.av w l)) (Config.special opc (modifyW w (x.av w l)))

/-- The W32, packed B16, conversion, special-function and stipple instructions of Table 7.5. -/
def floatOps : List LaneOp := [
  ⟨.addW, 0x20, dab 0x5555, fun _ => ofW fun a b _ => a.add b⟩,
  ⟨.mulW, 0x21, dab 0x5555, fun _ => ofW fun a b _ => a.mul b⟩,
  ⟨.fmaW, 0x22, dabc 0x5555, fun _ => ofW fun a b c => a.fma b c⟩,
  ⟨.minW, 0x23, dab 0x5555, fun _ => ofW fun a b _ => Num.minimum a b⟩,
  ⟨.maxW, 0x24, dab 0x5555, fun _ => ofW fun a b _ => Num.maximum a b⟩,
  ⟨.divW, 0x26, dab 0x5555, fun _ => ofW fun a b _ => a.div b⟩,
  ⟨.sqrtW, 0x27, da 0x5555, fun _ => ofW fun a _ _ => a.sqrt⟩,
  ⟨.fltI, 0x28, da 3, fun _ w x l =>
    let v : Int := if w.md = 1 then (x.av w l).toInt else (x.av w l).toNat
    toW32 .rne (.fin (decide (v < 0)) v.natAbs 0)⟩,
  ⟨.intW, 0x29, da 0x3333, fun _ w x l => truncInt (w.md.getLsbD 0) (w32Val (modifyW w (x.av w l)))⟩,
  ⟨.addB2, 0x30, dab 0x5555, fun _ => ofH fun a b _ => a.add b⟩,
  ⟨.mulB2, 0x31, dab 0x5555, fun _ => ofH fun a b _ => a.mul b⟩,
  ⟨.fmaB2, 0x32, dabc 0x5555, fun _ => ofH fun a b c => a.fma b c⟩,
  ⟨.minB2, 0x33, dab 0x5555, fun _ => ofH fun a b _ => Num.minimum a b⟩,
  ⟨.maxB2, 0x34, dab 0x5555, fun _ => ofH fun a b _ => Num.maximum a b⟩,
  ⟨.narB16, 0x38, dabc 0xFF, fun s w x l =>
    let r := narrow (s.convRnd x w l) (x.av w l)
    (if w.md.getLsbD 2 then r.1 ++ (x.bv w l).setWidth 16 else r.1.setWidth 32, r.2)⟩,
  ⟨.widB16, 0x39, da 0x11, fun _ w x l =>
    widen (if w.md.getLsbD 2 then (x.av w l >>> 16).setWidth 16 else (x.av w l).setWidth 16)⟩,
  ⟨.inv, 0x40, da 0x1111, fun _ => ofSpecial specialInv 0x40⟩,
  ⟨.invsqrt, 0x41, da 0x1111, fun _ => ofSpecial specialInvsqrt 0x41⟩,
  ⟨.pow2, 0x42, da 0x1111, fun _ => ofSpecial specialPow2 0x42⟩,
  ⟨.lgb, 0x43, da 0x1111, fun _ => ofSpecial specialLgb 0x43⟩,
  ⟨.sinT, 0x44, da 0x1111, fun _ => ofSpecial (specialTrig false) 0x44⟩,
  ⟨.cosT, 0x45, da 0x1111, fun _ => ofSpecial (specialTrig true) 0x45⟩,
  ⟨.stip, 0x88, dab 0xF, fun s w x l =>
    ((s.stipple x.ctxDraw (x.av w l) (x.ctxStream ++ (x.bv w l).setWidth 16) x.ctxTensor).out w.md.toNat, 0)⟩]

/-! ## Thread control -/

/-- A command for group `g` of core `c` leaves it as `y` and changes nothing else of `s1`. -/
def Leaves (i : Instr) (s s1 : State) (c g : Nat) (y : Group) : Prop :=
  exec i s = .next (keepFixed s (s1.setGroup c g y))

/-- A command takes group `g` of core `c` on as `y` and changes nothing else of `s1`, but for what follows where its path has ended
at one that is blocked at a barrier (R226, R230). -/
def GoesOn (i : Instr) (s s1 : State) (c g : Nat) (y : Group) : Prop := Advances i s c g fun u => u = s1.setGroup c g y

/-- The instruction traps with a cause: the group keeps its PC and its registers and parks, or halts in debug mode, and no other
group changes (R235 to R238); `partly` where lanes have been performed. A record that the ring had no room for would place the
device in the safe state beside it (R332). -/
def Traps (i : Instr) (s s1 : State) (c g : Nat) (x : Group) (cause : Nat) (partly : Bool) : Prop :=
  s1.saf.overflow = false → 2 ≤ s1.erFree → Gives i s fun t =>
    t.group c g = some { x with
      state := if s1.debugMode c then .halted else .parked, cause := BitVec.ofNat 8 cause, partly := partly
      stepping := false, wait := .none, load := none } ∧
    ∀ c' g', (c' ≠ c ∨ g' ≠ g) → t.group c' g' = s1.group c' g'

/-- The group goes on with the next instruction. -/
def Group.next (x : Group) (s1 : State) (c g : Nat) : Group := x.at_ (x.pc + 8) (s1.haltBit c g)

/-- Byte address of a jump target, 48 bits. -/
def target (pc : BitVec 48) (words : Int) : BitVec 48 := BitVec.ofInt 48 (pc.toNat + 8 * words)

/-- The lowest active lane. -/
def Group.lowest (x : Group) (l : Nat) : Prop := (lanesOf x.active).head? = some l

/-- The instruction releases at system scope: MOD[2] with scope 3 (R193, Table 6.4). -/
def sysRelease (w : IFields) : Bool := w.md.getLsbD 2 && w.md.toNat % 4 == 3

/-- Another group of the block runs and has arrived at no barrier: nothing can complete there yet. -/
def othersRun (s : State) (c g : Nat) (b : Block) : Prop :=
  ∃ g' ∈ b.slots, g' ≠ g ∧ ∃ x', s.group c g' = some x' ∧ x'.state = .running ∧ x'.live ≠ 0 ∧
    ∀ y ∈ b.barriers, arrivedOf y g' = 0

/-! ## Stores and atomics -/

/-- The lanes of a local store have stored the `n` low bytes of their b, a higher lane over a lower one, and no other byte of local
memory differs (R221). -/
def StoredLocal (s1 t : State) (c : Nat) (w : IFields) (x : Group) (n : Nat) (wide : Bool) (lanes : List Nat) : Prop :=
  (∀ l ∈ lanes,
    (∀ k ∈ lanes, l < k → (x.localAddr w l).toNat + n ≤ (x.localAddr w k).toNat ∨
      (x.localAddr w k).toNat + n ≤ (x.localAddr w l).toNat) →
    ∀ i < n, t.localByte c ((x.localAddr w l).toNat + i) = BitVec.ofNat 8 (x.srcB w l wide / 2 ^ (8 * i))) ∧
  ∀ a, (∀ l ∈ lanes, ∀ i < n, a ≠ lmemKey (s1.phys c) ((x.localAddr w l).toNat + i)) →
    Sparse.get 0 t.lmem a = Sparse.get 0 s1.lmem a

/-- Writes one after the other, all of which succeed, leave `s2`. -/
def WritesAll (agent : Nat) (upd : Bool) : State → List (Nat × List Byte) → State → Prop
  | s, [], s2 => s = s2
  | s, (va, b) :: r, s2 => ∃ s1, s.write agent upd va b = (s1, none) ∧ WritesAll agent upd s1 r s2

/-- One atomic instruction: constructor, opcode, whether it uses c, and the new value from the old one, b and c, for values of
`n` bits, signed or not. -/
structure AtomOp where
  cmd : Nat → Nat → IFields → Instr
  opcode : Nat
  useC : Bool
  new : Nat → Bool → Nat → Nat → Nat → Nat

/-- The integer atomics, the exchange and the compare-and-swap of Table 7.5. -/
def atomOps : List AtomOp := [
  ⟨.atAdd, 0x60, false, fun n _ o b _ => (o + b) % 2 ^ n⟩,
  ⟨.atAnd, 0x61, false, fun _ _ o b _ => o &&& b⟩,
  ⟨.atOr, 0x62, false, fun _ _ o b _ => o ||| b⟩,
  ⟨.atXor, 0x63, false, fun _ _ o b _ => o ^^^ b⟩,
  ⟨.atMin, 0x64, false, fun n sg o b _ => if sg then (if signed n b < signed n o then b else o) else min o b⟩,
  ⟨.atMax, 0x65, false, fun n sg o b _ => if sg then (if signed n o < signed n b then b else o) else max o b⟩,
  ⟨.atSwap, 0x67, false, fun _ _ _ b _ => b⟩,
  ⟨.atCmpx, 0x68, true, fun _ _ o b k => if o = b then k else o⟩]

/-! ## Matrix engines -/

/-- The exact sum of products of one chunk. -/
def sumOf (l : List (Num × Num)) : Num :=
  match l with
  | [] => .fin false 0 0
  | p :: r => r.foldl (fun a q => (a.add (q.1.mul q.2).1).1) (p.1.mul p.2).1

/-- Row i of A and column j of B in chunk ch, for B16 operands in their skewed tiles (R73). -/
def State.pairsB16 (s : State) (c : Nat) (d : TileDesc) (b i j ch : Nat) : List (Num × Num) :=
  let code (f base tiles r y : Nat) : Num := b16Val (BitVec.ofNat 16 (s.skewCode c f base tiles r y))
  (((List.range 32).map (32 * ch + ·)).filter (· < d.k)).map fun k =>
    (code 2 (d.a + b * d.aTiles * fmtTile 2) (tilesOf d.k) i k, code 2 (d.b + b * d.bTiles * fmtTile 2) (tilesOf d.n) k j)

/-- Element (i, j) of a fresh, drained product of B16 operands without C, in W32: the chunk sums rounded to W32 and added up in W32,
then times the operands' COARSE product, which is 1, and times α (R73 to R75). -/
def State.productB16 (s : State) (c : Nat) (d : TileDesc) (b i j : Nat) : Word :=
  let acc := (List.range (tilesOf d.k)).foldl (fun a ch => (w32Add a (toW32 .rne (sumOf (s.pairsB16 c d b i j ch))).1).1) 0
  (toW32 .rne ((w32Val d.alpha).mul (w32Val (w32Mul acc (w32Mul 0x3F800000 0x3F800000).1).1)).1).1

/-! ## MSE commands -/

/-- Die `k` takes the command `c` from the head of its ring `r`, where the host or the firmware put it; its completion record can be
written, and reading the entry and walking the ranges that its checks translate leaves `s1` (R147, R186, R476). -/
structure TakesMse (s s1 : State) (k r : Nat) (c : MseCmd) : Prop where
  die : k < 6
  ring : r < 4
  turn : s.mseTurn k r = true
  head : ∃ w s0 s2, s.mseFetch k r = (s0, some (w, .ring)) ∧ c = readMseCmd w ∧ s0.cplCheck k c.cpl = (s2, none) ∧
    s2.mseWalks k c = (s1, false)

/-- The state once a command of ring `r` has run: the entry is consumed, its result awaits its record, and SEQ goes on. -/
def State.mseEnds (s : State) (k r : Nat) (c : MseCmd) (y : MseRes) : State :=
  (((s.msePop k r).mseRan k r c.op c.cpl .ring y).showOpenWait k).pump

/-- The command runs, leaving memory and registers as `s2`, and ends with the result `y`. -/
def EndsMse (i : Instr) (s s2 : State) (k r : Nat) (c : MseCmd) (y : MseRes) : Prop :=
  exec i s = .next (keepFixed s (s2.mseEnds k r c y))

/-- One tensor command: constructor, opcode, what is read for a tile, what is written for it, and how the result grows. -/
structure TensorOp where
  cmd : Nat → Nat → Instr
  op : Nat
  fetch : Nat → MseCmd → State → Nat → State × Except MErr (List Byte × List Byte)
  puts : MseCmd → State → Nat → List Byte → List Byte → List (Nat × List Byte)
  grows : MseCmd → State → MseRes → Nat → List Byte → List Byte → MseRes

/-- A tile with its scale-plane entry. -/
def sourceTile (k : Nat) (c : MseCmd) (s : State) (t : Nat) : State × Except MErr (List Byte × List Byte) :=
  s.mseTileEntry k c.src c.sfmt c.ssp t

/-- AMAX, ENCODE, WIDEN, FILL and COPY (R102, R56, R43, R158, R159, Table 5.4). -/
def tensorOps : List TensorOp := [
  ⟨.mseAmax, 0x01, sourceTile, fun _ _ _ _ _ => [], fun c _ r _ b _ =>
    { r with value := maxWord r.value (amaxTile c.sfmt b).1, count := r.count + (amaxTile c.sfmt b).2 }⟩,
  ⟨.mseEncode, 0x02, sourceTile,
    fun c s t b _ =>
      let y := encodeTile (Config.edge (c.src + t * fmtTile c.sfmt)) c.sfmt c.dfmt c.coarse (s.mseRnd c t) b
      c.output t y.bytes y.entry,
    fun c s r t b _ => let y := encodeTile (Config.edge (c.src + t * fmtTile c.sfmt)) c.sfmt c.dfmt c.coarse (s.mseRnd c t) b
      { r with count := r.count + y.crushed, flags := r.flags ||| y.flags }⟩,
  ⟨.mseWiden, 0x03, sourceTile, fun c _ t b e => c.output t (widenTile c.sfmt c.dfmt c.coarse b e).1 [],
    fun c _ r _ b e => { r with count := r.count + 1, flags := r.flags ||| (widenTile c.sfmt c.dfmt c.coarse b e).2 }⟩,
  ⟨.mseFill, 0x04, fun _ _ s _ => (s, .ok ([], [])),
    fun c s t _ _ => if c.mode = 0 then c.output t (List.replicate (fmtTile c.dfmt) 0) (List.replicate 16 0)
      else c.output t (roundTile c.dfmt (s.fillValues c t)).1 [],
    fun c s r t _ _ => { r with
      count := r.count + 1
      flags := if c.mode = 0 then r.flags else r.flags ||| (roundTile c.dfmt (s.fillValues c t)).2 }⟩,
  ⟨.mseCopy, 0x05, sourceTile,
    fun c _ t b e => if c.mode = 1 then
        c.output (transposedIndex (c.tiles / c.tcols) c.tcols t) (transposeTile c.sfmt b) (transposeEntry e)
      else c.output t b e,
    fun _ _ r _ _ _ => { r with count := r.count + 1 }⟩]

/-- The tiles one after the other, where every read and every write succeeds. -/
def TileSteps (e : TensorOp) (k : Nat) (c : MseCmd) : State → MseRes → List Nat → State → MseRes → Prop
  | s, r, [], s2, r2 => s = s2 ∧ r = r2
  | s, r, t :: l, s2, r2 => ∃ s1 b x s3, e.fetch k c s t = (s1, .ok (b, x)) ∧
      WritesAll (agentMse k) c.upd s1 (e.puts c s1 t b x) s3 ∧ TileSteps e k c s3 (e.grows c s1 r t b x) l s2 r2

/-- FINISH writes its tiles, each with its bit of the flag map where one is named (R157). -/
def FinishSteps (k : Nat) (c : MseCmd) (x : ARange) : State → List Nat → State → Prop
  | s, [], s2 => s = s2
  | s, t :: l, s2 => ∃ s1, WritesAll (agentMse k) c.upd s [(x.dst + 1024 * x.es * t, (x.tileOut t).1)] s1 ∧
      if c.dsp = noAddr then FinishSteps k c x s1 l s2
      else ∃ s3 b s4, s1.read (agentMse k) (c.dsp + 4 * (t / 32)) 4 = (s3, .ok b) ∧
        WritesAll (agentMse k) c.upd s3
          [(c.dsp + 4 * (t / 32), toBytes 4 (withBit (ofBytes b) (t % 32) (x.flagged.contains t)))] s4 ∧
        FinishSteps k c x s4 l s2

/-! ## DMA descriptors -/

/-- Channel `n` takes the descriptor `c` from entry `i` of its ring, and `s1` is the state with the entry consumed, the turn
passed on, the channel busy and the ranges of its checks walked (R147, R162, R186, R391). -/
structure TakesDma (s s1 : State) (n i : Nat) (c : DmaCmd) : Prop where
  chan : n < 32
  idle : s.dmaIdle n = true
  turn : s.dmaNext n = some 0
  own : (s.dma n).seqQ = []
  runs : (s.dma n).stopped = false
  waits : s.ringHas dmaRing n 0 = true
  index : i = s.ringHead dmaRing n 0
  head : ∃ w s0 s2 s3, s.ringRead dmaRing n 0 (agentDma n) = (s0, .ok w) ∧ c = readDmaCmd w ∧
    s2 = (s0.ringPop dmaRing n 0).modDma n (fun d => { d with turn := 1 }) ∧ s2.dmaCplCheck c.cpl = (s3, none) ∧
    (s3.setFld F.DMA_CHSTAT_BUSY 1 n).dmaWalks c = (s1, false)

/-- A descriptor of a channel's ring that has moved nothing yet. -/
def DmaBusy.fresh (c : DmaCmd) : DmaBusy :=
  { cmd := c, issuer := .ring, status := 0, bursts := 0, moved := false, need := [], asked := [], got := [], last := [], routes := [] }

/-- Pieces with the bytes that each of them takes. -/
def deal : List (Nat × Nat) → List Byte → List (Nat × List Byte)
  | [], _ => []
  | (a, k) :: r, b => (a, b.take k) :: deal r (b.drop k)

/-- Writes of the channel to its own device and its hosts, all of which succeed. -/
def GaWrites (n : Nat) (upd : Bool) : State → List (Nat × List Byte) → State → Prop
  | s, [], s2 => s = s2
  | s, (a, b) :: r, s2 => s.farGa a = false ∧ ∃ s1, s.gaWrite n upd a b = (s1, none) ∧ GaWrites n upd s1 r s2

/-- The moves of a descriptor one after the other, all at home and all successful; `last` is where the last bytes went. -/
def DmaSteps (n : Nat) (c : DmaCmd) : State → List (Nat × Nat) → List DMove → State → List (Nat × Nat) → Prop
  | s, last, [], s2, last2 => s = s2 ∧ last = last2 ∧ ∀ p ∈ lastBytes 256 last, s.farGa p.1 = false
  | s, last, m :: r, s2, last2 => ∃ s1 x s3, s.fetchPieces n [] m.src = (s1, .ok x) ∧
      GaWrites n c.upd s1 (deal m.dst (m.turn.apply x)) s3 ∧
      DmaSteps n c s3 (m.dst.foldl (fun l p => lastBytes 256 (joinPiece l p.1 p.2)) last) r s2 last2

/-- 256-byte bursts of the moves of data, or of scale planes (R167). -/
def burstsOf (ms : List DMove) (plane : Bool) : Nat :=
  (((ms.filter fun m => m.plane == plane).map fun m => (m.src.map (·.2)).sum).sum + 255) / 256

/-! ## Packets -/

/-- The packet comes in whole on link `l`, a 2.0 link that is up; it breaks neither R259 nor R270. -/
structure Arrives (s : State) (l : Nat) (p : Packet) : Prop where
  link : l < 96
  runs : s.diesUp = true
  up : s.linkUp l = true
  v2 : s.linkV2 l = true
  fit : s.unfit l p = false
  fresh : (s.link l).rxBuf.contains p = false
  free : ∀ k < 6, (s.mse k).held.contains (l, p) = false

/-- It is for this device, which is not fenced. -/
structure ArrivesHere (s : State) (l : Nat) (p : Packet) : Prop extends Arrives s l p where
  here : p.dst.toNat = s.node
  open_ : s.safe = false

/-- The command leaves the state `t`, but for what no such command changes. -/
def Ends (i : Instr) (s t : State) : Prop := exec i s = .next (keepFixed s t)

/-! ## SEQ commands -/

/-- The commands of SEQ with their codes (Table 9.9). -/
def seqTable : List ((CmdSrc → Instr) × Nat) := [
  (.seqLoad, 1), (.seqStart, 2), (.seqResume, 3), (.seqPause, 4), (.seqContinue, 5), (.seqHalt, 6), (.seqRetry, 7),
  (.seqCheckpoint, 8), (.seqUnload, 9), (.seqHmput, 10)]

/-- The write of SEQ.CMD reaches SEQ, which is not busy, on a device that is READY (R314, R443). -/
structure SeqHears (s : State) (port : Nat) : Prop where
  number : port < 2
  reaches : s.writable port (Reg.addr .SEQ_CMD 0 0) = true
  idle : s.flag F.SEQ_CMD_BUSY = false
  ready : s.ready = true
  unmarked : s.wipeMark = none

/-- A command has run with a status: CMDST shows it, a device that is now fenced halts (R330), and SEQ goes on. -/
def State.seqEnds (s : State) (status : Nat) : State :=
  let u := s.setFld F.SEQ_STATE_CMDST status
  if !u.isRunning then u
  else match u.fencedNode with
    | some n => u.halt HC.fenced n
    | none => u.pump

/-- The states of SEQ.STATE in which a command is accepted (R313). -/
def seqAccepts (code st : Nat) : Bool :=
  match code with
  | 1 => st != SQ.running && st != SQ.paused
  | 2 => st == SQ.loaded
  | 3 => st == SQ.loaded || st == SQ.halted
  | 4 => st == SQ.running
  | 5 => st == SQ.paused
  | 6 => st == SQ.running || st == SQ.paused
  | 7 => st == SQ.halted
  | 8 => st == SQ.running || st == SQ.paused
  | 9 => st == SQ.loaded || st == SQ.paused || st == SQ.halted
  | _ => st == SQ.running

/-! ## Writes of registers -/

/-- Registers whose write does more than put the written value in place, or does it under a condition of its own. -/
def ownWrites : List Reg := [
  .HIF_MODE, .HIF_HBEAT, .HIF_CLAIM, .HIF_QSQLO, .HIF_QSQHI, .HIF_QCQLO, .HIF_QCQHI, .HIF_QSTLO, .HIF_QSTHI, .HIF_QCTL,
  .HIF_MSIXVCTL, .SEQ_CMD, .SEQ_DRTAIL, .MEM_TLBINV, .MEM_IMODE, .MSE_RTAIL, .DMA_CHTAIL, .LNK_CTL, .LNK_GPORT, .LNK_NODE,
  .LNK_SYSCFG, .SAF_ERHEAD, .NUM_LSCALE, .NUM_LSGROW, .NUM_FBCTL, .PWR_TSOFFHI, .DBG_RSTCTL, .CORE_PSQLO, .CORE_PSQHI,
  .CORE_PSTAIL, .CORE_FECTL, .CORE_GCTL, .CORE_DBGDATA]

/-- The command that a write of a register is, where the table has a row for it. -/
def writeCommand (port : Nat) (r : Reg) (i j : Nat) (v : Word) : Option Instr :=
  match r with
  | .HIF_MODE => some (.failover port v)
  | .HIF_HBEAT => some (.heartbeat port i)
  | .HIF_CLAIM => if v.toNat % 2 = 1 then some (.claim port i) else none
  | .HIF_QCTL => if F.HIF_QCTL_EN.of v = 1 then some (.queueEnable port i j v) else none
  | .SEQ_DRTAIL => some (.drtailWrite port v [])
  | .MEM_TLBINV => some (.tlbInvalidate port v)
  | .MSE_RTAIL => some (.mseRtailWrite port i j v)
  | .DMA_CHTAIL => some (.dmaChtailWrite port i v)
  | .LNK_CTL => if v.toNat % 2 = 1 then some (.linkEnable port i v) else some (.linkDisable port i v)
  | .SAF_ERHEAD => some (.erheadWrite port v)
  | .CORE_PSTAIL => some (.pstailWrite port i j v)
  | .CORE_FECTL => some (.icinv port i v)
  | .CORE_DBGDATA => some (.dbgdataWrite port i v)
  | _ => none

/-- The registers of a block read alike in two states. -/
def SameBlock (b : BlockId) (s t : State) : Prop :=
  ∀ off d, BlockId.ofOffset off = some b → Sparse.get d t.regs off = Sparse.get d s.regs off

/-! ## Groups and their blocks -/

/-- The blocks of a core have ids of their own, below the next one, and the block of every group it holds is among them and names the
group's slot (R208, R210). -/
def Core.sound (k : Core) : Prop :=
  k.blocks.Pairwise (fun a b => a.id ≠ b.id) ∧ (∀ b ∈ k.blocks, b.id < k.nextBlock) ∧
  ∀ g x, Sparse.find k.groups g = some x → ∃ b ∈ k.blocks, b.id = x.block ∧ g ∈ b.slots

/-- Every core is sound, and no word of core SRAM that a read has met waits for its slot to leave service. -/
def State.groupsHeld (s : State) : Prop := (∀ k ∈ s.cores, k.sound) ∧ ∀ e ∈ s.saf.sram, e.2.met = false

/-! ## The test access port -/

/-- The length of the data register that an instruction selects: one bit of BYPASS, 32 of IDCODE, the boundary's cells. -/
def TapInstr.length : TapInstr → Nat
  | .idcode => 32
  | .bypass | .clamp | .highz => 1
  | .samplePreload | .extest | .extestPulse | .extestTrain => Config.boundaryLen

/-- From Shift-DR to Update-DR the data register has the length that Capture-DR gave it. -/
def Tap.fits (t : Tap) : Prop :=
  t.st ∈ [TapState.shiftDr, .exit1Dr, .pauseDr, .exit2Dr, .updateDr] → t.drShift.length = t.ir.length

end Sys2Proof.Machine
end

