-- ==== Sys2Proof/Certificates/Slice0/Obligations.lean ====
section
/-! DEFINITION. The statements for the provers, by the files of the spec. -/

open Sys2Proof Sys2Proof.Machine

/-! ## Thread instructions (spec/07) -/

/-- R217, Table 7.5: each integer, move and cross-lane instruction gives every executing lane the result of the table and leaves
everything else as it was. R214 to R216: a word that is not legal for the thread's register count traps ILLEGAL: of these
instructions, of the floating-point ones, of the comparisons and of the atomics. R215, R217: cmp.i and plog write the predicate
they name in the executing lanes, and p0 stays true. R217: poll gives every executing lane whether any (MOD 0) or every (MOD 1)
active lane holds p[C], or with MOD 2 the mask of the active lanes that do, as a pair. -/
def Obligations.IntegerInstructions : Prop :=
  ((∀ e ∈ intOps ++ floatOps, ∀ (s s1 : State) (c g : Nat) (w : IFields) (x : Group),
      (e ∈ intOps → Issues s s1 c g e.opcode w e.form x →
        Advances (e.cmd c g w) s c g fun u => LaneEffect s1 u c g w x (e.res s1 w x)) ∧
      (Reaches s s1 c g e.opcode w x → e.form.legal x.nregs w = false → Traps (e.cmd c g w) s s1 c g x 0x01 false)) ∧
    (∀ e ∈ predOps, ∀ (s s1 : State) (c g : Nat) (w : IFields) (x : Group), Reaches s s1 c g e.opcode w x →
      e.form.legal x.nregs w = false → Traps (e.cmd c g w) s s1 c g x 0x01 false) ∧
    ∀ e ∈ atomOps, ∀ (s s1 : State) (c g : Nat) (w : IFields) (x : Group), Reaches s s1 c g e.opcode w x →
      (atForm w e.useC).legal x.nregs w = false → Traps (e.cmd c g w) s s1 c g x 0x01 false) ∧
  ((∀ e ∈ predOps, ∀ (s s1 : State) (c g : Nat) (w : IFields) (x : Group), Issues s s1 c g e.opcode w e.form x →
       Advances (e.cmd c g w) s c g fun u => PredEffect s1 u c g w x (e.res w x)) ∧
    (∀ (s s1 : State) (c g : Nat) (w : IFields) (x : Group),
       Issues s s1 c g 0x71 w { d := if w.md = 2 then .pair else .pred, c := .pred, mods := 7 } x →
       Advances (.poll c g w) s c g fun t =>
         let act := lanesOf x.active
         let holds := fun l => x.pred l w.c.toNat
         OnlyGroup s1 t c g 0 ∧ ∃ y, t.group c g = some y ∧
           (w.md ≠ 2 → y = { x.next s1 c g with preds := y.preds } ∧ ∀ l < 64, ∀ k < 8, y.pred l k =
             if l ∈ x.lanes w ∧ k = w.d.toNat ∧ k ≠ 0 then (if w.md = 0 then act.any holds else act.all holds) else x.pred l k) ∧
           (w.md = 2 → y = { x.next s1 c g with regs := y.regs } ∧ ∀ l < 64, ∀ n < 256, y.reg l n =
             if l ∈ x.lanes w ∧ (n = w.d.toNat ∨ n = w.d.toNat + 1) then
               BitVec.ofNat 32 ((maskOf fun l => decide (l ∈ act) && holds l).toNat / 2 ^ (32 * (n - w.d.toNat)))
             else x.reg l n)))

/-- R218 to R220: each floating-point, conversion, special-function and stipple instruction gives every executing lane its
result, raises its flags in the core's vector engine, and leaves everything else as it was. Rests on the model's reading in
log entries 8 and 16. -/
def Obligations.FloatInstructions : Prop :=
  ∀ e ∈ floatOps, ∀ (s s1 : State) (c g : Nat) (w : IFields) (x : Group), Issues s s1 c g e.opcode w e.form x →
    Advances (e.cmd c g w) s c g fun u => LaneEffect s1 u c g w x (e.res s1 w x)

/-- R217, R218: cmp.w writes the predicate of the comparison; with a NaN operand only `not equal` holds, and invalid is
raised. enc.f8 and dec.n give the code of R58 and the value of R43, with free bits above a narrow result (log entry 16). R217,
Table 7.6: getsys gives every executing lane the system value that IMM names, and traps ILLEGAL for an IMM above 10. The timer is
that of the core's own die (R353; log entry 5). -/
def Obligations.CodesAndSystemValues : Prop :=
  (∀ (s s1 : State) (c g : Nat) (w : IFields) (x : Group),
    Issues s s1 c g 0x25 w { d := .pred, a := .reg, b := .reg, mods := 0x3F } x →
    Advances (.cmpW c g w) s c g fun u => PredEffect s1 u c g w x fun l =>
      let a := w32Val (x.av w l)
      let b := w32Val (x.bv w l)
      let lt := a.lt b
      let gt := b.lt a
      if a.isNan || b.isNan then (decide (w.md = 1), Flags.iv)
      else (if w.md = 0 then !lt && !gt else if w.md = 1 then lt || gt else if w.md = 2 then lt else if w.md = 3 then !gt
        else if w.md = 4 then gt else !lt, 0)) ∧
  (∀ (s s1 : State) (c g : Nat) (w : IFields) (x : Group), Issues s s1 c g 0x3A w (dabc 0xD) x →
    Advances (.encF8 c g w) s c g fun u => LaneEffect s1.drawn u c g w x fun l =>
      let r := encodeGiven (s1.convRnd x w l) x.ctxCoarse ((x.bv w l).toNat % 256) (x.av w l)
      (s1.above 8 l r.1.toNat, r.2)) ∧
  (∀ (s s1 : State) (c g : Nat) (w : IFields) (x : Group), Issues s s1 c g 0x3B w (dab 0x1111) x →
    Advances (.decN c g w) s c g fun u => LaneEffect s1.drawn u c g w x fun l =>
      let v := if w.md.getLsbD 3 then h4Val ((x.av w l).toNat % 16) else f8Val ((x.av w l).setWidth 8)
      let y := scaled ((x.bv w l).setWidth 8) v
      if w.md.getLsbD 2 then (s1.above 16 l (widenB16 y x.ctxCoarse).1.toNat, (widenB16 y x.ctxCoarse).2)
      else widenW32 y x.ctxCoarse) ∧
  (∀ (s s1 : State) (c g : Nat) (w : IFields) (x : Group) (b : Block) (i : Item),
     Issues s s1 c g 0x15 w { d := .reg, imm := true } x → w.imm.toNat ≤ 10 →
     s1.blockOf c x.block = some b → ((s1.core c).items.find? fun j => j.id == b.item) = some i →
     Advances (.getsys c g w) s c g fun u => LaneEffect s1.tickTimer u c g w x fun l => plainNat (
       match w.imm.toNat with
       | 0 => l
       | 1 => g
       | 2 => b.index
       | 3 => x.index
       | 4 => c
       | 5 => (match x.stream with | .f => 0 | .b => 1 | .u => 2)
       | 6 => i.itemId.toNat
       | 7 => s1.stepNo
       | 8 => b.lmemBase
       | 9 => s1.tickTimer.pwr.dieTimers.getD (s1.phys c / 20) s1.tickTimer.pwr.timer % 2 ^ 32
       | _ => s1.node)) ∧
  (∀ (s s1 : State) (c g : Nat) (w : IFields) (x : Group), Issues s s1 c g 0x15 w { d := .reg, imm := true } x →
     10 < w.imm.toNat → Traps (.getsys c g w) s s1 c g x 0x01 false)

/-- R201, R217, R219, R224, R239: the instructions that only go on: nop; cede, which stops the group where preemption is
requested; setctx, from the lowest active lane, which traps SCALE for a COARSE outside R42; twait, which waits while too many
descriptors are outstanding and traps TILEDESC where one was discarded; fence with nothing to wait for. R193: fence and st.rel at
system scope, where the lanes owe peers a read-back, send the reads and wait for their answers, at their instruction where too few
read ids are free; of stores whose route is not known the release traps MEMERR. -/
def Obligations.PlainControl : Prop :=
  ∀ (s s1 : State) (c g : Nat) (w : IFields) (x : Group),
    (Issues s s1 c g 0x00 w {} x → GoesOn (.nop c g w) s s1 c g (x.next s1 c g)) ∧
    (Issues s s1 c g 0x9C w { plain := true } x →
      ((s1.core c).preempt = false → GoesOn (.cede c g w) s s1 c g (x.next s1 c g)) ∧
      ((s1.core c).preempt = true → (x.next s1 c g).state ≠ .blocked → Leaves (.cede c g w) s s1 c g
        { x.next s1 c g with state := if (x.next s1 c g).state = .running then .yielded else (x.next s1 c g).state }) ∧
      ((s1.core c).preempt = true → (x.next s1 c g).state = .blocked → Ends (.cede c g w) s
        (((s1.setGroup c g (x.next s1 c g)).pathEnds c g).modGroup c g fun y =>
          { y with state := if y.state = .running then .yielded else y.state }))) ∧
    (∀ l, Issues s s1 c g 0x89 w { a := .reg, mods := 0xF, plain := true } x → x.lowest l →
      (w.md = 3 → coarseOk (x.av w l) = true) →
      GoesOn (.setctx c g w) s s1 c g (Group.next
        (if w.md = 0 then { x with ctxStream := (x.av w l).setWidth 16 }
         else if w.md = 1 then { x with ctxTensor := x.av w l }
         else if w.md = 2 then { x with ctxDraw := x.av w l }
         else { x with ctxCoarse := x.av w l }) s1 c g)) ∧
    (∀ l, Issues s s1 c g 0x89 w { a := .reg, mods := 0xF, plain := true } x → x.lowest l → w.md = 3 →
      coarseOk (x.av w l) = false → Traps (.setctx c g w) s s1 c g x 0x0C false) ∧
    (Issues s s1 c g 0x81 w { imm := true, plain := true } x → x.badDesc = true →
      Traps (.twait c g w) s s1 c g { x with badDesc := false } 0x0A false) ∧
    (Issues s s1 c g 0x81 w { imm := true, plain := true } x → x.badDesc = false →
      (x.outstanding ≤ w.imm.toNat % 32 → GoesOn (.twait c g w) s s1 c g (x.next s1 c g)) ∧
      (w.imm.toNat % 32 < x.outstanding →
        Leaves (.twait c g w) s s1 c g { x with state := .blocked, wait := .twait (w.imm.toNat % 32) })) ∧
    (Issues s s1 c g 0x7A w { mods := 0xFFF0 } x → (sysRelease w = true → x.owed (x.exec w) = []) →
      GoesOn (.fence c g w) s s1 c g (Group.next (if sysRelease w then x.released_ (x.exec w) else x) s1 c g)) ∧
    ∀ (cmd : Instr) (opc : Nat) (form : Form) (adv : Bool),
      cmd = .fence c g w ∧ opc = 0x7A ∧ form = { mods := 0xFFF0 } ∧ adv = true ∧ sysRelease w = true ∨
        cmd = .stRel c g w ∧ opc = 0x55 ∧ form = storeForm w 0xFFFF ∧ adv = false ∧ w.md.toNat / 4 = 3 →
      Issues s s1 c g opc w form x → x.owed (x.exec w) ≠ [] →
      let owed := x.owed (x.exec w)
      let back := s1.readBacks c g x owed []
      ((∃ e ∈ owed, Sparse.find x.peerRoute e.1 = none) → Traps cmd s s1 c g (x.released_ (x.exec w)) 0x05 false) ∧
      ((∀ e ∈ owed, ∃ r, Sparse.find x.peerRoute e.1 = some r) →
        (2048 < s1.net.reads.length + owed.length → Ends cmd s s1) ∧
        (s1.net.reads.length + owed.length ≤ 2048 → back.1.group c g = some x →
          Leaves cmd s back.1 c g { x.released_ (x.exec w) with
            state := .blocked, wait := .fence adv
            load := some { d := 0, size := 0, opc := opc, lanes := [], ids := back.2, got := [] } }))

/-- R226, R228: a jump whose guard agrees among the active lanes goes to its target or on; one whose guard differs pushes the
merge and the pending entry and runs the fall-through lanes first, or traps STACK where the stack has no room for the two;
jumpr goes to the pair that every active lane holds, and traps DIVJUMP where two lanes hold different ones and MISALIGN where
it is no multiple of 8; call writes the return address and goes to its target. -/
def Obligations.JumpsAndCalls : Prop :=
  ∀ (s s1 : State) (c g : Nat) (w : IFields) (x : Group),
    (Issues s s1 c g 0x90 w { b := .bits, c := .bits, imm := true } x →
      (x.exec w = x.active → GoesOn (.jump c g w) s s1 c g (x.at_ (target x.pc w.imm.toInt) (s1.haltBit c g))) ∧
      (x.exec w = 0 → x.active ≠ 0 → GoesOn (.jump c g w) s s1 c g (x.next s1 c g)) ∧
      (x.exec w ≠ x.active → x.exec w ≠ 0 → x.stack.length ≤ 30 →
        GoesOn (.jump c g w) s s1 c g (Group.next { x with
          stack := { kind := .pending, pc := target x.pc w.imm.toInt, mask := x.exec w, bar := none }
            :: { kind := .merge, pc := target x.pc (w.b ++ w.c).toInt, mask := x.active, bar := none } :: x.stack
          above := x.above.filter fun e => decide (x.stack.length + 2 ≤ e.1)
          active := x.active &&& ~~~ x.exec w } s1 c g)) ∧
      (x.exec w ≠ x.active → x.exec w ≠ 0 → 30 < x.stack.length → Traps (.jump c g w) s s1 c g x 0x08 false)) ∧
    (∀ l dst, Issues s s1 c g 0x91 w { a := .pair, plain := true } x → x.lowest l →
      (∀ k ∈ lanesOf x.active, (x.pair k w.a.toNat).setWidth 48 = dst) →
      (dst.toNat % 8 = 0 → GoesOn (.jumpr c g w) s s1 c g (x.at_ dst (s1.haltBit c g))) ∧
      (dst.toNat % 8 ≠ 0 → Traps (.jumpr c g w) s s1 c g x 0x02 false)) ∧
    (∀ k ∈ lanesOf x.active, ∀ l ∈ lanesOf x.active, Issues s s1 c g 0x91 w { a := .pair, plain := true } x →
      (x.pair k w.a.toNat).setWidth 48 ≠ (x.pair l w.a.toNat).setWidth 48 → Traps (.jumpr c g w) s s1 c g x 0x09 false) ∧
    (Issues s s1 c g 0x92 w { d := .pair, imm := true, plain := true } x →
      Advances (.call c g w) s c g fun t => OnlyGroup s1 t c g 0 ∧ ∃ y, t.group c g = some y ∧
        y = { x.at_ (target x.pc w.imm.toInt) (s1.haltBit c g) with regs := y.regs } ∧
        ∀ l < 64, ∀ n < 256, y.reg l n =
          if l ∈ lanesOf x.active ∧ (n = w.d.toNat ∨ n = w.d.toNat + 1) then
            BitVec.ofNat 32 ((x.pc + 8).toNat / 2 ^ (32 * (n - w.d.toNat)))
          else x.reg l n)

/-- R221: lrd gives every executing lane the bytes of its local address, extended as MOD[2] says; lwr writes the low bytes of
b there, a higher lane over a lower one, and no other byte of any memory changes. A lane whose address is misaligned or lies
outside the local memory makes them trap, the lowest such lane with its cause; of lwr the lanes below it are performed, and no
other byte of local memory changes. -/
def Obligations.LocalLoadsAndStores : Prop :=
  ∀ (s s1 : State) (c g : Nat) (w : IFields) (x : Group) (n : Nat) (wide : Bool),
    n = 2 ^ (w.md.toNat % 4) → wide = decide (w.md.toNat % 4 = 3) →
    (∀ cause, ((x.lanes w).findSome? fun l => localCause (x.localAddr w l) n) = some cause →
      (Issues s s1 c g 0x50 w { d := if wide then .pair else .reg, a := .reg, imm := true, mods := 0xFF } x →
        Traps (.lrd c g w) s s1 c g x cause false) ∧
      (∀ l, (x.lanes w).head? = some l →
        Issues s s1 c g 0x51 w { a := .reg, b := if wide then .pair else .reg, imm := true, mods := 0xF } x →
        Traps (.lwr c g w) s s1 c g x cause (localCause (x.localAddr w l) n).isNone) ∧
      (∀ m, ((x.lanes w).find? fun l => (localCause (x.localAddr w l) n).isSome) = some m → s1.inStep = false →
        s1.saf.overflow = false → 2 ≤ s1.erFree →
        Issues s s1 c g 0x51 w { a := .reg, b := if wide then .pair else .reg, imm := true, mods := 0xF } x →
        Gives (.lwr c g w) s fun t => StoredLocal s1 t c w x n wide ((x.lanes w).filter (· < m)))) ∧
    ((∀ l ∈ x.lanes w, localCause (x.localAddr w l) n = none) →
    (Issues s s1 c g 0x50 w { d := if wide then .pair else .reg, a := .reg, imm := true, mods := 0xFF } x →
      Advances (.lrd c g w) s c g fun t => OnlyGroup s1 t c g 0 ∧ ∃ y, t.group c g = some y ∧
        y = { x.next s1 c g with regs := y.regs } ∧ ∀ l < 64, ∀ k < 256, y.reg l k =
          let v := ofBytes (s1.localBytes c (x.localAddr w l).toNat n)
          if l ∈ x.lanes w ∧ k = w.d.toNat then
            (if w.md.getLsbD 2 ∧ n < 4 then BitVec.ofInt 32 (signed (8 * n) v) else BitVec.ofNat 32 v)
          else if l ∈ x.lanes w ∧ wide ∧ k = w.d.toNat + 1 then BitVec.ofNat 32 (v / 2 ^ 32)
          else x.reg l k) ∧
    (Issues s s1 c g 0x51 w { a := .reg, b := if wide then .pair else .reg, imm := true, mods := 0xF } x →
      Advances (.lwr c g w) s c g fun t =>
        t = ({ s1 with lmem := t.lmem } : State).setGroup c g (x.next s1 c g) ∧ StoredLocal s1 t c w x n wide (x.lanes w)))

/-- R193, R221, R262: a load reads the lanes that address the own device, sends a READ for each lane that addresses a peer, and
blocks its group until LOAD_COMPLETE; it waits at its instruction where no read id is free, and traps where a read of its own
device fails. R221: LOAD_COMPLETE of a load whose answers are all there writes the data to d, lane by lane, and the group goes on.
A load with a lane that is misaligned, in another cluster's window, or at a peer outside its HBM window traps with the cause of
the lowest such lane, before any lane reads; one with no executing lane only goes on. A LOAD_COMPLETE whose read of a host failed
traps MEMERR. Rests on the model's reading in log entry 35. -/
def Obligations.GlobalLoads : Prop :=
  (∀ (s s1 : State) (c g : Nat) (w : IFields) (x : Group) (cause : Nat),
     ((x.lanes w).findSome? fun l => s1.globalCause c (x.globalAddr w l w.imm.toInt) (2 ^ (w.md.toNat % 4))) = some cause →
     (Issues s s1 c g 0x52 w { d := regOrPair (w.md.toNat % 4 == 3), a := .pair, imm := true, mods := 0xF } x →
       Traps (.ld c g w) s s1 c g x cause false) ∧
     (Issues s s1 c g 0x54 w { d := regOrPair (w.md.toNat % 4 == 3), a := .pair, imm := true, mods := 0xFFFF } x →
       Traps (.ldAcq c g w) s s1 c g x cause false)) ∧
  (∀ (s s1 : State) (c g : Nat) (w : IFields) (x : Group) (lanes peers : List (Nat × Nat)) (own : State × Except Nat (List (Nat × DWord)))
     (cmd : Instr) (opc mods : Nat),
     cmd = .ld c g w ∧ opc = 0x52 ∧ mods = 0xF ∨ cmd = .ldAcq c g w ∧ opc = 0x54 ∧ mods = 0xFFFF →
     lanes = (x.lanes w).map (fun l => (l, x.globalAddr w l w.imm.toInt)) → lanes ≠ [] →
     (∀ e ∈ lanes, s1.globalCause c e.2 (2 ^ (w.md.toNat % 4)) = none) →
     peers = lanes.filter (fun e => gNode e.2 != s1.node) →
     own = s1.loadOwn c (2 ^ (w.md.toNat % 4)) (lanes.filter fun e => gNode e.2 == s1.node) [] →
     Issues s s1 c g opc w { d := regOrPair (w.md.toNat % 4 == 3), a := .pair, imm := true, mods := mods } x →
     (2048 < s1.net.reads.length + peers.length → Ends cmd s s1) ∧
     (s1.net.reads.length + peers.length ≤ 2048 → own.1.group c g = some x →
       (∀ cause, own.2 = .error cause → Traps cmd s own.1 c g x cause false) ∧
       (∀ got s3 ids, own.2 = .ok got → own.1.loadPeers c g peers [] = (s3, ids) → s3.group c g = some x →
         Leaves cmd s s3 c g { x with
           state := .blocked, wait := .load
           load := some { d := w.d.toNat, size := w.md.toNat % 4, opc := opc, ids := ids, got := got,
                          lanes := lanes.map fun e => (e.1, BitVec.ofNat 64 e.2) } }))) ∧
  (∀ (s s1 : State) (c g : Nat) (w : IFields) (x : Group) (cmd : Instr) (opc mods : Nat),
     cmd = .ld c g w ∧ opc = 0x52 ∧ mods = 0xF ∨ cmd = .ldAcq c g w ∧ opc = 0x54 ∧ mods = 0xFFFF → x.exec w = 0 →
     Issues s s1 c g opc w { d := regOrPair (w.md.toNat % 4 == 3), a := .pair, imm := true, mods := mods } x →
     GoesOn cmd s s1 c g (x.next s1 c g)) ∧
  (∀ (s : State) (c g : Nat) (fail : Bool) (x : Group) (o : LoadOp),
     c < 64 → g < 64 → s.group c g = some x → s.coreRuns c = true → x.wait = .load → x.load = some o → o.ids = [] →
     ((fail = true → o.fromHost = false) → GoesOn (.loadComplete c g fail) s s c g
       (Group.next { o.got.foldl (fun y e => y.setD e.1 o.d (decide (o.size = 3)) e.2.toNat) x with
         load := none, wait := .none, state := .running } s c g)) ∧
     (fail = true → o.fromHost = true →
       Traps (.loadComplete c g fail) s (s.readFailed o.hostPort) c g x 0x05 false))

/-- R221, R235: a store whose lanes write the own device's memory performs them in ascending lane order, each the low bytes
of b at its address, and the group goes on; st.rel does so after its release. A store whose lowest lane is misaligned or may not
go where its address points traps with that cause; where it is a later lane, the lanes below it are performed and the trap says so.
A lane that addresses a peer sends it a WRITE of one slot (R195); one that
addresses a host is kept as the thread's last write by that port (R196); a write that R178 refuses makes the item FROZEN, and one
that fails otherwise traps. Rests on the model's reading in log entry 35. -/
def Obligations.GlobalStores : Prop :=
  (∀ (s s1 : State) (c g : Nat) (w : IFields) (x : Group) (s2 : State) (n : Nat), n = 2 ^ (w.md.toNat % 4) →
    (∀ l ∈ x.lanes w, let a := x.globalAddr w l w.imm.toInt
      gNode a = s1.node ∧ s1.globalCause c a n = none ∧ gVa a < 0x800000000000) →
    (Issues s s1 c g 0x53 w (storeForm w 0xF) x →
      WritesAll c x.upd s1 ((x.lanes w).map fun l =>
        (gVa (x.globalAddr w l w.imm.toInt), toBytes n (x.srcB w l (w.md.toNat % 4 == 3)))) s2 →
      GoesOn (.st c g w) s s2 c g (x.next s2 c g)) ∧
    (Issues s s1 c g 0x55 w (storeForm w 0xFFFF) x → w.md.toNat / 4 < 3 ∨ x.owed (x.exec w) = [] →
      WritesAll c x.upd (if w.md.toNat / 4 = 3 then s1.setGroup c g (x.released_ (x.exec w)) else s1)
        ((x.lanes w).map fun l =>
          (gVa (x.globalAddr w l w.imm.toInt), toBytes n (x.srcB w l (w.md.toNat % 4 == 3)))) s2 →
      GoesOn (.stRel c g w) s s2 c g
        (Group.next (if w.md.toNat / 4 = 3 then x.released_ (x.exec w) else x) s2 c g))) ∧
  (∀ (s s1 : State) (c g : Nat) (w : IFields) (x : Group) (l cause : Nat), (x.lanes w).head? = some l →
    s1.globalCause c (x.globalAddr w l w.imm.toInt) (2 ^ (w.md.toNat % 4)) = some cause →
    (Issues s s1 c g 0x53 w (storeForm w 0xF) x → Traps (.st c g w) s s1 c g x cause false) ∧
    (w.md.toNat / 4 < 3 → Issues s s1 c g 0x55 w (storeForm w 0xFFFF) x → Traps (.stRel c g w) s s1 c g x cause false)) ∧
  (∀ (s s1 : State) (c g : Nat) (w : IFields) (x : Group) (s2 : State) (n m cause : Nat) (done rest : List Nat) (cmd : Instr)
     (opc mods : Nat), n = 2 ^ (w.md.toNat % 4) → x.lanes w = done ++ m :: rest → done ≠ [] →
    (∀ l ∈ done, let a := x.globalAddr w l w.imm.toInt
      gNode a = s1.node ∧ s1.globalCause c a n = none ∧ gVa a < 0x800000000000) →
    s1.globalCause c (x.globalAddr w m w.imm.toInt) n = some cause →
    cmd = .st c g w ∧ opc = 0x53 ∧ mods = 0xF ∨ cmd = .stRel c g w ∧ opc = 0x55 ∧ mods = 0xFFFF ∧ w.md.toNat / 4 < 3 →
    Issues s s1 c g opc w (storeForm w mods) x →
    WritesAll c x.upd s1 (done.map fun l =>
      (gVa (x.globalAddr w l w.imm.toInt), toBytes n (x.srcB w l (w.md.toNat % 4 == 3)))) s2 →
    s2.group c g = some x → s2.node = s1.node → Traps cmd s s2 c g x cause true) ∧
  ∀ (s s1 : State) (c g : Nat) (w : IFields) (x : Group) (l ga n v : Nat) (cmd : Instr) (opc mods : Nat),
    cmd = .st c g w ∧ opc = 0x53 ∧ mods = 0xF ∨ cmd = .stRel c g w ∧ opc = 0x55 ∧ mods = 0xFFFF ∧ w.md.toNat / 4 < 3 →
    Issues s s1 c g opc w (storeForm w mods) x → x.lanes w = [l] → n = 2 ^ (w.md.toNat % 4) →
    ga = x.globalAddr w l w.imm.toInt → v = x.srcB w l (w.md.toNat % 4 == 3) → s1.globalCause c ga n = none →
    (gNode ga ≠ s1.node → Ends cmd s ((s1.storePeer c g l ga n v x.upd).advance c g)) ∧
    (∀ s2 e, gNode ga = s1.node → s1.write c x.upd (gVa ga) (toBytes n v) = (s2, e) →
      (e = none → 0x800000000000 ≤ gVa ga → s2.group c g = some x → GoesOn cmd s s2 c g (Group.next { x with
        portLast := Sparse.put x.portLast (2 * l + if gVa ga < 0xC00000000000 then 0 else 1) (BitVec.ofNat 64 ga) } s2 c g)) ∧
      (e = some (.mmu 5) → Ends cmd s ((s2.freezeItem c x).advance c g)) ∧
      (e = some .port → Ends cmd s (s2.advance c g)) ∧
      (∀ m, e = some m → m ≠ .mmu 5 → m ≠ .port → s2.group c g = some x → Traps cmd s s2 c g x m.cause false))

/-- R222, R232 to R234: an atomic of one lane on the own cluster's local memory reads the old value, writes the new one in its
place, and gives the lane the old value; at.addw adds as W32 and raises the flags of its addition. Two lanes of one address are
combined in lane order: the location receives both operands, and the second lane the value behind the first one's. An atomic of
one lane traps MISALIGN where its address is no multiple of its size, ATOMIC where another device owns it, and ACCESS in the
window of another cluster; at.addw with IMM[15] = 1 traps ILLEGAL. Wherever else the address of one lane lies, in HBM or in a
host window, an atomic other than at.addw is one read-modify-write there, of which the host takes only the add, the exchange and
the compare-and-swap. -/
def Obligations.LocalAtomics : Prop :=
  (∀ (s s1 : State) (c g : Nat) (w : IFields) (x : Group) (l ga va n cause : Nat),
    x.lanes w = [l] → ga = x.globalAddr w l (signed 14 w.imm.toNat) → va = gVa ga → sysRelease w = false →
    (va % n ≠ 0 ∧ cause = 0x02 ∨ va % n = 0 ∧ gNode ga ≠ s1.node ∧ cause = 0x06 ∨
      va % n = 0 ∧ gNode ga = s1.node ∧ cause = 0x03 ∧ 0x100000000000 ≤ va ∧ va < 0x100040000000 ∧
        (va - 0x100000000000) / 2 ^ 26 ≠ c / 4) →
    (∀ e ∈ atomOps, n = (if w.imm.getLsbD 15 then 8 else 4) → Issues s s1 c g e.opcode w (atForm w e.useC) x →
      Traps (e.cmd c g w) s s1 c g x cause false) ∧
    (n = 4 → w.imm.getLsbD 15 = false →
      Issues s s1 c g 0x66 w { d := .reg, a := .pair, b := .reg, imm := true, mods := 0xFFFF } x →
      Traps (.atAddw c g w) s s1 c g x cause false)) ∧
  (∀ (s s1 : State) (c g : Nat) (w : IFields) (x : Group) (l ga n : Nat) (wide : Bool),
    x.lanes w = [l] → ga = x.globalAddr w l (signed 14 w.imm.toNat) → sysRelease w = false → gNode ga = s1.node →
    n = (if wide then 8 else 4) → gVa ga % n = 0 → otherCluster c (gVa ga) = false →
    ∀ e ∈ atomOps, Issues s s1 c g e.opcode w (atForm w e.useC) x → wide = w.imm.getLsbD 15 →
      let r := s1.rmw c x (gVa ga) n (e.opcode ∈ [0x60, 0x67, 0x68]) fun old => e.new (8 * n) (w.imm.getLsbD 14) old (x.srcB w l wide)
        ((if wide then (x.pair l w.c.toNat).toNat else (x.cv w l).toNat) % 2 ^ (8 * n))
      r.1.group c g = some x →
      (∀ o, r.2 = .ok o → GoesOn (e.cmd c g w) s r.1 c g (Group.next (x.setD l w.d.toNat wide o.old) r.1 c g)) ∧
      (∀ cause, r.2 = .error cause → Traps (e.cmd c g w) s r.1 c g x cause false)) ∧
  (∀ (s s1 : State) (c g : Nat) (w : IFields) (x : Group), w.imm.getLsbD 15 = true →
    Issues s s1 c g 0x66 w { d := .reg, a := .pair, b := .reg, imm := true, mods := 0xFFFF } x →
    Traps (.atAddw c g w) s s1 c g x 0x01 false) ∧
  (∀ (s s1 : State) (c g : Nat) (w : IFields) (x : Group) (l ga k off n old b : Nat) (wide : Bool) (x' : Group),
    x.lanes w = [l] → ga = x.globalAddr w l (signed 14 w.imm.toNat) → gNode ga = s1.node →
    gVa ga = 0x100000000000 + k * 2 ^ 24 + off → off < 0xA00000 → k < 64 → k / 4 = c / 4 →
    n = (if wide then 8 else 4) → gVa ga % n = 0 → old = ofBytes (s1.localBytes k off n) → b = x.srcB w l wide →
    (sysRelease w = true → x.owed (x.exec w) = []) →
    x' = (if sysRelease w then x.released_ (x.exec w) else x) →
    (∀ e ∈ atomOps, Issues s s1 c g e.opcode w (atForm w e.useC) x → wide = w.imm.getLsbD 15 →
      let new := e.new (8 * n) (w.imm.getLsbD 14) old b
        ((if wide then (x.pair l w.c.toNat).toNat else (x.cv w l).toNat) % 2 ^ (8 * n))
      GoesOn (e.cmd c g w) s (s1.setLocalBytes k off (toBytes n new)) c g (Group.next (x'.setD l w.d.toNat wide old) s1 c g)) ∧
    (Issues s s1 c g 0x66 w { d := .reg, a := .pair, b := .reg, imm := true, mods := 0xFFFF } x → w.imm.getLsbD 15 = false →
      wide = false →
      let r := ((w32Val (BitVec.ofNat 32 old)).add (w32Val (x.bv w l)))
      let new := toW32 .rne r.1
      GoesOn (.atAddw c g w) s ((s1.setLocalBytes k off (toBytes 4 new.1.toNat)).raiseVec c (r.2 ||| new.2)) c g
        (Group.next (x'.setReg l w.d.toNat (BitVec.ofNat 32 old)) s1 c g))) ∧
  (∀ (s s1 : State) (c g : Nat) (w : IFields) (x : Group) (l m ga k off n old : Nat) (wide : Bool),
    x.lanes w = [l, m] → (∀ i ∈ [l, m], ga = x.globalAddr w i (signed 14 w.imm.toNat)) → gNode ga = s1.node →
    gVa ga = 0x100000000000 + k * 2 ^ 24 + off → off < 0xA00000 → k < 64 → k / 4 = c / 4 →
    n = (if wide then 8 else 4) → gVa ga % n = 0 → old = ofBytes (s1.localBytes k off n) → sysRelease w = false →
    ∀ e ∈ atomOps, Issues s s1 c g e.opcode w (atForm w e.useC) x → wide = w.imm.getLsbD 15 →
      (
        let next (v i : Nat) : Nat := e.new (8 * n) (w.imm.getLsbD 14) v (x.srcB w i wide)
          ((if wide then (x.pair i w.c.toNat).toNat else (x.cv w i).toNat) % 2 ^ (8 * n)) % 2 ^ (8 * n)
        GoesOn (e.cmd c g w) s (s1.setLocalBytes k off (toBytes n (next (next old l) m))) c g
          (Group.next ((x.setD l w.d.toNat wide old).setD m w.d.toNat wide (next old l)) s1 c g)))

/-- R223: tissue appends the 64 bytes at its local address to the queue of its stream's engine; in a U group it traps ILLEGAL.
R225: msereq and dmareq give d = 2 where the ring is disabled, 1 where it is full, and 0 where the entry has been appended, with
UPD set for a U group; ring 0 and dies above 5 trap REQUEST. A local address that is misaligned or outside traps with its cause.
-/
def Obligations.DescriptorsAndRequests : Prop :=
  ∀ (s s1 : State) (c g : Nat) (w : IFields) (x : Group) (l : Nat), x.lowest l →
    (Issues s s1 c g 0x80 w { a := .reg, imm := true, plain := true } x →
      (x.stream = .u → Traps (.tissue c g w) s s1 c g x 0x01 false) ∧
      (∀ cause, x.stream ≠ .u → localCause (x.localAddr w l) 64 = some cause → Traps (.tissue c g w) s s1 c g x cause false)) ∧
    (Issues s s1 c g 0x84 w { d := .reg, a := .reg, imm := true, plain := true } x →
      (w.imm.toNat / 16 % 4 = 0 ∨ 5 < w.imm.toNat % 8 → Traps (.msereq c g w) s s1 c g x 0x0B false) ∧
      (∀ cause, w.imm.toNat / 16 % 4 ≠ 0 → w.imm.toNat % 8 ≤ 5 → localCause ((x.av w l).toNat : Int) 64 = some cause →
        Traps (.msereq c g w) s s1 c g x cause false)) ∧
    (∀ cause, Issues s s1 c g 0x85 w { d := .reg, a := .reg, imm := true, plain := true } x →
      localCause ((x.av w l).toNat : Int) 64 = some cause → Traps (.dmareq c g w) s s1 c g x cause false) ∧
    (∀ e, Issues s s1 c g 0x80 w { a := .reg, imm := true, plain := true } x → Stream.engine x.stream = some e →
      localCause (x.localAddr w l) 64 = none →
      ((s1.eng c e).queue.length < 16 → GoesOn (.tissue c g w) s
        (s1.modEng c e fun q => { q with up := true, queue := q.queue ++ [
            { words := toWords 8 (s1.localBytes c (x.localAddr w l).toNat 64), group := g, taken := false, status := 0,
              flags := 0, recomp := 0, skipped := 0, blocks := [] }] }) c g
        (Group.next { x with outstanding := x.outstanding + 1 } s1 c g)) ∧
      (16 ≤ (s1.eng c e).queue.length → Leaves (.tissue c g w) s s1 c g { x with state := .blocked, wait := .tissue })) ∧
    (∀ (mse : Bool) (r : RingRegs) (i j : Nat) (cmd : Instr) (opc upd : Nat),
      (mse = true → r = mseRing ∧ i = w.imm.toNat % 8 ∧ j = w.imm.toNat / 16 % 4 ∧ j ≠ 0 ∧ i ≤ 5 ∧ cmd = .msereq c g w ∧
        opc = 0x84 ∧ upd = 45) →
      (mse = false → r = dmaRing ∧ i = w.imm.toNat % 32 ∧ j = 0 ∧ cmd = .dmareq c g w ∧ opc = 0x85 ∧ upd = 49) →
      Issues s s1 c g opc w { d := .reg, a := .reg, imm := true, plain := true } x → localCause ((x.av w l).toNat : Int) 64 = none →
      let give (v : Nat) : Group := (lanesOf x.active).foldl (fun y k => y.setReg k w.d.toNat (BitVec.ofNat 32 v)) x
      (s1.ringOn r i j = false → GoesOn cmd s s1 c g (Group.next (give 2) s1 c g)) ∧
      (s1.ringOn r i j = true → s1.ringFull r i j = true → GoesOn cmd s s1 c g (Group.next (give 1) s1 c g)) ∧
      (∀ s2, s1.ringOn r i j = true → s1.ringFull r i j = false → s2.group c g = some x →
        s1.ringPush r i j c x.upd (let ws := toWords 8 (s1.localBytes c (x.av w l).toNat 64)
          if x.stream = .u then ws.modify 0 (fun v => v ||| BitVec.ofNat 64 (2 ^ upd)) else ws) = (s2, none) →
        GoesOn cmd s s2 c g (Group.next (give 0) s2 c g)))

/-- R229: bmark arrives and goes on, and bwait arrives and waits, while another group of the block has still to arrive; a
bwait with which every live thread has arrived ends the barrier's generation and goes on. R227: a path that blocks above a pending
path that is not blocked is exchanged with it. R230: a bwait of a path traps BARRIER_MISMATCH where another path of the group is
blocked at another barrier, unless a group of the block is stopped; and where it leaves both groups of a block blocked at barriers
that cannot complete, both trap. -/
def Obligations.NamedBarriers : Prop :=
  (∀ (s s1 : State) (c g : Nat) (w : IFields) (x : Group) (b : Block), s1.blockOf c x.block = some b → g ∈ b.slots →
    othersRun s1 c g b → s1.blockStopped c b = false →
    (∃ e ∈ x.stack, ∃ k, e.bar = some k ∧ k ≠ w.imm.toNat % 16) →
    Issues s s1 c g 0x78 w { imm := true, plain := true } x → Traps (.bwait c g w) s s1 c g x 0x07 false) ∧
  (∀ (s s1 : State) (c g h m n : Nat) (w : IFields) (x y : Group) (b : Block), n = w.imm.toNat % 16 → g ≠ h →
    s1.blockOf c x.block = some b → b.slots = [g, h] → b.barriers.length = 16 → s1.group c h = some y → y.block = x.block →
    y.state = .blocked → y.wait = .barrier m → m < 16 → m ≠ n → y.live ≠ 0 → y.stack = [] →
    x.stack = [] → x.active = x.live → x.live ≠ 0 → x.wait = .none →
    (∀ e ∈ b.barriers, arrivedOf e g = 0) → (∀ e, b.barriers[n]? = some e → arrivedOf e h = 0) →
    s1.saf.overflow = false → 4 ≤ s1.erFree →
    Issues s s1 c g 0x78 w { imm := true, plain := true } x →
    Gives (.bwait c g w) s fun t => ∀ k ∈ [g, h], ∃ z, t.group c k = some z ∧ z.cause = 0x07 ∧
      z.state = if s1.debugMode c then .halted else .parked) ∧
  ∀ (s s1 : State) (c g : Nat) (w : IFields) (x : Group) (b : Block) (n : Nat),
    n = w.imm.toNat % 16 → s1.blockOf c x.block = some b → g ∈ b.slots → b.barriers.length = 16 →
    let arrived : Block := { b with barriers := b.barriers.modify n fun y =>
      { arrived := (g, arrivedOf y g ||| x.active) :: y.arrived.filter fun e => e.1 != g } }
    let at_ (t : State) (y : Group) (k : Block) : Prop :=
      t.group c g = some y ∧ t.blockOf c x.block = some k ∧
        t = keepFixed s { s1 with cores := t.cores } ∧ ∀ c' g', (c' ≠ c ∨ g' ≠ g) → t.group c' g' = s1.group c' g'
    let merges : Prop := ∀ e ∈ x.stack, e.bar = none ∧ e.kind = .merge
    (∀ e r, x.stack = e :: r → e.kind = .pending → (∀ f ∈ x.stack, f.bar = none) → e.mask ≠ 0 → topMerge r ≠ some e.pc →
      othersRun s1 c g b → Issues s s1 c g 0x78 w { imm := true, plain := true } x →
      Gives (.bwait c g w) s fun t => at_ t (Group.ended { x with
        stack := { kind := .pending, pc := x.pc, mask := x.active, bar := some n } :: r, pc := e.pc, active := e.mask }
        (s1.haltBit c g)) arrived) ∧
    (merges → othersRun s1 c g b → Issues s s1 c g 0x79 w { imm := true, plain := true } x →
      Gives (.bmark c g w) s fun t => at_ t (x.next s1 c g) arrived) ∧
    (merges → othersRun s1 c g b → Issues s s1 c g 0x78 w { imm := true, plain := true } x →
      Gives (.bwait c g w) s fun t => at_ t { x with state := .blocked, wait := .barrier n } arrived) ∧
    (b.slots = [g] → x.wait = .none → x.live ≠ 0 → x.active = x.live → (∀ y ∈ b.barriers, y.arrived = []) → x.stack = [] →
      Issues s s1 c g 0x78 w { imm := true, plain := true } x →
      Gives (.bwait c g w) s fun t => at_ t (x.next s1 c g) b)

/-- R224: a group whose last lanes exit at done, with no descriptor outstanding, leaves its slot, and a block that it was the
last group of is freed; done waits while descriptors are outstanding, traps TILEDESC where one was discarded, and does nothing
where no lane executes. R237, R240: KILL ends every thread of a parked or halted group, and so does the end of its parking time
outside debug mode; a group with no descriptor outstanding leaves its slot, and its item will complete with FAULT. R215, R235 to
R238: probe traps BREAK and trap traps SOFT where a lane executes, and go on where none does: the group keeps its PC, parks, or
halts where the core is in debug mode, and a PROGRAM record with the trap's cause is written; no byte of memory changes, but for
SEQ's report of the trap in the step status while a program runs. -/
def Obligations.GroupsStopAndLeave : Prop :=
  ((∀ (s s1 : State) (c g : Nat) (w : IFields) (x : Group), Issues s s1 c g 0x9E w {} x →
       (x.exec w = 0 → GoesOn (.doneW c g w) s s1 c g (x.next s1 c g)) ∧
       (x.exec w ≠ 0 → x.badDesc = true → Traps (.doneW c g w) s s1 c g { x with badDesc := false } 0x0A false) ∧
       (x.exec w ≠ 0 → x.badDesc = false → x.outstanding ≠ 0 →
         Leaves (.doneW c g w) s s1 c g { x with state := .blocked, wait := .done (x.exec w) })) ∧
    (∀ (s s1 : State) (c g : Nat) (w : IFields) (x : Group) (b : Block),
       Issues s s1 c g 0x9E w {} x → x.badDesc = false → x.outstanding = 0 → x.exec w = x.live → x.live ≠ 0 → x.stack = [] →
       s1.blockOf c x.block = some b → b.slots = [g] →
       Gives (.doneW c g w) s fun t => t.group c g = none ∧ t.blockOf c x.block = none ∧
         ∀ c' g', (c' ≠ c ∨ g' ≠ g) → t.group c' g' = s1.group c' g') ∧
    (∀ (s : State) (port slot c g : Nat) (x : Group) (b : Block) (i : Item) (cmd : Instr), port < 2 → slot < 80 → g < 64 → c < 64 →
       s.logicalOf slot = some c → s.phys c = slot → s.group c g = some x → x.killed = false → x.outstanding = 0 →
       s.blockOf c x.block = some b → ((s.core c).items.find? fun j => j.id == b.item) = some i →
       othersRun s c g b →
       (cmd = .groupKill port slot g ∧ s.writable port (Reg.addr .CORE_GCTL slot g) = true ∧ (x.state = .parked ∨ x.state = .halted) ∨
         cmd = .parkTimeout c g ∧ x.state = .parked ∧ s.coreRuns c = true ∧ s.debugMode c = false ∧
           s.fld F.CORE_FAULTCTL_PARKTO slot ≠ 0) →
       Gives cmd s fun t => t.group c g = none ∧ (∀ c' g', (c' ≠ c ∨ g' ≠ g) → t.group c' g' = s.group c' g') ∧
         ((t.core c).items.find? fun j => j.id == b.item) = some { i with faulted := true } ∧
         t = keepFixed s { s with cores := t.cores })) ∧
  (∀ (s s1 : State) (c g : Nat) (w : IFields) (x : Group) (cmd : Instr) (opc cause : Nat) (imm : Bool),
      (cmd = .probe c g w ∧ opc = 0x9D ∧ cause = 0x0D ∧ imm = false) ∨
        (cmd = .trapSoft c g w ∧ opc = 0x9F ∧ cause = 0x0E ∧ imm = true) →
      Issues s s1 c g opc w { imm := imm } x →
      (x.exec w = 0 → GoesOn cmd s s1 c g (x.next s1 c g)) ∧
      (x.exec w ≠ 0 → s1.saf.overflow = false → 2 ≤ s1.erFree → Gives cmd s fun t =>
        t.group c g = some { x with
          state := if s1.debugMode c then .halted else .parked, cause := BitVec.ofNat 8 cause, partly := false,
          stepping := false, wait := .none, load := none } ∧
        (∀ c' g', (c' ≠ c ∨ g' ≠ g) → t.group c' g' = s1.group c' g') ∧
        t.erTail = (s1.erTail + 1) % 2 ^ 32 ∧
        t.reg .SAF_ERRING (s1.erTail % 64) 0 = 0x02100700 ∧
        t.reg .SAF_ERRING (s1.erTail % 64) 1 = BitVec.ofNat 32 s1.erTail ∧
        t.reg .SAF_ERRING (s1.erTail % 64) 8 = BitVec.ofNat 32 (opc * 2 ^ 24 + cause) ∧
        (s1.inStep = false → t.hbm = s1.hbm ∧ t.lmem = s1.lmem ∧ t.host = s1.host)))

/-! ## The front end of a core (spec/07) -/

/-- R205 to R207, R341: a work item is taken from the head of its stream's ring: a NOP completes OK at once, a LAUNCH that
is malformed completes MALFORMED, one of no blocks EMPTY, any other waits to start; a MARK waits for the earlier items of
its stream. R205: a tail write below the entry count while no step program is loaded moves the tail of the pass stream and
restarts a stopped stream; one at or above the entry count, or while a program is loaded, is ignored. Rests on the model's reading in log entry 39. -/
def Obligations.WorkItemsAndTails : Prop :=
  (∀ (s s1 : State) (c : Nat) (st : Stream) (w : List DWord), c < 64 → s.takesItems c st = true →
     s.ringRead passRing (s.phys c) (streamIdx st) c = (s1, .ok w) → s1.avail c = true →
     let popped := s1.ringPop passRing (s1.phys c) (streamIdx st)
     let cnt := dbits (nth 0 w 3) 15 0
     let enters (mark : Bool) : State := popped.modCore c fun k =>
       { k with items := k.items ++ [itemOf k.nextItem st mark w], nextItem := k.nextItem + 1 }
     (itemKind w = 0 → exec (.workItemNop c st) s = .next (keepFixed s (popped.itemStatus c cnt 0))) ∧
     (itemKind w = 1 → exec (.launch c st) s = .next (keepFixed s (
       if launchBad w then popped.itemStatus c cnt 2
       else if dbits (nth 0 w 1) 63 48 = 0 then popped.itemStatus c cnt 1
       else enters false))) ∧
     (itemKind w = 2 → c < s1.cores.length → (∀ j ∈ (s1.core c).items, j.mark = false ∧ j.id < (s1.core c).nextItem) →
       exec (.workItemMark c st) s = .next (keepFixed s (
         if ∃ j ∈ (s1.core c).items, j.stream = st then enters true
         else (popped.modCore c fun k => { k with nextItem := k.nextItem + 1 }).itemStatus c cnt 0)))) ∧
  (∀ (s : State) (port slot st c : Nat) (v : Word), port < 2 → slot < 80 → st < 3 →
     s.writable port (Reg.addr .CORE_PSTAIL slot st) = true →
     (s.progLoaded = false → v.toNat % 4096 < s.ringSize passRing slot st → s.logicalOf slot = some c →
       exec (.pstailWrite port slot st v) s = .next (keepFixed s
         ((s.setReg .CORE_PSTAIL slot st (BitVec.ofNat 32 (v.toNat % 4096))).modCore c fun k =>
           { k with stopped := k.stopped.set st false }))) ∧
     (s.progLoaded = true ∨ s.ringSize passRing slot st ≤ v.toNat % 4096 → exec (.pstailWrite port slot st v) s = .next s))

/-- R208, R209: the next block of a waiting item starts where its slots, registers and local memory are free together and it
is the stream's turn: each of its groups starts at the entry with ARG in v0 and v1, every predicate false, all lanes active,
an empty stack, and a context of zeros with COARSE 1.0. Rests on the model's reading in log entry 17. -/
def Obligations.BlocksStart : Prop :=
  ∀ (s : State) (c : Nat) (st : Stream) (i : Item) (base : Nat), c < 64 → s.coreRuns c = true →
    (s.core c).waiting st = some i → (s.core c).fits i = true → (s.core c).lmemFit i.lmem = some base →
    (∀ t ∈ turnBefore (s.core c).lastFreed st, ∀ j, (s.core c).waiting t = some j → (s.core c).fits j = false) →
    Gives (.blockStart c st) s fun t =>
      t = keepFixed s { s with cores := t.cores } ∧
      (∀ c', c' ≠ c → t.core c' = s.core c') ∧
      (∃ b ∈ (t.core c).blocks, b.id = (s.core c).nextBlock ∧ b.item = i.id ∧ b.index = i.started ∧ b.lmemBase = base ∧
        b.lmemBytes = i.lmem ∧ b.slots = (s.core c).freeSlots.take i.groups) ∧
      ∀ g n, ((s.core c).freeSlots.take i.groups)[n]? = some g → ∃ x, t.group c g = some x ∧
        x.state = .running ∧ x.stream = i.stream ∧ x.block = (s.core c).nextBlock ∧ x.index = n ∧ x.nregs = 8 * i.regs8 ∧
        x.pc = i.entry ∧ x.active = BitVec.allOnes 64 ∧ x.live = BitVec.allOnes 64 ∧ x.stack = [] ∧
        x.ctxStream = 0 ∧ x.ctxTensor = 0 ∧ x.ctxDraw = 0 ∧ x.ctxCoarse = 0x3F800000 ∧
        (∀ l < 64, ∀ k < 256, x.reg l k = if k = 0 then i.arg.setWidth 32 else if k = 1 then (i.arg >>> 32).setWidth 32 else 0) ∧
        ∀ l < 64, ∀ k < 8, x.pred l k = decide (k = 0)

/-- R226, R237, R238: a parked or halted group resumes at its PC under REPLAY, and the masks that were written take effect then: the
lanes of the active mask and of the stack are its live ones, and paths that have ended are left; a halted group of a core in debug
mode steps under STEP; a running one halts under HALT. Both clauses take a group whose block is held, with another group that runs
and has arrived at no barrier, or alone and with no arrivals. R204, R237: a write of CORE.FECTL with
bit 31 empties the core's instruction cache; a write of CORE.DBGDATA patches what CORE.DBGSEL selects of a parked or halted
group. Rests on the model's reading in log entries 33 and 60. -/
def Obligations.GroupsAreDebugged : Prop :=
  (∀ (s : State) (port slot c g : Nat) (x : Group), port < 2 → slot < 80 → g < 64 →
     s.writable port (Reg.addr .CORE_GCTL slot g) = true → s.logicalOf slot = some c → s.group c g = some x →
     x.killed = false → s.phys c = slot →
     (∀ b, x.lanesLeft ≠ 0 → s.blockOf c x.block = some b → g ∈ b.slots →
       let resumed (step : Bool) : Group := Group.settle { x with state := .running, stepping := step, live := x.lanesLeft }
       let quiet (y : Group) : Prop :=
         othersRun s c g b ∨ b.slots = [g] ∧ (∀ k ∈ b.barriers, k.arrived = []) ∧ y.state = .running
       (x.state = .parked ∨ x.state = .halted → quiet (resumed false) → exec (.groupReplay port slot g) s = .next (keepFixed s
         ((s.setFld F.CORE_GCTL_HALT 0 slot g).setGroup c g (resumed false)))) ∧
       (x.state = .halted → quiet (resumed true) → s.flag F.CORE_FAULTCTL_MODE slot = true →
         exec (.groupStep port slot g) s = .next (keepFixed s (s.setGroup c g (resumed true))))) ∧
     (x.state = .running → x.stepping = false → s.flag F.CORE_FAULTCTL_MODE slot = true →
       exec (.groupHalt port slot g) s = .next (keepFixed s
         ((s.setFld F.CORE_GCTL_HALT 1 slot g).setGroup c g { x with state := .halted })))) ∧
  (∀ (s : State) (port slot c : Nat) (v : Word), port < 2 → slot < 80 → s.logicalOf slot = some c →
     (s.writable port (Reg.addr .CORE_FECTL slot 0) = true → v.toNat.testBit 31 = true →
       exec (.icinv port slot v) s = .next (keepFixed s
         ((s.setReg .CORE_FECTL slot 0 (Reg.written .CORE_FECTL (s.reg .CORE_FECTL slot 0) v)).modCore c fun k =>
           { k with icache := [] }))) ∧
     (∀ (x : Group) (sel : Word), s.writable port (Reg.addr .CORE_DBGDATA slot 0) = true → sel = s.reg .CORE_DBGSEL slot 0 →
       s.group c (F.CORE_DBGSEL_GROUP.of sel) = some x → x.state = .parked ∨ x.state = .halted →
       (F.CORE_DBGSEL_CLASS.of sel = 0 → F.CORE_DBGSEL_INDEX.of sel < x.nregs →
         exec (.dbgdataWrite port slot v) s = .next (keepFixed s (s.setGroup c (F.CORE_DBGSEL_GROUP.of sel)
           (x.setReg (F.CORE_DBGSEL_LANE.of sel) (F.CORE_DBGSEL_INDEX.of sel) v)).drawn)) ∧
       (F.CORE_DBGSEL_CLASS.of sel = 3 → F.CORE_DBGSEL_INDEX.of sel = 1 →
         exec (.dbgdataWrite port slot v) s = .next (keepFixed s (s.setGroup c (F.CORE_DBGSEL_GROUP.of sel)
           { x with ctxTensor := v }).drawn))))

/-! ## Matrix engines (spec/03, spec/04) -/

/-- R69 to R99: an engine takes the descriptor at the head of its queue: a NOP ends OK, or MALFORMED for an RSVD field; an
MMA that fails a check ends with that check's status; one that passes computes its output blocks, which no memory shows
until it completes, and leaves its bank drained or, undrained, recorded; one with K = 0 and DRAIN = 0 leaves its bank as it was.
R73 to R75: for B16 operands, a fresh drained product without C has at the place of each element of D in W32 the little-endian
word of α times the chunk sums, each rounded once and added up in W32. R126, R127: the samples of a tensor with registered sources
enter the check unit of the core's cluster. Rests on the model's reading in log entry 36. -/
def Obligations.DescriptorsAreTaken : Prop :=
  ∀ (s : State) (c : Nat) (e : Eng) (q : QDesc) (d : TileDesc) (bank : Bank), c < 64 → s.takes c e = some q →
    d = readDesc q.words → d.cplOk = true → bank = (s.eng c e).bank d.bank →
    (d.op = 0 → exec (.tileNop c e) s = .next (keepFixed s
      (s.setHead c e { q with taken := true, status := if d.rsvd then 2 else 0 }))) ∧
    (d.op ≠ 0 → d.check bank ≠ 0 → exec (.mma c e) s = .next (keepFixed s
      (s.setHead c e { q with taken := true, status := d.check bank }))) ∧
    (d.op ≠ 0 → d.check bank = 0 → d.k = 0 → d.drain = false → s.saf.sram = [] →
      exec (.mma c e) s = .next (keepFixed s (s.setHead c e { q with taken := true }))) ∧
    (d.op ≠ 0 → d.check bank = 0 → (d.k ≠ 0 ∨ d.drain = true) → s.saf.sram = [] →
      Gives (.mma c e) s fun t =>
        (∃ h, (t.eng c e).queue = h :: (s.eng c e).queue.tail ∧ h.taken = true ∧ h.status = q.status ∧ h.words = q.words ∧
          h.group = q.group ∧
          h.blocks = (List.range (d.batch * d.perEntry e)).map (fun blk => (s.mmaBlock c e d bank.acc blk).1) ∧
          (d.afmt = 2 → d.bfmt = 2 → d.dfmt = 3 → d.noC = true → d.accm = false → d.drain = true → 0 < d.k →
            ∀ b < d.batch, ∀ i < d.m, ∀ j < d.n, ∀ n < 4, ∃ k ∈ h.blocks,
              (d.dAddr b i j + n, BitVec.ofNat 8 ((s.productB16 c d b i j).toNat / 2 ^ (8 * n))) ∈ k.bytes) ∧
          (match s.blotSources d.tensor with
            | none => t = keepFixed s { s with cores := t.cores }
            | some src => t = keepFixed s { s with cores := t.cores, blot := t.blot, regs := t.regs } ∧
              if s.eligible d then
                t.blot = (s.sampleTiles (s.putLocal c (h.blocks.flatMap (·.bytes))) c d src).blot ∧
                t.regs = (s.sampleTiles (s.putLocal c (h.blocks.flatMap (·.bytes))) c d src).regs
              else t.blot = s.blot ∧ t.regs = s.regs)) ∧
        (d.drain = true → (t.eng c e).bank d.bank = Bank.reset) ∧
        (d.drain = false → ((t.eng c e).bank d.bank).record = some ⟨d.part, d.m, d.n, d.batch - 1⟩) ∧
        (t.eng c e).bank (!d.bank) = (s.eng c e).bank (!d.bank))

/-- R99, R224: a descriptor that has executed makes its D visible, raises its flags in the core's register, writes its record
at CPLADDR, and leaves the queue; its group has one descriptor less outstanding. -/
def Obligations.DescriptorsComplete : Prop :=
  ∀ (s : State) (c : Nat) (e : Eng) (q : QDesc) (rest : List QDesc) (x : Group) (d : TileDesc), c < 64 →
    s.diesUp = true → (s.core c).moving = none → (s.eng c e).queue = q :: rest → (s.eng c e).recomp = [] →
    (s.eng c e).failing = false → q.taken = true → q.status = 0 → d = readDesc q.words → d.cplOk = true →
    s.group c q.group = some x → x.killed = false → x.wait = .none →
    (∀ k ∈ (s.core c).groups, k.2.wait ≠ .tissue) →
    Gives (.descriptorComplete c e) s fun t =>
      t.lmem = ((s.putLocal c (q.blocks.flatMap (·.bytes))).setLocalBytes c d.cpl
        (toBytes 8 (nth 0 q.words 7).toNat
          ++ toBytes 8 (q.allFlags.toNat * 2 ^ 52 + min q.recomp 65535 * 2 ^ 32 + q.skipped))).lmem ∧
      t.reg .NUM_CFLAGS c 0 = s.reg .NUM_CFLAGS c 0 ||| BitVec.ofNat 32
        (match e with | .f => q.allFlags.toNat | .b => q.allFlags.toNat * 16) ∧
      (t.eng c e).queue = rest ∧ t.group c q.group = some { x with outstanding := x.outstanding - 1 } ∧
      t.hbm = s.hbm ∧ t.host = s.host ∧ t.out = s.out

/-- R86: an engine whose queue has stayed empty ramps its columns down unless IDLE is 0. R127, R128: the oldest sample of a
check unit counts in the bin of its class, or as non-finite. R90, R91: a mismatch in the block in progress puts its nib under
recomputation, with the CRC-32C of the operands that the nib was fed; a clean recomputation counts one recomputed block of the
descriptor, and one with the same signature whose row's spare is free counts two. -/
def Obligations.EnginesAreChecked : Prop :=
  (∀ (s : State) (c : Nat) (e : Eng), c < 64 → (s.eng c e).queue = [] → s.fld F.CORE_MXCTL_IDLE (s.phys c) ≠ 0 →
    exec (.engineIdle c e) s = .next (keepFixed s (s.modEng c e fun x => { x with up := false }))) ∧
  (∀ (s : State) (cl : Nat) (x : BlotSample) (r : List BlotSample), cl < 16 → nth [] s.blot cl = x :: r → s.diesUp = true →
    Gives (.blotterSampleComplete cl) s fun t =>
      t = keepFixed s { s with blot := s.blot.set cl r, regs := t.regs } ∧
      (x.nonfin = true → t.fld F.NUM_BLSTAT_NONFIN x.cls = min (s.fld F.NUM_BLSTAT_NONFIN x.cls + 1)
        (2 ^ (F.NUM_BLSTAT_NONFIN.hi - F.NUM_BLSTAT_NONFIN.lo + 1) - 1)) ∧
      (x.nonfin = false → t.fld F.NUM_BLHIST_COUNT x.cls x.bin = min (s.fld F.NUM_BLHIST_COUNT x.cls x.bin + 1)
        (2 ^ (F.NUM_BLHIST_COUNT.hi - F.NUM_BLHIST_COUNT.lo + 1) - 1))) ∧
  (∀ (s : State) (c : Nat) (e : Eng) (q : QDesc) (rest : List QDesc), c < 64 → s.diesUp = true →
     (s.eng c e).queue = q :: rest →
     (∀ (m : NibMismatch) (col b i j : Nat), m.ok e = true → (s.slot (s.phys c)).logicalCol e m.row m.col = some col →
       (readDesc q.words).nibOrigin e m.block m.row col = some (b, i, j) → q.taken = true → q.status = 0 →
       (readDesc q.words).op = 1 → m.chunk < tilesOf (readDesc q.words).k →
       (∀ y ∈ (s.eng c e).recomp, y.mis.row ≠ m.row ∨ y.mis.col ≠ m.col) →
       exec (.chunkMismatch c e m) s = .next (keepFixed s (s.modEng c e fun x => { x with recomp := x.recomp ++
         [⟨m, m.col, BitVec.ofNat 32 (crc32c (s.nibOperands c (readDesc q.words) b i j m.chunk))⟩] }))) ∧
     (∀ (y : Recomp) (ys : List Recomp) (r : RecompResult) (n : Nat), (s.eng c e).recomp = y :: ys →
       (r = .clean ∧ n = 1 ∨
         r = .same ∧ n = 2 ∧ (s.slot (s.phys c)).spareUsed e y.mis.row = false) →
       Gives (.recomputationComplete c e r) s fun t =>
         (t.eng c e).recomp = ys ∧ (t.eng c e).queue = { q with recomp := q.recomp + n } :: rest ∧
         (∀ c' g', t.group c' g' = s.group c' g') ∧ ∀ c' e', (c' ≠ c ∨ e' ≠ e) → t.eng c' e' = s.eng c' e'))

/-! ## Memory-side engines (spec/05) -/

/-- R147, R150, R152: a tensor command that a check rejects, with no failed access to record, completes with that check's
status and changes no memory; a NOP completes OK, a reserved opcode MALFORMED. R153, R392: a die writes the 16-byte record
of a command of a ring at CPLADDR + 16k and its ring is no longer busy; the result of one of SEQ's goes to SEQ, and of one
of a queue pair's to its descriptor. R147: a write of a ring's tail restarts a stopped ring. R156: a packet held for a range
that did not open in time is discarded and counted, and SEQ is told. Rests on the model's reading in log entry 39. -/
def Obligations.MseChecksAndRecords : Prop :=
  (∀ (s s1 : State) (k r : Nat) (c : MseCmd), TakesMse s s1 k r c →
     (∀ (cmd : Instr) (st : Nat),
       ((∃ e ∈ tensorOps, cmd = e.cmd k r ∧ c.op = e.op) ∨ cmd = .mseHist k r ∧ c.op = 6 ∨ cmd = .openRange k r ∧ c.op = 0x10) →
       s1.mseCheck k c = some (st, none) → EndsMse cmd s s1 k r c (MseRes.of st)) ∧
     (c.op = 0 → EndsMse (.mseNop k r) s s1 k r c (MseRes.of (if c.malformed then 2 else 0))) ∧
     (¬ c.op ∈ [0, 1, 2, 3, 4, 5, 6, 0x10, 0x11, 0x12, 0x13] → EndsMse (.mseNop k r) s s1 k r c (MseRes.of 2))) ∧
  (∀ (s : State) (k : Nat), k < 6 →
     (∀ r d l, r < 4 → s.mseRuns = true → (s.mse k).done = (r, d) :: l →
       let idle := (s.modMse k fun m => { m with done := [] }).setFld F.MSE_STAT_RBUSY 0 k
       (d.issuer = .ring → d.noRecord = false → exec (.mseCommandComplete k r) s = .next (keepFixed s
         (idle.put (agentMse k) (d.cpl + 16 * k) (toBytes 8 (d.value.toNat * 2 ^ 32 + d.count.toNat) ++
           toBytes 8 (d.status % 256 * 2 ^ 56 + d.flags.toNat * 2 ^ 52 + (if d.nonfin then 2 ^ 51 else 0) + k * 2 ^ 48
             + d.node.toNat * 2 ^ 32 + d.offset.toNat))))) ∧
       (d.issuer = .ring → d.noRecord = true → exec (.mseCommandComplete k r) s = .next (keepFixed s idle)) ∧
       (∀ t, d.issuer = .seq t → exec (.mseCommandComplete k r) s = .next (keepFixed s
         (idle.seqMseRecord t ⟨k, d.status, d.nonfin, d.node, d.offset.toNat, d.count.toNat⟩).pump)) ∧
       (∀ p q i, d.issuer = .queue p q i → exec (.mseCommandComplete k r) s = .next (keepFixed s
         (idle.queueResult p q i k d.status d.flags d.value d.count)))) ∧
     (∀ port r v, port < 2 → r < 4 → s.writable port (Reg.addr .MSE_RTAIL k r) = true →
       exec (.mseRtailWrite port k r v) s = .next (keepFixed s
         ((s.setReg .MSE_RTAIL k r (BitVec.ofNat 32 (v.toNat % 4096))).modMse k fun m => { m with
           stopped := m.stopped.set r false }))) ∧
     (∀ l p rest, s.mseRuns = true → (s.mse k).held = (l, p) :: rest → exec (.notopenTimeout k) s = .next (keepFixed s
       ((((s.modMse k fun m => { m with held := rest }).unbuffer l p).count
         F.MSE_EVENT_NOTOPEN 1 k).seqNotOpen (16 * p.addr.toNat)).pump)))

/-- R43, R56, R102, R145, R148, R158 to R160: a tensor command that passes its checks processes the tiles homed on the die in
ascending order: AMAX, ENCODE, WIDEN, FILL and COPY as their table says, with the die's sticky flags and, for ENCODE, the
crush count of its class; HIST counts every element, or each tile of two copies, in its bin. -/
def Obligations.TensorCommands : Prop :=
  ∀ (s s1 : State) (k r : Nat) (c : MseCmd), TakesMse s s1 k r c → s1.mseCheck k c = none →
    (∀ e ∈ tensorOps, ∀ s2 y, c.op = e.op → TileSteps e k c s1 (MseRes.of 0) (s1.tilesFor k c) s2 y →
      EndsMse (e.cmd k r) s
        (if e.op = 2 then (s2.raiseMse k y.flags).count F.NUM_CRUSH_COUNT y.count (c.tensor.toNat / 2 ^ 29)
         else s2.raiseMse k y.flags) k r c y) ∧
    (∀ t s2 b x, c.op = 6 → s1.tilesFor k c = [t] → s1.mseTileEntry k c.src c.sfmt c.ssp t = (s2, .ok (b, x)) →
      (c.mode = 0 → EndsMse (.mseHist k r) s
        (((wideTile c.sfmt b).foldl (fun u v => u.count F.MSE_HIST_COUNT 1 k (histBin v)) s2).raiseMse k 0) k r c
        { MseRes.of 0 with count := 1 }) ∧
      (∀ s3 b', c.mode = 1 → s2.mseTile k c.dst c.sfmt t = (s3, .ok b') → EndsMse (.mseHist k r) s
        ((s3.count F.MSE_HIST_COUNT 1 k ((disagreement (wideTile c.sfmt b) (wideTile c.sfmt b')).getD 65)).raiseMse k 0) k r c
        { MseRes.of 0 with count := 1 }))

/-- R154, R157, R477: OPEN reserves a range with its epoch and no contributions, or waits at the head of its ring for space,
from where OPEN_WAIT_END lets it proceed; CLEAR empties the range that its DSTADDR names and raises its epoch; FINISH writes
its tiles and its flag map, gives its count and first non-finite event, and frees it; CLOSE frees it; a range that is not open
gives NOTOPEN. -/
def Obligations.RangeCommands : Prop :=
  ∀ (s s1 : State) (k r : Nat) (c : MseCmd),
    let home := s1.tilesFor k c
    let opened := (s1.modMse k fun m => { m with
      ranges := m.ranges ++ [⟨c.dst, c.tiles, c.dfmt, home, c.draw.toNat, 0, [], none, [], false, []⟩] }).showSram k
        (s1.sramFree k - 4 * home.length)
    (TakesMse s s1 k r c → c.op = 0x10 → s1.mseCheck k c = none → 4 * home.length ≤ 48128 →
      (4 * home.length ≤ s1.sramFree k → c.mode = 0 → (s1.mse k).held = [] →
        EndsMse (.openRange k r) s opened k r c { MseRes.of 0 with count := home.length }) ∧
      (s1.sramFree k < 4 * home.length → exec (.openRange k r) s = .next (keepFixed s
        ((s1.modMse k fun m => { m with openWait := insertNat r m.openWait, turn := (r + 1) % 4 }).showOpenWait k).pump))) ∧
    (∀ w s0 s2 s3, k < 6 → r < 4 → s.mseRuns = true → (s.mse k).done = [] → (s.mse k).openWait.contains r = true →
      s0 = s.modMse k (fun m => { m with openWait := m.openWait.filter (· != r) }) → s0.ringReady k r = true →
      s0.mseFetch k r = (s2, some (w, .ring)) → c = readMseCmd w → s2.cplCheck k c.cpl = (s3, none) →
      s3.mseWalks k c = (s1, false) → c.op = 0x10 →
      s1.mseCheck k c = none → 4 * home.length ≤ 48128 → 4 * home.length ≤ s1.sramFree k → c.mode = 0 → (s1.mse k).held = [] →
      EndsMse (.openWaitEnd k r) s opened k r c { MseRes.of 0 with count := home.length }) ∧
    (∀ x, TakesMse s s1 k r c → c.malformed = false → (s1.mse k).rangeNamed c.dst = some x →
      let freed (t : State) : State := (t.modMse k fun m => { m with ranges := m.ranges.filter fun y => y.dst != c.dst }).showSram k
        (min (t.sramFree k + 4 * x.home.length) 48128)
      (c.op = 0x11 → EndsMse (.clearRange k r) s (s1.modMse k fun m => { m with ranges := m.ranges.map fun y =>
        if y.dst = c.dst then { x with acc := [], nf := none, count := 0, epoch := x.epoch + 1, flagged := [], poisoned := false, bad := [] }
        else y })
        k r c (MseRes.of 0)) ∧
      (c.op = 0x13 → EndsMse (.closeRange k r) s (freed s1) k r c (MseRes.of 0)) ∧
      (∀ s2, c.op = 0x12 → c.dsp = noAddr ∨ (c.dsp % 4 = 0 ∧
          s1.extentBad ⟨c.dsp, 4 * ((x.tiles + 31) / 32), 4, .atomic, true⟩ = none) →
        x.poisoned = false → x.bad = [] → FinishSteps k c x s1 x.home s2 →
        let f := x.home.foldl (fun f t => f ||| (x.tileOut t).2) (0 : Flags)
        EndsMse (.finishRange k r) s (freed (s2.raiseMse k f)) k r c
          { status := 0, value := 0, count := x.count, flags := f, nonfin := x.nf.isSome
            node := (x.nf.map (·.1)).getD 0, offset := (x.nf.map (·.2)).getD 0 })) ∧
    (TakesMse s s1 k r c → c.malformed = false → (s1.mse k).rangeNamed c.dst = none →
      (c.op = 0x11 → EndsMse (.clearRange k r) s s1 k r c (MseRes.of 0x0A)) ∧
      (c.op = 0x12 → EndsMse (.finishRange k r) s s1 k r c (MseRes.of 0x0A)) ∧
      (c.op = 0x13 → EndsMse (.closeRange k r) s s1 k r c (MseRes.of 0x0A)))

/-! ## DMA channels (spec/05) -/

/-- R147, R162 to R168, R170: a channel takes the descriptor at the head of its ring: one that a check rejects ends with
that check's status, a misaligned one being logged and counted; a NOP has nothing to do; LINEAR, TILE, TILE_SKEW and
TILE_UNSKEW between memories of the device and its hosts make their moves in order and then await the read-back; data of
peers is asked for first. A write of the tail restarts a stopped channel. R167: a transfer of a channel's ring with nothing
outstanding ends once the last 256 bytes have been read back, or at once where it failed: its 16-byte record carries the
tag, the status and the bursts. Rests on the model's reading in log entries 38 and 39. -/
def Obligations.DmaTransfers : Prop :=
  (∀ (s s1 : State) (n i : Nat) (c : DmaCmd) (cmd : Instr), TakesDma s s1 n i c →
    (cmd = .dmaNop n ∧ (c.op = 0 ∨ 4 < c.op)) ∨ (cmd = .dmaLinear n ∧ c.op = 1) ∨ (cmd = .dmaTile n ∧ c.op = 2) ∨
      (cmd = .dmaTileSkew n ∧ c.op = 3) ∨ (cmd = .dmaTileUnskew n ∧ c.op = 4) →
    (∀ st, s1.dmaCheck n c = some (st, none) → exec cmd s = .next (keepFixed s (
      (if st = 0x04 then ((s1.setFld F.DMA_ALIGNLOG_CHAN n).setFld F.DMA_ALIGNLOG_INDEX i).count F.DMA_ALIGNCNT_COUNT 1
        else s1).setBusy n { DmaBusy.fresh c with status := st }))) ∧
    (s1.dmaCheck n c = none → c.op = 0 →
      exec cmd s = .next (keepFixed s (s1.setBusy n { DmaBusy.fresh c with moved := true }))) ∧
    (∀ s2 last, s1.dmaCheck n c = none → c.op ≠ 0 →
      (∀ m ∈ s1.dmaMoves n c, ∀ p ∈ m.src, s1.farGa p.1 = false) → DmaSteps n c s1 [] (s1.dmaMoves n c) s2 last →
      exec cmd s = .next (keepFixed s (s2.setBusy n { DmaBusy.fresh c with
        moved := true, last := last
        bursts := burstsOf (s1.dmaMoves n c) false + burstsOf (s1.dmaMoves n c) true }))) ∧
    (s1.dmaCheck n c = none → c.op ≠ 0 →
      let far := ((s1.dmaMoves n c).flatMap (·.src)).filter fun p => s1.farGa p.1
      far ≠ [] → exec cmd s = .next (keepFixed s (
        let y := s1.dmaAsk n (DmaBusy.fresh c) (far.flatMap splitPackets)
        y.1.setBusy n y.2)))) ∧
  (∀ (s : State) (port n : Nat) (v : Word), port < 2 → n < 32 → s.writable port (Reg.addr .DMA_CHTAIL n 0) = true →
    exec (.dmaChtailWrite port n v) s = .next (keepFixed s
      ((s.setReg .DMA_CHTAIL n 0 (BitVec.ofNat 32 (v.toNat % 4096))).modDma n fun d => { d with stopped := false }))) ∧
  (∀ (s s1 : State) (n : Nat) (b : DmaBusy) (linkFail : Bool), n < 32 → s.mseRuns = true → (s.dma n).busy = some b →
     b.asked = [] → b.need = [] → b.issuer = .ring →
     (b.status ≠ 0 ∧ s1 = s ∨
       b.status = 0 ∧ linkFail = false ∧ s.readBack n ((lastBytes 256 b.last).filter fun p => !s.farGa p.1) = (s1, 0)) →
     exec (.dmaComplete n linkFail) s = .next (keepFixed s
       ((((s1.modDma n fun d => { d with busy := none }).setFld F.DMA_CHSTAT_BUSY 0 n).setFld F.DMA_CHSTAT_LAST b.status n).put
         (agentDma n) (b.cmd.cpl % 2 ^ 48)
         (toBytes 8 b.cmd.tag.toNat ++ toBytes 4 (b.status % 256) ++ toBytes 4 b.bursts))))

/-! ## Memory (spec/06) -/

/-- R180: a write of MEM.TLBINV starts the invalidation of its pages; while a load or a transfer that met one of them is
outstanding it cannot be done, and once it is done no translation of them is held and MEM.TLBINV.DONE is 1. R368: stacks without
a program and without accesses refresh themselves. R176, R443: a BAR4 read within the BAR answers the bytes of the VA,
Unsupported Request where translation fails, and Completer Abort before HBM is there or for an uncorrectable unit, and either answer
is an error of the port (R378); a write
within one page is performed at its VA, and none from a standby port (R402). Rests on the model's reading in log entries 42 and
46. -/
def Obligations.TranslationsAndBar4 : Prop :=
  (∀ (s : State),
     (∀ port v, port < 2 → s.writable port (Reg.addr .MEM_TLBINV 0 0) = true →
       Ends (.tlbInvalidate port v) s ((s.modHbm fun h => { h with
         tlbInv := h.tlbInv ++ [(s.fld F.MEM_TLBVAHI_VAHI * 2 ^ 20 + s.fld F.MEM_TLBVALO_VALO, v.toNat % 2 ^ 20)] }).setFld
           F.MEM_TLBINV_DONE 0)) ∧
     (s.hbm.tlbInv ≠ [] → s.underOld = true → exec .tlbInvalidateDone s = .next s) ∧
     (∀ first pages, s.hbm.tlbInv = [(first, pages)] → s.underOld = false → Gives .tlbInvalidateDone s fun t =>
       t = keepFixed s { s with hbm := t.hbm, regs := t.regs } ∧ t.hbm.tlbInv = [] ∧ t.fld F.MEM_TLBINV_DONE = 1 ∧
       (∀ e ∈ t.hbm.tlb, e ∈ s.hbm.tlb ∧ pages ≠ 0 ∧ ¬ (first ≤ e.1 ∧ e.1 < first + pages)) ∧
       ∀ e ∈ s.hbm.tlb, pages ≠ 0 → ¬ (first ≤ e.1 ∧ e.1 < first + pages) → e ∈ t.hbm.tlb) ∧
     (s.diesUp = true → 7 ≤ s.pwr.step → s.isRunning = false → s.pwr.idleMs ≠ 0 →
       Ends .hbmIdleTimeout s { s with hbm := { s.hbm with asleep := List.range 12, idle := true } })) ∧
  (∀ (s : State) (p off n : Nat), p < 2 → s.barLive p = true → 1 ≤ n → off + n ≤ 2 ^ (s.port p).bar4Log →
     (s.bar4Ready = true →
       (∀ s1 b, s.read (agentBar4 p) off n = (s1, .ok b) → Ends (.bar4Read p off n) s (s1.emit (.bar4 p (some b) false))) ∧
       (∀ s1 c, s.read (agentBar4 p) off n = (s1, .error (.mmu c)) →
         Ends (.bar4Read p off n) s ((s1.aerError p 20 true).emit (.bar4 p none false))) ∧
       (∀ s1, s.read (agentBar4 p) off n = (s1, .error .ecc) →
         Ends (.bar4Read p off n) s ((s1.aerError p 15 true).emit (.bar4 p none true)))) ∧
     (s.bar4Ready = false → Ends (.bar4Read p off n) s ((s.aerError p 15 true).emit (.bar4 p none true))) ∧
     (∀ b, b.length = n → s.bar4Ready = true → s.isStandby p = false → off % 4096 + n ≤ 4096 →
       Ends (.bar4Write p off b) s (s.write (agentBar4 p) false off b).1) ∧
     (∀ b, b.length = n → s.isStandby p = true → exec (.bar4Write p off b) s = .next s))

/-- R187, R189: a copy that is complete has put the block's data into the reserve block, and the redirection of its block is in
force; a patrol read wakes its stack; one of a clean unit changes nothing else but its progress, one of a poisoned unit too, and one
that finds a unit uncorrectable poisons it; the end of a pass clears the counts per block. R324: a scrub that finds nothing changes nothing; a word found in error counts at its place.
Rests on the model's reading in log entry 3. -/
def Obligations.ScrubbingAndRetirement : Prop :=
  ∀ (s : State) (stack : Nat), stack < 12 → s.hbmReady = true →
    (∀ blk e, s.hbm.retiring.find? (fun x => x.1 == stack * 2 ^ 24 + blk) = some e →
      (∀ x ∈ s.hbm.latent, x.1 / 128 ≠ stack * 2 ^ 24 + blk) → Gives (.retirementComplete stack blk) s fun t =>
        Sparse.find t.hbm.redirect (stack * 2 ^ 24 + blk) = some e.2 ∧ t.hbm.retiring = s.hbm.retiring.erase e ∧
        (Memory.wf s = true → (∀ a, a / 4096 ≠ reserveKey stack e.2 → t.hbmByte a = s.hbmByte a) ∧
          ∀ a, a < 4096 → blk < 47 * 2 ^ 18 →
            t.hbmByte (reserveKey stack e.2 * 4096 + a) = s.hbmByte ((stack * 2 ^ 24 + blk) * 4096 + a)) ∧ t.cores = s.cores) ∧
    (∀ unit found, unit < 3 * 2 ^ 29 → Sparse.find s.hbm.latent (stack * 2 ^ 31 + unit) = none →
      let v := s.rouse [32 * (stack * 2 ^ 31 + unit)]
      let goesOn (u : State) : State :=
        (u.setFld F.MEM_SCRUB_PROGRESS (u.fld F.MEM_SCRUB_PROGRESS + Config.pick u.free % (101 - min (u.fld F.MEM_SCRUB_PROGRESS) 100))).drawn
      (found = .clean ∨ s.isPoisoned (stack * 2 ^ 31 + unit) = true →
        Ends (.patrolScrub stack unit found) s (goesOn v)) ∧
      (found = .corrected → s.isPoisoned (stack * 2 ^ 31 + unit) = false →
        Ends (.patrolScrub stack unit found) s (goesOn (v.corrected (stack * 2 ^ 31 + unit)))) ∧
      (found = .uncorrectable → s.isPoisoned (stack * 2 ^ 31 + unit) = false →
        Ends (.patrolScrub stack unit found) s (goesOn (v.uncorrectable (stack * 2 ^ 31 + unit))))) ∧
    Ends .patrolPassComplete s ((s.modHbm fun h => { h with blockCe := [] }).setFld F.MEM_SCRUB_PROGRESS 0) ∧
    exec (.sramScrub []) s = .next s ∧
    (∀ k i c g, k < 6 → Ends (.sramScrub [.mse k i c g]) s
      (let va := (((s.mse k).ranges[i]?).map (·.dst)).getD 0
       let v := if c then s
         else s.modMse k fun m => { m with ranges := m.ranges.modify i fun r => { r with poisoned := true } }
       let u := (v.record { source := 0x05, cls := if g then RC.degraded else if c then RC.corrected else RC.recovered
                            level := 4, loc := mseLoc k, rowmask := Config.pick v.free, addr := va
                            bucket := (v.rangeBucket va).getD 0x1FFF }).drawn
       (if g then u.setFld F.MSE_SRAM_FREE (u.fld F.MSE_SRAM_FREE k - 4) k else u).pump))

/-! ## Morov Links (spec/08) -/

/-- R249, R253, R411: EN = 1 begins training where the link dies run and, for a fabric link, the position is latched; EN = 0
stops an enabled link; RETRAIN retrains an enabled link that is up and trains anew one that is down or miswired. R249, R253
to R256, R265, R273: an attempt takes the first good capability block, which must come from the partner of the wiring and
share a version; LINK_UP carries traffic at the lower rate and the higher common version; an attempt that fails is repeated
after 10 ms, up to four times; a link whose partner is disabled goes down. A link that stops empties its queues, tells the peers of
its chassis, and counts every packet it had taken as lost, each but a response with a LOST notice to its sender. Rests on the model's reading in log entry 40. -/
def Obligations.LinksTrain : Prop :=
  (∀ (s : State) (port l : Nat) (v : Word), port < 2 → l < 96 → s.writable port (Reg.addr .LNK_CTL l 0) = true →
     let set (w : Word) : State := s.setReg .LNK_CTL l 0 (Reg.LNK_CTL.written (s.reg .LNK_CTL l 0) w)
     (s.flag F.LNK_CTL_EN l = false → l = 95 ∨ s.flag F.LNK_NODE_POSV = true →
       Ends (.linkEnable port l v) s (if s.diesUp then (set (v ||| 1)).startTraining l else set (v ||| 1))) ∧
     (s.flag F.LNK_CTL_EN l = true →
       Ends (.linkDisable port l v) s ((set (v &&& 0xFFFFFFFE)).stopLink l 0).answerStops ∧
       (s.seq.prog = none → Gives (.linkDisable port l v) s fun t => t.flag F.LNK_CTL_EN l = false ∧ t.linkSt l = LS.disabled ∧
         (t.link l).retry = [] ∧ (t.link l).outQ = [])) ∧
     (s.flag F.LNK_CTL_EN l = false → s.canTrain l = true → Gives (.linkEnable port l v) s fun t =>
       t.flag F.LNK_CTL_EN l = true ∧ t.linkSt l = LS.training ∧ (t.link l).attempts = 0 ∧ (t.link l).cap = none ∧
       (t.link l).waiting = false ∧ ∃ blk, Out.capability l blk ∈ t.out) ∧
     (s.flag F.LNK_CTL_EN l = true → v.toNat.testBit 0 = true → s.canTrain l = true →
       (s.linkSt l = 2 → Ends (.retrain port l v) s ((set (v ||| 0x80)).retrainNow l)) ∧
       (s.linkSt l = 3 ∨ s.linkSt l = 4 → Ends (.retrain port l v) s ((set (v ||| 0x80)).startTraining l)))) ∧
  (∀ (s : State) (l : Nat), l < 96 → s.diesUp = true →
     (∀ blk c, s.inAttempt l = true → (s.link l).cap = none → readCap blk = some c → c.fenced = false →
       let u := (s.setFld F.LNK_PARTNER_NODE c.node l).setFld F.LNK_PARTNER_MLINK c.mlink l
       let v := if 63 ≤ l ∧ l < 95 then u.setFld F.LNK_GPORT_PGIDX c.gidx l else u
       (v.capExpected l c = false → Ends (.capabilityBlock l blk) s (v.stopLink l 4).answerStops ∧
         (s.seq.prog = none → Gives (.capabilityBlock l blk) s fun t => t.linkSt l = LS.miswired ∧
           t.fld F.LNK_PARTNER_NODE l = c.node ∧ t.fld F.LNK_PARTNER_MLINK l = c.mlink)) ∧
       (v.capExpected l c = true → c.vers &&& (s.link l).offers.vers = 0 →
         Ends (.capabilityBlock l blk) s (v.attemptFails l).answerStops) ∧
       (v.capExpected l c = true → c.vers &&& (s.link l).offers.vers ≠ 0 →
         Ends (.capabilityBlock l blk) s (v.modLink l fun x => { x with cap := some blk }).answerStops)) ∧
     (∀ blk c margin, s.inAttempt l = true → s.pwr.lrefclk = true → (s.link l).cap = some blk → readCap blk = some c →
       let v2 := (c.vers &&& (s.link l).offers.vers) / 2 == 1
       let a := (((s.setFld F.LNK_STAT_VER (if v2 then 1 else 0) l).setFld F.LNK_STAT_RATE (max c.rate (s.link l).offers.rate) l).modLink l
         fun x => x.comeUp (s.linkSt l == 1) v2).led fun d => { d with margin := d.margin.modify l (noteMargin margin) }
       let b := (a.setLinkState l 2).modNet fun n => { n with
         excl := n.excl.filter fun e => !(e.1.toNat == (a.setLinkState l 2).node && e.2 == l) }
       let d := b.setFld F.LNK_EXCL_COUNT b.net.excl.length
       let e := (d.link l).retry.foldl (fun t f => t.sendFlit l 1 f.seq f.sop f.body) d
       Ends (.linkUp l margin) s ((if l < 63 then e.greet ((e.position + 1 + l) % 64) else e).flush l).answerStops) ∧
     (∀ q, s.net.leftSafe.contains q = false →
       s.greet q = s.send (s.stateNotice (s.chassis * 64 + q) ((List.range 96).map s.ownEntry))) ∧
     (s.inAttempt l = true →
       ((s.link l).attempts < 3 → Ends (.linkTrainingFail l) s (s.modLink l fun x => { x with
         attempts := (s.link l).attempts + 1, waiting := true, cap := none }).answerStops) ∧
       (3 ≤ (s.link l).attempts → s.linkSt l = 1 → Ends (.linkTrainingFail l) s (s.stopLink l 3).answerStops ∧
         (s.seq.prog = none → Gives (.linkTrainingFail l) s fun t => t.linkSt l = LS.down ∧ (t.link l).attempts = 0)) ∧
       (3 ≤ (s.link l).attempts → s.linkSt l = 5 → Ends (.linkTrainingFail l) s
         ((s.stopLink l 3).record { source := 0x08, cls := RC.recovered, level := 4, loc := linkLoc l }).answerStops)) ∧
     ((s.link l).waiting = true → Ends (.trainingRetryWaitEnd l) s
       ((s.modLink l fun x => { x with waiting := false, cap := none, offered := s.capBlock l }).emit (.capability l (s.capBlock l)))) ∧
     (s.linkSt l = 1 ∨ s.linkSt l = 2 ∨ s.linkSt l = 5 → Ends (.linkPartnerDisabled l) s (s.stopLink l 3).answerStops ∧
       (s.seq.prog = none → Gives (.linkPartnerDisabled l) s fun t => t.linkSt l = LS.down ∧ (t.link l).outQ = [])) ∧
     -- what stopping and starting a link do to its state register, its queues and the packets it had taken
     (∀ st, s.linkSt l ≠ st → s.stopLink l st =
       ((s.link l).retry.flatMap (·.ends) ++ (s.link l).outQ).foldl (fun t p => t.lose p l)
         (((s.modLink l fun x => { x with
           retry := [], outQ := [], partialBytes := [], waiting := false, cap := none, credits := [], attempts := 0
           replayFrom := none, replays := 0 }).setFld F.LNK_STAT_STATE st l).tellLink l)) ∧
     (s.linkSt l ≠ LS.training → s.startTraining l =
       (let u := (((s.modLink l fun x => { x with
          attempts := 0, degraded := if s.flag F.LNK_STAT_SPUSE l then [s.fld F.LNK_STAT_SPLANE l] else [] }).setFld
            F.LNK_STAT_NARROW 0 l).setFld F.LNK_STAT_STATE LS.training l).tellLink l
        (u.modLink l fun x => { x with waiting := false, cap := none, offered := u.capBlock l }).emit (.capability l (u.capBlock l)))) ∧
     (s.linkSt l = LS.up → s.retrainNow l =
       (let u := ((((s.count F.LNK_RETRY_RETRAINS 1 l).modLink l fun x => { x with
          attempts := 0, replayFrom := none, replays := 0 }).setFld F.LNK_STAT_STATE LS.retraining l).tellLink l)
        (u.modLink l fun x => { x with waiting := false, cap := none, offered := u.capBlock l }).emit (.capability l (u.capBlock l)))) ∧
     (∀ p : Packet, s.lose p l =
       (let u := s.count F.LNK_EVENT_LOST 1 l
        if p.cls = .response then u
        else if p.src.toNat = s.node then u.modNet fun n => { n with selfLost := n.selfLost ++ [(p, l)] }
        else u.respond (u.notice p l))))

/-- R245 to R248, R252, R463: the first degraded lane of a 2.0 link takes the free spare where SPAREEN is set and the package has it
wired, else the link narrows, and the third takes it down. A flit in sequence is taken with its acknowledgement, its credits and its fifteen slots;
one out of sequence or with a wrong CRC is answered by one NAK; a NAK or 4 µs of silence replays. R245, R246, R251: a flit that
leaves has a good CRC, its kind, SEQ, SOP bits and slots, the last SEQ accepted, and the credit owed on one channel. Rests on
the model's reading in log entries 79 and 106. -/
def Obligations.LanesAndFlits : Prop :=
  ∀ (s : State) (l : Nat), l < 96 → s.diesUp = true → s.linkUp l = true → s.saf.logicBad = [] →
    (∀ lane spare, lane < 4 → (s.link l).degraded.contains lane = false →
      let u := s.modLink l fun y => { y with degraded := y.degraded ++ [lane] }
      let fault (t : State) (cls source : Nat) : State := t.record { source := source, cls := cls, level := 4, loc := linkLoc l }
      let takesSpare := (s.link l).degraded = [] ∧ s.flag F.LNK_CTL_SPAREEN l = true ∧ s.spareFree l = true ∧ spare = true ∧
        s.linkV2 l = true ∧ l / 2 ∉ s.fuses.unwired
      (takesSpare → Ends (.laneDegraded l lane spare) s (fault ((((u.setFld F.LNK_STAT_SPUSE 1 l).setFld F.LNK_STAT_SPLANE lane l).modNd
        fun n => { n with spareLanes := n.spareLanes.filter (· != l / 2) ++ [l / 2] }).cellarChanged) RC.spared 0x09).answerStops) ∧
      (¬ takesSpare → (s.link l).degraded.length < 2 →
        Ends (.laneDegraded l lane spare) s (fault (u.setFld F.LNK_STAT_NARROW 1 l) RC.degraded 0x09).answerStops) ∧
      (2 ≤ (s.link l).degraded.length → Ends (.laneDegraded l lane spare) s (fault (u.stopLink l 3) RC.recovered 0x08).answerStops)) ∧
    (∀ flit : BitVec 2048,
      let w := flitW0 flit
      let u := s.fecCounts l
      (flitGood flit = false → Ends (.dataFlit l flit) s (u.nakOnce l) ∧ Ends (.idleFlit l flit) s (u.nakOnce l) ∧
        Ends (.nak l flit) s (u.nakOnce l)) ∧
      (flitGood flit = true → dbits w 63 60 = 0 → Ends (.idleFlit l flit) s ((u.flitHeader l w).flush l).answerStops) ∧
      (flitGood flit = true → dbits w 63 60 = 2 →
        let v := u.flitHeader l w
        Ends (.nak l flit) s ((if v.replayOn l then v.drawn else v.drawn.replayLink l).flush l).answerStops) ∧
      (flitGood flit = true → dbits w 63 60 = 1 →
        let due := match (s.link l).rxLast with
          | some x => x + 1
          | none => 0
        (BitVec.ofNat 12 (dbits w 59 48) ≠ due → Ends (.dataFlit l flit) s (u.nakOnce l).answerStops) ∧
        (BitVec.ofNat 12 (dbits w 59 48) = due → Ends (.dataFlit l flit) s
          (((List.range 15).foldl (fun t i => t.slotIn l (dbit w (20 + i)) (((flitBytes flit).drop (16 * (i + 1))).take 16))
            ((u.modLink l fun x => { x with rxLast := some due, ackDue := true, nakSent := false }).flitHeader l w)).flush
              l).answerStops))) ∧
    (∀ e r, (s.link l).retry = e :: r →
      let n := if (s.link l).replayFrom = some e.seq then (s.link l).replays + 1 else 1
      let u := (s.count F.LNK_RETRY_REPLAYS 1 l).modLink l fun x => { x with replayFrom := some e.seq, replays := n }
      (n < 8 → Ends (.replayTimeout l) s ((e :: r).foldl (fun t f => t.sendFlit l 1 f.seq f.sop f.body) u)) ∧
      (8 ≤ n → Ends (.replayTimeout l) s
        ((u.retrainNow l).record { source := 0x08, cls := RC.corrected, level := 4, loc := linkLoc l }))) ∧
    (∀ (kind : Nat) (seq : BitVec 12) (sop : BitVec 15) (body : List Byte), kind ≤ 2 → body.length = 240 →
      ∃ f, (s.sendFlit l kind seq sop body).out = s.out ++ [.flit l f] ∧ flitGood f = true ∧ (flitBytes f).drop 16 = body ∧
        dbits (flitW0 f) 63 60 = kind ∧ dbits (flitW0 f) 59 48 = seq.toNat ∧ dbits (flitW0 f) 34 20 = sop.toNat ∧
        (∀ a, (s.link l).rxLast = some a → dbit (flitW0 f) 35 = true ∧ dbits (flitW0 f) 47 36 = a.toNat) ∧
        (∀ v n, (s.link l).owed[v]? = some n → v < 13 → s.linkV2 l = true → 0 < n → n < 0x2000 →
          (∀ i < v, (s.link l).owed.getD i 0 = 0) → dbits (flitW0 f) 19 16 = v ∧ dbits (flitW0 f) 15 3 = n))

/-- R261 to R263, R271, R273: a WRITE within HBM is performed whole, by its mask where it has one slot, and one that fails
translation is refused and remembered; a READ is answered with its data; a READRESP, or 10 ms without one, ends the read of its
id; a LOST notice excludes the link it names; an exclusion ends after a second; a packet for another node goes on, one hop
further, or is refused where its hops are spent; the slots a packet held are given back as credit (R251). Rests on the model's
reading in log entry 41. -/
def Obligations.WritesReadsAndTransit : Prop :=
  ∀ (s : State) (l : Nat) (p : Packet),
    let va := 16 * p.addr.toNat
    (ArrivesHere s l p → p.ptype = PT.write → va + p.payload.length ≤ 0x100000000000 →
      (∀ s0 s1, s.probe (agentLink l) p.upd va p.payload.length = (s0, none) →
        WritesAll (agentLink l) p.upd s0 (if p.len = 1 then (maskedBytes va p.tag.toNat p.payload).map fun e => (e.1, [e.2])
          else [(va, p.payload)]) s1 → Ends (.pktWrite l p) s (s1.freed l p)) ∧
      (∀ s0 m, s.probe (agentLink l) p.upd va p.payload.length = (s0, some m) → Ends (.pktWrite l p) s
        (let u := s0.count F.LNK_EVENT_REFUSED 1 l
         (u.modNet fun n =>
          let o := Sparse.get (false, false) n.refusal p.src.toNat
          { n with refusal := Sparse.put n.refusal p.src.toNat (o.1 || m == .mmu 5, o.2 || m != .mmu 5) }).freed l p))) ∧
    (∀ s1 b, ArrivesHere s l p → p.ptype = PT.read → va + 16 * (p.tag.toNat % 32 + 1) ≤ 0x100000000000 →
      s.read (agentLink l) va (16 * (p.tag.toNat % 32 + 1)) = (s1, .ok b) →
      Ends (.pktRead l p) s ((s1.readResp p.src.toNat (p.tag &&& 0xFFE0) 0 b).freed l p)) ∧
    (∀ w, ArrivesHere s l p → p.ptype = PT.readResp → p.tag ≠ 0xFFFF → p.addr.toNat % 256 ≠ 0x0D →
      s.net.reads.find? (fun e => e.1 == p.tag.toNat / 32 && (false || some p.src == some e.2.1)) = some (p.tag.toNat / 32, p.src, w) →
      Ends (.pktReadResp l p) s (((s.modNet fun n => { n with reads := n.reads.filter fun x => x.1 != p.tag.toNat / 32 }).readEnds
        (p.tag.toNat / 32) w (p.addr.toNat % 256) p.pf (p.x.toNat % 2 == 1) p.payload).freed l p)) ∧
    (∀ id node w, id < 2048 → s.diesUp = true → s.net.reads.find? (fun e => e.1 == id) = some (id, node, w) →
      Ends (.readTimeout id) s ((s.modNet fun n => { n with reads := n.reads.filter fun x => x.1 != id }).readEnds
        id w 0x0E false false [])) ∧
    (ArrivesHere s l p → p.ptype = PT.readResp → p.tag = 0xFFFF → (∀ e ∈ s.net.selfLost, s.notice e.1 e.2 ≠ p) →
      Ends (.lostNotice l p) s
        (((s.exclude (BitVec.ofNat 16 (ofBytes ((p.payload.drop 16).take 2))) (p.payload.getD 18 0).toNat).onLost
          (Packet.ofHeader (toDWord (p.payload.take 8)) (toDWord ((p.payload.drop 8).take 8)))).freed l p)) ∧
    (∀ node k, k < 96 → node < 65536 →
      let u := s.modNet fun n => { n with excl := n.excl.filter fun e => !(e.1.toNat == node && e.2 == k) }
      Ends (.exclusionExpiry node k) s (u.setFld F.LNK_EXCL_COUNT u.net.excl.length)) ∧
    (Arrives s l p → p.dst.toNat ≠ s.node →
      let most := if p.cls = .control then 2 else 4
      (p.hops.toNat < most → Ends (.transitForward l p) s ((s.forward { p with hops := p.hops + 1 }).freed l p)) ∧
      (most ≤ p.hops.toNat → Ends (.transitForward l p) s ((s.count F.LNK_EVENT_REFUSED 1 l).freed l p)))

/-- R155, R156, R265, R287, R289, R291, R295, R298 to R300, R303, R306: what each packet of an exchange does where it arrives:
a contribution is added, dropped or held; CLEAN, UP, DOWN, RETRACT, RESEND, ARRIVE, RELEASE, GATHERED, REPLAYING and HALTSTEP
reach SEQ with their sender and their argument, and it notes a CLEAN, an UP, a RESEND or an ARRIVE, passes DOWN and RELEASE on to its
children, and starts its range over for a RETRACT, which is late once the bucket has sealed; a link-state notice of a chassis peer is learned entry by entry; a message for
Ndomir changes nothing that the spec gives the device. The packet's slots then leave the receive buffer and their credit
returns (R251), unless a die holds it. -/
def Obligations.PacketsOfAnExchange : Prop :=
  ∀ (s : State) (l : Nat) (p : Packet), ArrivesHere s l p →
    (∀ s1 k r, p.ptype = PT.contrib → s.homeFor l (16 * p.addr.toNat) = (s1, some k) →
      (s1.mse k).ranges.find? (fun r => r.holds (16 * p.addr.toNat)) = some r → r.bad = [] →
      Ends (.pktContrib l p) s (State.freed (if p.tag.toNat < r.epoch then s1.count F.MSE_EVENT_STALE 1 k
        else
          let u := s1.feed k r (16 * p.addr.toNat) p.src (wireElems p.x.toNat p.payload) p.pf
          if p.pf then u.seqCount k r.dst else u).pump l p)) ∧
    (∀ s1 k, p.ptype = PT.contrib → s.homeFor l (16 * p.addr.toNat) = (s1, some k) →
      (∀ r ∈ (s1.mse k).ranges, r.holds (16 * p.addr.toNat) = false) →
      Ends (.pktContrib l p) s
        (((s1.modLink l fun x => { x with rxBuf := x.rxBuf ++ [p] }).modMse k fun m => { m with held := m.held ++ [(l, p)] }).freed l p)) ∧
    (∀ s1, p.ptype = PT.contrib → s.homeFor l (16 * p.addr.toNat) = (s1, none) →
      Ends (.pktContrib l p) s ((s1.count F.LNK_EVENT_REFUSED 1 l).freed l p)) ∧
    (p.ptype = PT.seal → p.arg = 1 → p.len = 0 → Ends (.sealClean l p) s ((s.cleanFrom p.src p.tag.toNat p.step).pump.freed l p)) ∧
    (p.ptype = PT.seal → p.arg = 2 → p.len = 1 → Ends (.sealUp l p) s ((s.upFrom p.src p.step (Verdict.ofBytes p.payload)).pump.freed l p)) ∧
    (p.ptype = PT.seal → p.arg = 3 → p.len = 1 → Ends (.sealDown l p) s ((s.downFrom p.src p.step (Verdict.ofBytes p.payload)).pump.freed l p)) ∧
    (p.ptype = PT.retract → 1 ≤ p.arg → p.arg ≤ 3 → p.len = 0 →
      Ends (.pktRetract l p) s ((s.retractFrom p.src p.tag.toNat p.step).pump.freed l p)) ∧
    (p.ptype = PT.resend → p.arg = 1 → p.len = 1 →
      Ends (.pktResend l p) s ((s.resendFrom p.src p.tag.toNat p.step (ofBytes (p.payload.take 2))).pump.freed l p)) ∧
    (p.ptype = PT.barrier → p.arg = 1 → p.len = 0 → Ends (.barrierArrive l p) s ((s.arriveFrom p.src).pump.freed l p)) ∧
    (p.ptype = PT.barrier → p.arg = 2 → p.len = 0 → Ends (.barrierRelease l p) s ((s.releaseFrom p.src).pump.freed l p)) ∧
    (p.ptype = PT.message → p.tag.toNat = msgGathered → Ends (.gathered l p) s ((s.gatheredFrom p.src p.addr.toNat).pump.freed l p)) ∧
    (p.ptype = PT.message → p.tag.toNat = msgReplaying →
      Ends (.replaying l p) s ((s.replayingFrom p.src (BitVec.ofNat 16 p.addr.toNat)).pump.freed l p)) ∧
    (p.ptype = PT.message → p.tag.toNat = msgHaltstep →
      Ends (.haltstep l p) s ((s.haltstepFrom p.src (p.addr.toNat % 2 ^ 24)).freed l p)) ∧
    -- what these do to SEQ of a member of the exchange, and what it sends
    (∀ x, s.ex = some x →
      let now := BitVec.ofNat 32 s.stepNo
      let tag := p.tag.toNat
      let asked := ofBytes (p.payload.take 2)
      (x.isPeer p.src = true → s.ahead p.step = false → s.inStep = true → p.step = now →
        s.cleanFrom p.src tag p.step = s.modBucket tag (fun k => k.setR (x.stageOf p.src) { k.r (x.stageOf p.src) with
          clean := if (k.r (x.stageOf p.src)).clean.contains p.src then (k.r (x.stageOf p.src)).clean
            else (k.r (x.stageOf p.src)).clean ++ [p.src] }) ∧
        s.resendFrom p.src tag p.step asked = s.modBucket tag fun k => k.setPart {
          st := x.stageOf p.src, dst := p.src, clean := false, epoch := asked, due := true }) ∧
      (x.isPeer p.src = true → s.ahead p.step = true →
        s.cleanFrom p.src tag p.step = s.modSeq (fun q => { q with early := q.early ++ [(p.step, tag, p.src)] })) ∧
      (x.isPeer p.src = false → s.cleanFrom p.src tag p.step = s ∧ s.resendFrom p.src tag p.step asked = s ∧
        s.retractFrom p.src tag p.step = s) ∧
      (∀ v, p.step ≠ now ∨ v.round = s.seq.round % 65536 → s.upFrom p.src p.step v = s.modSeq fun q => { q with
        ups := (p.step, v.round, p.src, v) :: q.ups.filter fun u => !(u.1 == p.step && u.2.1 == v.round && u.2.2.1 == p.src) }) ∧
      (∀ v, s.isRunning = true → x.upTo = some p.src → p.step = now → v.round = s.seq.round % 65536 → s.seq.entered = true →
        s.seq.applied = false → s.downFrom p.src p.step v =
          (x.upsFrom.foldl (fun t n => t.sealMsg x n 3 v) (s.modSeq fun q => { q with released := true })).applyVerdict x v) ∧
      (x.isPeer p.src = true → s.inStep = true ∨ s.seqState = SQ.halted →
        (p.step ≠ now ∧ (now - p.step).toNat < 2 ^ 31) ∨ (p.step = now ∧ s.seq.hasSealed = true) →
        s.retractFrom p.src tag p.step = s.lateDetection p.step (if tag = 0xFFFF then none else some tag)) ∧
      (x.isPeer p.src = true → s.inStep = true → p.step = now → s.seq.hasSealed = false →
        s.retractFrom p.src tag p.step = (if tag = 0xFFFF then s.seq.buckets.map (·.1) else [tag]).foldl
          (fun t b => t.retractOne x b p.src) ((s.modSeq fun q => { q with retracts := q.retracts + 1 }).event EV.retract tag)) ∧
      ((x.p.children x.me.node).contains p.src = true → s.seq.barArrived.contains p.src = false →
        s.arriveFrom p.src = s.modSeq fun q => { q with barArrived := q.barArrived ++ [p.src] }) ∧
      (∀ u, s.seq.barrier = some u → s.isRunning = true → s.seq.barSent = true → x.p.parent x.me.node = some p.src →
        s.releaseFrom p.src = ((x.p.children x.me.node).foldl (fun t c => t.send { Packet.blank PT.barrier c.toNat t.node with
          tag := BitVec.ofNat 16 (t.stepNo % 256), addr := ctlAddr t.stepNo 2 }) s).runBegins x u)) ∧
    (p.ptype = PT.message → p.tag.toNat = 0x8000 → p.src.toNat / 64 = s.chassis →
      Ends (.linkStateNotice l p) s (((List.range (p.payload.length / 4)).foldl
        (fun t i => t.mapEntry p.src.toNat ((p.payload.drop (4 * i)).take 4)) s).freed l p)) ∧
    (p.ptype = PT.message → 0x8001 ≤ p.tag.toNat → p.tag.toNat ≤ 0x80FF → Ends (.ndomirMessage l p) s (s.freed l p))

/-! ## The sequencer (spec/09) -/

/-- R313, R314: a command of SEQ given in a state that does not accept it has no effect but the status BADSTATE; one given
while SEQ.CMD.BUSY is 1 only sets DROP; a SEQ descriptor of a queue pair runs the same command. -/
def Obligations.SeqCommandsAreGuarded : Prop :=
  ∀ e ∈ seqTable, ∀ (s : State),
    (∀ port, SeqHears s port → seqAccepts e.2 s.seqState = false →
      Ends (e.1 (.bar0 port)) s (s.seqEnds 1)) ∧
    (∀ port, port < 2 → s.writable port (Reg.addr .SEQ_CMD 0 0) = true → s.flag F.SEQ_CMD_BUSY = true →
      Ends (e.1 (.bar0 port)) s (s.setFld F.SEQ_CMD_DROP 1)) ∧
    (∀ port, port < 2 → s.writable port (Reg.addr .SEQ_CMD 0 0) = true → s.flag F.SEQ_CMD_BUSY = false →
      s.ready = false ∨ s.wipeMark ≠ none →
      Ends (e.1 (.bar0 port)) s ((s.setFld F.SEQ_CMD_BUSY 1).modSeq fun q => { q with
        waitCmd := some (e.2, s.seqArg) })) ∧
    (∀ p q i d, p < 2 → q < 256 → s.startable p q i = some d → descOp d.words = 3 → dbits (nth 0 d.words 0) 39 32 = e.2 →
      s.flag F.SEQ_CMD_BUSY = false → s.wipeMark = none → s.descCheck (s.pair p q).abi d.words = none →
      (e.2 = 10 → (s.pair p q).abi ≠ 2) →
      Ends (e.1 (.queue p q i)) s
        (let t := (s.started p q i).runSeqCmd e.2 (nth 0 d.words 1) (nth 0 d.words 2) (nth 0 d.words 3)
         t.finished p q i 0 0 (BitVec.ofNat 32 t.seqState) (BitVec.ofNat 32 (t.fld F.SEQ_STATE_CMDST))))

/-- R106, R309 to R314, R318: LOAD reads a program whose header, limits, members and buckets are right and leaves SEQ
LOADED; START, RESUME and RETRY begin a run behind the member barrier; UNLOAD leaves SEQ IDLE with no program. R303, R305,
R313, R318: PAUSE and CHECKPOINT of a running program wait for the end of its step, a CHECKPOINT of a paused one is under
way at once; CONTINUE runs again; HALT halts with cause HOST and marks the buckets; HMPUT delivers its record. Rests on the model's reading in log
entry 68. -/
def Obligations.SeqCommands : Prop :=
  (∀ (s : State) (port : Nat), SeqHears s port →
     (∀ s1 s2 h p, seqAccepts 1 s.seqState = true → s.read agentSeq s.seqArg.toNat 256 = (s1, .ok h) →
       headerOk h (toWords 32 h) = true → (progOf (toWords 32 h)).limitsOk = true →
       s1.readTables (toWords 32 h) (progOf (toWords 32 h)) = (s2, some p) → s2.membersOk p = true →
       (∀ b ∈ p.buckets, p.bucketOk b = true) →
       Ends (.seqLoad (.bar0 port)) s (State.seqEnds ((((((((s2.leaveRun.modSeq fun q => q.withProg (some p)).setSeqState 1).setFld
         F.SEQ_STATE_CAUSE 0).settleFallBack).setReg .SEQ_STEP 0 0 0).setReg .SEQ_HMOUT 0 0 0).writeStatus)) 0)) ∧
     (∀ p, s.seqState = SQ.loaded → s.seq.prog = some p →
       let u := (s.loadLimits p).setSeed p.seed
       let v := (u.setFld F.NUM_LSCALE_LSEXP p.lsinit).setReg .NUM_LSSTAT 0 0 0
       let w := (v.setReg .SEQ_STEP 0 0 (BitVec.ofNat 32 s.seqArg.toNat)).modSeq fun q => q.freshRun 0
       Ends (.seqStart (.bar0 port)) s ((w.settleFallBack.enterRun .start (BitVec.ofNat 32 s.seqArg.toNat)).seqEnds 0)) ∧
     (∀ x s1 w rs, seqAccepts 3 s.seqState = true → s.ex = some x → s.readCheckpoint x s.seqArg.toNat = (s1, some (w, rs)) →
       Ends (.seqResume (.bar0 port)) s
         ((((rs.foldl (fun t r => t.restoreRecord x r) (s1.leaveRun.loadLimits x.p)).restoreHeader w).enterRun .resume
           (BitVec.ofNat 32 (nth 0 w 1).toNat)).seqEnds 0)) ∧
     (∀ p, s.seqState = SQ.halted → s.seq.prog = some p →
       Ends (.seqRetry (.bar0 port)) s
         (((s.leaveForRetry p).enterRun (if s.seq.resumeHold then .resume else .retry) (s.reg .SEQ_STEP 0 0)).seqEnds 0)) ∧
     (seqAccepts 9 s.seqState = true → Ends (.seqUnload (.bar0 port)) s
       (State.seqEnds ((((s.leaveRun.setSeqState 0).setFld F.SEQ_STATE_CAUSE 0).writeStatus).modSeq fun q => q.withProg none).settleFallBack 0))) ∧
  (∀ (s : State) (port : Nat), SeqHears s port →
     (s.seqState = SQ.running →
       Ends (.seqPause (.bar0 port)) s ((s.modSeq fun q => { q with pauseReq := true }).seqEnds 0) ∧
       Ends (.seqCheckpoint (.bar0 port)) s ((s.modSeq fun q => { q with ckptReq := true }).seqEnds 0) ∧
       Ends (.seqHmput (.bar0 port)) s ((s.hmDeliver (s.hmIn 0) (s.hmIn 1)).seqEnds 0)) ∧
     (s.seqState = SQ.paused →
       (∀ x, s.ex = some x → Ends (.seqCheckpoint (.bar0 port)) s ((s.startCheckpoint x).seqEnds 0)) ∧
       Ends (.seqContinue (.bar0 port)) s ((s.setSeqState SQ.running).writeStatus.seqEnds 0)) ∧
     (s.seqState = SQ.running ∨ s.seqState = SQ.paused →
       Ends (.seqHalt (.bar0 port)) s ((s.halt HC.host (BitVec.ofNat 16 s.node)).seqEnds 0) ∧
       (s.ex ≠ none → Gives (.seqHalt (.bar0 port)) s fun t => t.seqState = SQ.halted ∧ t.fld F.SEQ_STATE_CAUSE = HC.host ∧
         t.seq.cnode = BitVec.ofNat 16 s.node ∧ t.fld F.SEQ_STATE_CMDST = 0 ∧ ∀ b k, t.bucket b = some k → k.st = .halted))) ∧
  -- a run begins behind the member barrier: instruction caches are empty, and the status block shows it
  (∀ (s : State) (u : BarUse) (step : Word), s.enterRun u step =
    ((((({ s with cores := s.cores.map fun (k : Core) => { k with icache := [] } }).setFld F.SEQ_STATE_STATE SQ.running).setFld
      F.SEQ_STATE_CAUSE 0).setReg .SEQ_STEP 0 0 step).modSeq fun q => { q with
        barrier := some u, barSent := false, cnode := 0, resumeHold := q.resumeHold || u == BarUse.resume }).writeStatus) ∧
  (∀ (s : State) (u : BarUse) (step : Word), let t := s.enterRun u step
    t.seqState = SQ.running ∧ t.fld F.SEQ_STATE_CAUSE = 0 ∧ t.reg .SEQ_STEP 0 0 = step ∧ t.seq.barrier = some u ∧ t.seq.cnode = 0)

/-- R300, R303, R305, R308, R315, R316, R318: an increment that is due counts a die off its counter and, as the last, ends
what the counter was for, while a FAULT is acted on at once; the end of a checkpoint is an event; a sealing or an HM member
that is too late halts the step; a range that was closed is opened anew; the step leader announces a replay again; word
0x000 of the step status block is written again; new entries of the data ring let SEQ go on. R110, R290, R303: a halt marks every
bucket, writes its event and sends HALTSTEP to the step leader, who sends it to the members; a verdict with a FAULT begins a new round,
one that skips marks the buckets skipped, and any other seals them. Rests on the model's reading in log entries 68 and 93. -/
def Obligations.SeqEvents : Prop :=
  ∀ (s : State) (x : Ex), s.ex = some x →
    let halted (cause : Nat) (node : BitVec 16) (t : State) : Prop := t.seqState = SQ.halted ∧ t.fld F.SEQ_STATE_CAUSE = cause ∧
      t.seq.cnode = node ∧ t.seq.barrier = none ∧ ∀ b k, t.bucket b = some k → k.st = .halted
    (∀ die k st, die < 4 → s.incrementDue die k.id = some (k, st) → s.inStep = true →
      let left := k.left.filter fun e => e.1 != die
      let u := s.modSeq fun q => { q with
        counters := if left.isEmpty then q.counters.erase k
          else q.counters.map fun c => if c = k then { k with left := left, status := k.status ||| st } else c }
      ((∀ b, k.use ≠ .update b) → Ends (.counterIncrement die k.id) s
        (State.pump (if st.testBit 2 then u.seqFault retCompute
          else if left = [] then u.passDone k.use (k.status ||| st) else u))) ∧
      (∀ b, k.use = .update b → Ends (.counterIncrement die k.id) s
        (State.pump (if left = [] then u.updateDone x b (k.status ||| st) else u)))) ∧
    (s.seq.ckptBusy = true →
      let done (t : State) : State :=
        let u := t.modSeq fun q => { q with ckptBusy := false, ckptHead := false }
        let v := u.modSeq fun q => { q with ckStep := BitVec.ofNat 32 u.stepNo }
        (v.event EV.ckptdone u.stepNo).writeStatus.pump
      let failed (t : State) : State :=
        let u := t.modSeq fun q => { q with ckptBusy := false, ckptHead := false }
        (u.event EV.ckptfail u.stepNo).writeStatus.pump
      (x.p.ckTgt ≠ 1 →
        (∀ s1, s.saveCheckpoint x = (s1, true) → Ends (.checkpointWriteComplete true) s (done s1)) ∧
        (∀ s1, s.saveCheckpoint x = (s1, false) → Ends (.checkpointWriteComplete true) s (failed s1)) ∧
        Ends (.checkpointWriteComplete false) s (failed s)) ∧
      (x.p.ckTgt = 1 → ∀ s1 read, s.nvmeReap x = (s1, read) →
        Ends (.checkpointWriteComplete false) s (failed s1) ∧
        (read = false ∨ s1.seq.ckptBad = true → Ends (.checkpointWriteComplete true) s (failed s1)) ∧
        (read = true → s1.seq.ckptBad = false →
          (s1.seq.ckptHead = true → Ends (.checkpointWriteComplete true) s (done s1)) ∧
          (s1.seq.ckptHead = false →
            (∀ s2, s1.nvmeHeader x = (s2, true) →
              Ends (.checkpointWriteComplete true) s (s2.modSeq fun q => { q with ckptHead := true }).pump) ∧
            (∀ s2, s1.nvmeHeader x = (s2, false) → Ends (.checkpointWriteComplete true) s (failed s2)))))) ∧
    (s.isRunning = true → s.allFull x.p = true → s.seq.applied = false →
      Ends .sealTimeout s (s.halt HC.sealto (BitVec.ofNat 16 s.node)) ∧
      Gives .sealTimeout s (halted HC.sealto (BitVec.ofNat 16 s.node))) ∧
    (s.waitsHm x = true → Ends .hmTimeout s (s.halt HC.hmto x.me.node) ∧
      (s.inStep = true → Gives .hmTimeout s (halted HC.hmto x.me.node))) ∧
    -- a halt: its state, its event, and the HALTSTEP it sends
    (∀ cause node, s.inStep = true → s.halt cause node =
      (let u := ((s.setFld F.SEQ_STATE_STATE SQ.halted).setFld F.SEQ_STATE_CAUSE cause).modSeq fun q => { q with
         cnode := node, toLaunch := [], announce := [], pauseReq := false, ckptReq := false, barrier := none }
       let v := ((u.eachBucket fun t b => t.modBucket b fun k => { k with st := .halted, phase := .none }).event EV.halt
         (cause + node.toNat * 256)).writeStatus
       let haltstep (t : State) (dst : BitVec 16) : State := t.send { Packet.blank PT.message dst.toNat t.node with
         tag := BitVec.ofNat 16 msgHaltstep, addr := BitVec.ofNat 40 (cause + node.toNat * 256) }
       if x.p.stepLeader.toNat = s.node then
         ((x.p.children (BitVec.ofNat 16 v.node)).foldl haltstep v).modSeq fun q => { q with
           haltSent := some (BitVec.ofNat 32 s.stepNo) }
       else haltstep v x.p.stepLeader)) ∧
    -- a verdict: what it shows, and what it does to the round or to the step
    (∀ v : Verdict,
      let a := s.setReg .SEQ_VERDICT 0 0 (BitVec.ofNat 32 (v.round % 65536 * 2 ^ 16 + v.lsexp % 256 * 2 ^ 8
        + 2 * (if v.fault then 1 else 0) + if v.nonfin then 1 else 0))
      let ahead (t : State) : State :=
        let u := t.modSeq fun q => { q with applied := true }
        if u.seq.goesAhead x.p then u.modSeq fun q => { q.nextPasses with ahead := true, recompute := x.p.recomp } else u
      (v.fault = true → s.applyVerdict x v = a.modSeq fun q => { q with
        announce := q.announce.filter fun e => e.2 == q.round, round := q.round + 1, entered := false, own := none, upSent := none
        released := false, faultFlag := false }) ∧
      (v.fault = false → s.seq.faultFlag = true → s.applyVerdict x v = a.lateDetection (BitVec.ofNat 32 s.stepNo) none) ∧
      (v.fault = false → s.seq.faultFlag = false →
        let u := (a.modSeq fun q => { q with announce := [] }).keepLoss x.p
        let mism : Bool := v.mismatch || match s.seq.own with
          | some o => v.lsexp != o.lsexp
          | none => false
        (mism = true ∨ (v.nonfin = true ∧ u.fallBack = false) → s.applyVerdict x v = ahead
          (((u.eachBucket fun t b => (t.modBucket b fun k => { k with st := .skipped, parts := [] }).openGate b
            (BitVec.ofNat 32 t.stepNo)).zeroGrads x).modSeq fun q => { q with
              skipped := true, mismatch := mism, maxExp := v.lsexp, flaggedNow := 0
              nonfinSeal := v.nonfin && (v.bucket != 0xFFFF || v.owner != 0xFFFF) })) ∧
        (mism = false → v.nonfin = false ∨ u.fallBack = true → s.applyVerdict x v = ahead (u.sealStep x v)) ∧
        ∀ n, s.viaHost x.p n = false → s.sealMsg x n 3 v = (s.modSeq fun q => { q with
          sentSeals := q.sentSeals.filter (fun e => !(e.1 == n && e.2.1 == 3 && e.2.2.1 == BitVec.ofNat 32 s.stepNo)) ++
            [(n, 3, BitVec.ofNat 32 s.stepNo, v)] }).send { Packet.blank PT.seal n.toNat s.node with
              tag := 0xFFFF, addr := ctlAddr s.stepNo 3, len := 1, payload := v.bytes })) ∧
    (∀ b, s.isRunning = true → Ends (.hmReopenWaitEnd b) s (State.pump (x.stages.foldl (fun t st => match t.bucket b with
      | some k => if (k.r st).phase = .waiting then t.modRange b st RangeSt.reopen else t
      | none => t) s))) ∧
    (s.isRunning = true →
      Ends .replayingTimer s (s.seq.announce.foldl (fun t r => t.messageDown x.p msgReplaying r.1.toNat) s)) ∧
    (s.isRunning = true →
      Ends .stepStatusTimer s (s.put agentSeq x.p.status (toBytes 8 s.stepWord))) ∧
    (∀ port v hw, port < 2 → (s.hostWrote hw).writable port (Reg.addr .SEQ_DRTAIL 0 0) = true →
      Ends (.drtailWrite port v hw) s
        (let t := s.hostWrote hw
         let more := decide (v ≠ t.reg .SEQ_DRTAIL 0 0 ∧ v.toNat ≠ t.seq.drHead % 2 ^ 32)
         ((t.setReg .SEQ_DRTAIL 0 0 v).modSeq fun q => { q with dataWait := q.dataWait && !more }).pump))

/-! ## Faults, tests and containment (spec/10) -/

/-- R344 to R348: an in-field test starts on the tested spare of a cluster, or on a slot that left service; a spare that
passes waits to be rotated in, one that fails twice is retired; a core whose boundary does not come in time is preempted,
moves into the spare at a boundary, and runs on there while its old slot is tested. Rests on the model's reading in log
entry 70. -/
def Obligations.SlotsAreTested : Prop :=
  ∀ (s : State) (p : Nat), p < 80 → s.testable = true →
    (∀ st, s.testOn = false → s.isRetired p = false → s.iftState ≠ 3 → s.iftState ≠ 2 →
      (s.logicalOf p = none ∧ s.spareOf (p / 5) = some p ∧ s.flag F.SAF_IFT_EN = true ∧ st = 1) ∨
        (s.logicalOf p = none ∧ s.spareOf (p / 5) ≠ some p ∧ st = 4) ∨
        (∃ c, s.logicalOf p = some c ∧ (s.core c).out = true ∧ st = 4) →
      Ends (.iftTestStart p) s ((s.modSlot p fun x => { x with testing := true }).setIft st p)) ∧
    (∀ r, (s.slot p).testing = true → s.clusterBusy (p / 5) = false → s.spareOf (p / 5) = some p →
      (s.saf.waitingCores.filter fun c => c / 4 == p / 5) = [] → s.saf.unplanned = [] →
      let u := s.modSlot p fun x => { x with testing := false }
      (r = .pass → Ends (.iftTestComplete p r) s (((u.setIft 2 p).modSlot p fun x => { x with
        tested := true, worked := false, passStep := BitVec.ofNat 32 (u.setIft 2 p).stepNo }).count F.SAF_IFTSTAT_PASSES 1).pump) ∧
      (∀ src, r = .datapath ∧ src = 0x0B ∨ r = .checker ∧ src = 0x0C → Ends (.iftTestComplete p r) s
        (let v := ((u.record { source := src, cls := RC.spared, level := 2, loc := u.slotLoc p 0xFF }).setIft 5 p).retireSlot p src
         (v.seekAll (p / 5) src).pump))) ∧
    (∀ c, c < 64 → s.rotates c = true →
      Ends (.preemptTimeout c) s (s.modCore c fun k => { k with preempt := true }) ∧
      (s.spareOf (c / 4) = some p → s.movable c = true → (s.slot p).tested = true →
        Ends (.contextMove c) s ((s.modCore c fun k => { k with moving := some p }).setIft 3 p))) ∧
    (∀ c, c < 64 → (s.core c).moving = some p → Ends (.contextMoveComplete c) s
      (let u := if (s.core c).items = [] then s else { s with lmem := moveLocal s.lmem (s.core c) (s.phys c) p }
       let v := (u.placeCore c p).modCore c fun k => { k with
         moving := none, preempt := false, icache := [], groups := k.groups.map fun e => (e.1, e.2.resume) }
       (((v.setSpare (c / 4) none).modSlot (s.phys c) fun x => { x with tested := false, worked := true }).cellarChanged.modSlot (s.phys c)
         fun x => { x with testing := true }).setIft 4 (s.phys c)))

/-- R229, R327, R331, R336: work that a watchdog finds stalled fails with FAULT under a record: a group, an engine's
descriptor, a command that has run, a transfer; groups whose barrier has not moved for BARWD trap; over-current turns the
converters off; records are consumed up to ERTAIL. R323, R335, R337: an instruction that meets a faulty vector lane completes
after a reissue with its own results, and a permanent fault takes one of the pipe's spare lanes; the third is an error of the
core. A load that meets an uncorrectable word of local memory traps MEMERR; an error in a die that contains no smaller domain is
FATAL and places the device in the safe state (R328). Rests on the model's reading in log entry 108. -/
def Obligations.WatchdogsAndOvercurrent : Prop :=
  ∀ (s : State),
    let stalled (t : State) (level : Nat) (loc : Loc) (opc : Nat) : State :=
      t.record { source := 0x0A, cls := RC.recovered, level := level, loc := loc, opcode := opc }
    (∀ c g x, c < 64 → g < 64 → s.powered = true → s.coreRuns c = true → s.group c g = some x → x.state = .running →
      Ends (.watchdogStall (.collector c g)) s ((stalled (s.kill c g) 1 (s.coreLoc c 0xFF)
        (((s.codeWord x.pc.toNat).map fun v => dbits v 63 56).getD 0)).unplannedTest (s.phys c))) ∧
    (∀ c e q l, c < 64 → s.powered = true → s.coreRuns c = true → (s.eng c e).queue = q :: l →
      Ends (.watchdogStall (.engine c e)) s (State.pump (State.unplannedTest (
        if (s.eng c e).failing then s.coreFault c { source := 0x0A, cls := RC.recovered, level := 1, loc := s.coreLoc c 0xFF
                                                    opcode := (readDesc q.words).op }
        else stalled (s.engineFail c e) 1 (s.coreLoc c 0xFF) (readDesc q.words).op) (s.phys c)))) ∧
    (∀ k r d l, k < 6 → r < 4 → s.powered = true → s.mseRuns = true → (s.mse k).openWait.contains r = false →
      (s.mse k).done = (r, d) :: l → s.ringCount mseRing k r = 0 →
      Ends (.watchdogStall (.mseRing k r)) s (stalled
        (((s.modMse k fun m => { m with done := [] }).setFld F.MSE_STAT_RBUSY 0 k).mseDeliver k { d with status := 0x07 })
        4 (mseLoc k) d.op)) ∧
    (∀ k r w s1 s2, k < 6 → r < 4 → s.powered = true → s.mseRuns = true → (s.mse k).openWait.contains r = false →
      (s.mse k).done = [] → nth false (s.mse k).stopped r = false → s.ringCount mseRing k r = 1 →
      s.mseFetch k r = (s1, some (w, .ring)) → (s1.msePop k r).cplCheck k (readMseCmd w).cpl = (s2, none) →
      Ends (.watchdogStall (.mseRing k r)) s (stalled
        (s2.mseDeliver k (MseDone.of (readMseCmd w).op (readMseCmd w).cpl .ring (MseRes.of 0x07))) 4 (mseLoc k) (s.ringOp k r))) ∧
    (∀ n b, n < 32 → s.powered = true → s.mseRuns = true → (s.dma n).busy = some b → (s.dma n).seqQ = [] →
      s.ringCount dmaRing n 0 = 0 →
      Ends (.watchdogStall (.dma n)) s (stalled (s.dmaEnd n
        { b with status := if b.status = 0 then 0x07 else b.status, need := [], asked := [] }) 4 (dmaLoc n) b.cmd.op)) ∧
    (s.powered = true → s.isRunning = true →
      Ends (.watchdogStall .seq) s ((stalled s 4 hostLoc 0).seqFault retHeld).pump) ∧
    (∀ c blk b, c < 64 → s.coreRuns c = true → s.debugMode c = false → s.blockOf c blk = some b →
      Ends (.barrierWatchdogExpiry c blk) s (b.slots.foldl (fun t g => match t.group c g with
        | some x => if x.atBarrier.isSome ∧ x.live ≠ 0 ∧ x.state ≠ .parked ∧ x.state ≠ .halted then
            t.trap c g 0x07 0x78 x.pc.toNat false else t
        | none => t) s)) ∧
    (s.pwr.supply ≠ .absent → Ends .inputOvercurrent s { s with pwr := { s.pwr with supply := .turnedOff } }) ∧
    (∀ port v, port < 2 → s.writable port (Reg.addr .SAF_ERHEAD 0 0) = true →
      (v - s.reg .SAF_ERHEAD 0 0).toNat ≤ (s.reg .SAF_ERTAIL 0 0 - s.reg .SAF_ERHEAD 0 0).toNat →
      Ends (.erheadWrite port v) s (s.setReg .SAF_ERHEAD 0 0 v)) ∧
    (∀ e ∈ intOps ++ floatOps, ∀ s1 c g w x b l, Issuing s s1 c g e.opcode w e.form x → s1.lanesBad c = [b] →
      b.pipe = (if slowOps.contains e.opcode || Config.choice s1.free then 1 else 0) →
      (x.lanes w).find? (fun i => (s1.slot (s1.phys c)).physLane b.pipe i == b.lane) = some l →
      let p := s1.phys c
      let met := s1.drawn.modSaf fun y => { y with badLanes := y.badLanes.filter (· != b) }
      let r : Rec := { source := 0x03, cls := RC.corrected, level := 1, loc := s1.coreLoc c (128 * b.pipe + b.lane)
                       ophash := x.opHash w l, opcode := e.opcode, opdetail := l, colmask := b.syndrome }
      let spared := (((met.record { r with cls := RC.spared }).modSlot p fun y => y.loseLane b.pipe b.lane).cellarChanged)
      (b.lasting = false →
        Advances (e.cmd c g w) s c g fun u => LaneEffect (met.record r) u c g w x (e.res (met.record r) w x)) ∧
      (b.lasting = true → ((s1.slot p).lanesOut b.pipe).length < 2 →
        Advances (e.cmd c g w) s c g fun u => LaneEffect spared u c g w x (e.res spared w x)) ∧
      (b.lasting = true → 2 ≤ ((s1.slot p).lanesOut b.pipe).length →
        Ends (e.cmd c g w) s (s1.drawn.coreFault c { r with cls := RC.recovered }))) ∧
    (∀ s1 c g w x n l e, Issuing s s1 c g 0x50 w { d := if n = 8 then .pair else .reg, a := .reg, imm := true, mods := 0xFF } x →
      n = 2 ^ (w.md.toNat % 4) → x.lanes w = [l] → localCause (x.localAddr w l) n = none → s1.saf.sram = [e] →
      e.1 = s1.phys c * 2 ^ 21 + (x.localAddr w l).toNat / 8 → e.2.corrected = false → e.2.again = false →
      let met := (s1.note { source := 0x04, cls := RC.recovered, level := 2, loc := s1.slotLoc (s1.phys c) 0xFF
                            rowmask := Config.pick s1.free, addr := (x.localAddr w l).toNat / 8 * 8 }).drawn
      Ends (.lrd c g w) s (((met.modSaf fun y => { y with sram := [] }).overflows s1).trap c g 0x05 0x50 x.pc.toNat false)) ∧
    (∀ k r, k < 6 → r < 4 → s.mseRuns = true → s.saf.logicBad = [0x10 + k] →
      Ends (.mseFill k r) s ((s.modSaf fun y => { y with logicBad := [] }).fatal
        { source := 0x13, cls := RC.fatal, level := 4, loc := mseLoc k }))

/-! ## Power, clocks and throttling (spec/11) -/

/-- R359 to R362: a period of the governor takes the settings in force from their registers, moves the device target by its
three branches, and steers the ceiling and the voltage of every die, which rises by at most 200 mV a period. R426, R427: from step
3 on it adds the energy of its period to the ledger's, and at the end of a minute the minute. Rests on the model's reading in log
entries 26, 31 and 7. -/
def Obligations.GovernorSteers : Prop :=
  ∀ (s : State) (m : GovMeas), s.powered = true → s.pwr.volt.length = 14 → s.pwr.ceil.length = 14 → s.pwr.falling.length = 14 →
    let u := s.modPwr fun p => { p with govctl := s.reg .PWR_GOVCTL 0 0, cap := s.reg .PWR_CAP 0 0, ratetgt := s.reg .PWR_RATETGT 0 0 }
    let goal := if u.pwr.rateMode then u.pwr.tgt else 1950
    let is_ (r : Rate) (num den : Nat) : Prop := r.num * (den * 200 ^ u.pwr.t.exp) = num * 200 ^ r.exp
    let steered (r : Rate) (n : Nat) : Prop :=
      if goal * (200 * 200 ^ u.pwr.t.exp) < n * u.pwr.t.num then r = ⟨goal, 0⟩ else is_ r (n * u.pwr.t.num) 200
    let p100 := m.v100us * m.i100us
    let p1 := m.v1ms * m.i1ms
    Gives (.governorPeriod m) s fun t =>
      (105 * u.pwr.capW < p100 ∨ 714 < m.i100us → steered t.pwr.t 190) ∧
      (¬ (105 * u.pwr.capW < p100 ∨ 714 < m.i100us) → 100 * u.pwr.capW < p1 ∨ 680 < m.i1ms → steered t.pwr.t 198) ∧
      (p100 ≤ 105 * u.pwr.capW → m.i100us ≤ 714 → p1 < 98 * u.pwr.capW → m.i1ms < 666 → steered t.pwr.t 201) ∧
      (s.flag F.PWR_GOVSTAT_CAPMISS = false → (t.flag F.PWR_GOVSTAT_CAPMISS = true ↔
        (∀ i < 14, s.pwr.volt.getD i 0 = 550) ∧ s.pwr.wasLow = true ∧ 100 * u.pwr.capW < p100 ∧ 100 * u.pwr.capW < p1)) ∧
      (∀ i < 14, t.pwr.ceil.getD i 0 = (thermalStep u.pwr.tjLim (m.tj.getD i 0) (s.pwr.ceil.getD i 0) (s.pwr.falling.getD i false)).1 ∧
        t.pwr.volt.getD i 0 = slew (s.pwr.volt.getD i 0) (u.wantVolt m i (t.pwr.ceil.getD i 0))) ∧
      (3 ≤ s.pwr.step →
        t.nd.joules = (s.nd.joules + pow1ms m / 100) % 36000000 ∧
        t.nd.live.energy = satAdd 64 s.nd.live.energy ((s.nd.joules + pow1ms m / 100) / 36000000) ∧
        (s.nd.periods + 1 < 600000 → t.nd.periods = s.nd.periods + 1 ∧ t.nd.live.powered = s.nd.live.powered ∧
          t.nd.live.hot = s.nd.live.hot) ∧
        (600000 ≤ s.nd.periods + 1 → t.nd.periods = 0 ∧ t.nd.live.powered = satAdd 32 s.nd.live.powered 1)) ∧
      (s.pwr.step < 3 → t.nd = s.nd) ∧
      t.hbm = s.hbm ∧ t.lmem = s.lmem ∧ t.cores = s.cores ∧ t.seq = s.seq ∧ t.net = s.net

/-- R371 to R374: THROTTLE_N starts a level that, once it has lasted, throttles every die to 0.55 V and is counted; a shorter
one is a glitch; a throttle of more than a second is logged at both ends; the throttle is over once the pin is high and its
hold has run out. R327, R352, R353, R355, R366, R408, R426: a die's rate is the lowest of its monitors; a write of PWR.TSOFFHI
puts the whole offset into force; the timers follow the reference clocks, port 0's first; a sample shows in its register, and
counts where a limit or a thermal cycle is met; a surge counts. R354: no two timers of the device are further apart than 2 µs and
2 ppm of the time since they were loaded, and none steps back. -/
def Obligations.ThrottleAndMonitors : Prop :=
  (∀ (s : State), s.powered = true →
     (s.pwr.throttleN = true → Ends .throttleNFall s
       (let u := (s.modPwr fun p => { p with throttleN := false, thrQualified := false }).tickTimer
        (u.modPwr fun p => { p with thrTimer := p.timer, thrStart := u.hostTime }).setFld F.PWR_THRSTAT_LEVEL 0)) ∧
     (s.pwr.throttleN = false → s.pwr.thrQualified = false →
       Ends .throttleQualify s (((((s.modPwr fun p => { p with thrQualified := true, thrHold := true }).count F.PWR_THRCNT_QUAL 1).setFld
         F.PWR_THRSTAT_ACTIVE 1).throttleDown).setThrottleState 1) ∧
       Ends .throttleNRise s (((s.modPwr fun p => { p with throttleN := true, thrQualified := false }).setFld
         F.PWR_THRSTAT_LEVEL 1).count F.PWR_THRCNT_GLITCH 1).throttleOver) ∧
     (s.pwr.throttleN = false → s.pwr.thrQualified = true →
       (s.flag F.PWR_THRSTAT_SUST = false → Ends .throttleNRise s (((s.modPwr fun p => { p with
         throttleN := true, thrQualified := false }).setFld F.PWR_THRSTAT_LEVEL 1).tickTimer).throttleOver) ∧
       (s.flag F.PWR_THRSTAT_SUST = false → Ends .throttleSustained s
         (((s.setFld F.PWR_THRSTAT_SUST 1).logEntry (.throttleStart s.pwr.thrStart)).setThrottleState 2)) ∧
       (s.flag F.PWR_THRSTAT_SUST = true → Ends .throttleNRise s
         (let u := ((s.modPwr fun p => { p with throttleN := true, thrQualified := false }).setFld F.PWR_THRSTAT_LEVEL 1).tickTimer
          (((u.logEntry (.throttleEnd (u.pwr.timer - s.pwr.thrTimer))).setFld F.PWR_THRSTAT_SUST 0).setThrottleState 1).throttleOver))) ∧
     (s.pwr.thrHold = true → Ends .throttleHoldEnd s (s.modPwr fun p => { p with thrHold := false }).throttleOver) ∧
     (s.throttled = true → s.pwr.thrHold = false → s.pwr.throttleN = true →
       s.throttleOver = (s.setFld F.PWR_THRSTAT_ACTIVE 0).setThrottleState 0)) ∧
  (∀ (s : State),
     (∀ die r l, die < 14 → s.powered = true → 6 ≤ s.pwr.step → s.nd.sampled = true →
       Ends (.rateMonitorReport die (r :: l)) s (s.setFld F.PWR_DSTAT_RATE
       (min (l.foldl min r) 4095) die)) ∧
     (∀ port v, port < 2 → s.writable port (Reg.addr .PWR_TSOFFHI 0 0) = true → Ends (.tsoffWrite port v) s
       ((s.setReg .PWR_TSOFFHI 0 0 v).modPwr fun p => { p with
         tsoff := BitVec.ofNat 64 (v.toNat * 2 ^ 32 + (s.reg .PWR_TSOFFLO 0 0).toNat) })) ∧
     (∀ port on cmd, port < 2 → s.powered = true → (on = true ∧ cmd = .refclkReturn port ∨ on = false ∧ cmd = .refclkLoss port) →
       let u := s.modPwr fun p => { p with refclk := p.refclk.set port on }
       let src := if u.pwr.refclk.getD 0 false then 0 else if u.pwr.refclk.getD 1 false then 1 else 2
       Ends cmd s (if src = 2 then (u.setFld F.PWR_TSTAT_SRC 2).setFld F.PWR_TSTAT_LOCK 0 else u.setFld F.PWR_TSTAT_SRC src)) ∧
     (s.ndRuns = true → let s' := s.modNd fun n => { n with sampled := true }
       (∀ i c, i < 15 → c < 105 → Ends (.ndomirSensorPoll (.junction i c)) s
         ((s'.setFld F.PWR_DSTAT_TJ (min c (2 ^ (F.PWR_DSTAT_TJ.hi - F.PWR_DSTAT_TJ.lo + 1) - 1)) i).cycleStep
           (s'.setFld F.PWR_DSTAT_TJ (min c (2 ^ (F.PWR_DSTAT_TJ.hi - F.PWR_DSTAT_TJ.lo + 1) - 1)) i).hottest)) ∧
       (∀ k c, k < 12 → c < 100 → Ends (.ndomirSensorPoll (.stackTemp k c)) s
         (s'.modNd fun n => { n with stackTemp := n.stackTemp.set k c })) ∧
       (∀ k c, k < 12 → 100 ≤ c → s.safe = false → Ends (.ndomirSensorPoll (.stackTemp k c)) s
         (((s'.modNd fun n => { n with stackTemp := n.stackTemp.set k c }).fatal
           { source := 0x0E, cls := RC.fatal, level := 5, loc := hostLoc }).dropVolts)) ∧
       Ends .vinSurge s (s.led fun l => { l with surges := satAdd 32 l.surges 1 })) ∧
     let near (t : State) : Prop := ∀ a ∈ t.pwr.timer :: t.pwr.dieTimers, ∀ b ∈ t.pwr.timer :: t.pwr.dieTimers,
       a ≤ b + 2000 + (t.pwr.timer - t.pwr.loadedAt) / 500000
     near s.loadTimers ∧ (s.pwr.loadedAt ≤ s.pwr.timer → near s → near s.tickTimer ∧ s.pwr.timer ≤ s.tickTimer.pwr.timer ∧
       ∀ i < s.pwr.dieTimers.length, s.pwr.dieTimers.getD i 0 ≤ s.tickTimer.pwr.dieTimers.getD i 0))

/-! ## Host ports and queue pairs (spec/12) -/

/-- R384 to R388, R443: EN = 1 on a disabled pair enables it with empty rings where every check passes, and leaves the code
of the first that fails; EN = 0 drains it; a doorbell moves its tail or its head, and one out of range is an error; it reads back
what was last accepted;
descriptors are fetched up to eight at a time. Rests on the model's reading in log entries 43 and 44. -/
def Obligations.QueuePairsRun : Prop :=
  ∀ (s : State) (p q : Nat) (v : Word), p < 2 → q < 256 →
    (s.barLive p = true → s.flag F.HIF_QCTL_EN p q = false → s.qState p q = 0 →
      let u := (s.setReg .HIF_QCTL p q (Reg.HIF_QCTL.written (s.reg .HIF_QCTL p q) v)).setFld F.HIF_QCTL_EN 1 p q
      Ends (.queueEnable p p q v) s (if u.enableErr p q = 0 then
          (u.modPair p q fun x => { x with
            abi := u.fld F.HIF_QCTL_ABI p q, sqHead := 0, sqTail := 0, cqHead := 0, cqTail := 0, doneCount := 0, sqDb := 0, cqDb := 0 }).setQState
              p q 1 0
        else (u.modPair p q fun x => { x with abi := u.fld F.HIF_QCTL_ABI p q }).setQState p q 2 (u.enableErr p q))) ∧
    (s.writable p (Reg.addr .HIF_QCTL p q) = true → s.flag F.HIF_QCTL_EN p q = true → s.qState p q = 1 →
      Ends (.queueDisable p p q) s (if (s.pair p q).fetched = [] then ((s.setFld F.HIF_QCTL_EN 0 p q).setQState p q 3 0).setQState p q 0 0
        else (s.setFld F.HIF_QCTL_EN 0 p q).setQState p q 3 0)) ∧
    (∀ hw, (s.hostWrote hw).doorbell p q = true → ((s.hostWrote hw).pair p q).sqDb ≠ v →
      Ends (.sqDoorbell p q v hw) s (if v.toNat < (s.hostWrote hw).sqSize p q then
          (s.hostWrote hw).modPair p q fun x => { x with sqTail := v.toNat, sqDb := v }
        else (s.hostWrote hw).setQState p q 2 3)) ∧
    (s.doorbell p q = true → (s.pair p q).cqDb ≠ v →
      let n := s.cqSize p q
      let x := s.pair p q
      Ends (.cqDoorbell p q v) s (if v.toNat < n ∧ (v.toNat + n - x.cqHead) % n ≤ (x.cqTail + n - x.cqHead) % n then
          s.modPair p q fun y => { y with cqHead := v.toNat, cqDb := v }
        else s.setQState p q 2 5)) ∧
    (s.fetches = true → s.nextPair p = some q → s.portLive p = true →
      let u := s.modPort p fun x => { x with turn := (q + 1) % 256 }
      Ends (.descriptorFetch p q true) s ((u.readFailed p).setQState p q 2 4) ∧
      Ends (.descriptorFetch p q false) s (u.fetchDescs p q (u.fetchCount p q))) ∧
    s.bar2Read p (0x1000 * q) = (s.pair p q).sqDb ∧ s.bar2Read p (0x1000 * q + 0x40) = (s.pair p q).cqDb ∧
    ∀ off, 0 < off → off < 0x1000 → off ≠ 0x40 → s.bar2Read p (0x1000 * q + off) = 0

/-- R390 to R399: a descriptor that may start and fails no check has the effect of its OP: NOP ends OK, MARK writes and
reads back its value, at another node by a WRITE and a READ behind it, MSE appends its command to a ring of every die it names, MOVE goes to the pair's channel in its turn;
one that fails a check ends with that status; a finished one writes its 16-byte entry at the completion tail, and a due
status block is written, and that of a pair of ABI 3 that mirrors the step status word of a loaded program. Rests on the model's reading in log entry 44. -/
def Obligations.QueueDescriptorsComplete : Prop :=
  ∀ (s : State) (p q i : Nat) (d : Fetched), p < 2 → q < 256 →
    (s.startable p q i = some d →
      (∀ st cmd, s.descCheck (s.pair p q).abi d.words = some st →
        (cmd = .queueNop p q i ∧ (descOp d.words = 0 ∨ 4 < descOp d.words)) ∨ (∃ f, cmd = .queueMove p q i f ∧ descOp d.words = 1) ∨
          (cmd = .queueMse p q i ∧ descOp d.words = 2) ∨ (∃ f, cmd = .queueMark p q i f ∧ descOp d.words = 4) →
        Ends cmd s (s.finished p q i st 0 0 0)) ∧
      (s.descCheck (s.pair p q).abi d.words = none →
        (descOp d.words = 0 → Ends (.queueNop p q i) s (s.finished p q i 0 0 0 0)) ∧
        (descOp d.words = 4 → nth 0 d.words 1 = 0 → Ends (.queueMark p q i false) s ((s.started p q i).finished p q i 0 0 0 0)) ∧
        (∀ s1 s2 b, descOp d.words = 4 → nth 0 d.words 1 ≠ 0 → (s.started p q i).farGa (nth 0 d.words 1).toNat = false →
          (s.started p q i).write (agentBar4 p) false ((nth 0 d.words 1).toNat % 2 ^ 48) (toBytes 8 (nth 0 d.words 2).toNat) =
            (s1, none) →
          s1.read (agentBar4 p) ((nth 0 d.words 1).toNat % 2 ^ 48) 8 = (s2, .ok b) →
          Ends (.queueMark p q i false) s (s2.finished p q i 0 0 0 0)) ∧
        (∀ ga mask bytes l, descOp d.words = 4 → (nth 0 d.words 1).toNat ≠ 0 →
          (s.started p q i).farGa (nth 0 d.words 1).toNat = true →
          maskedSlots (nth 0 d.words 1).toNat (toBytes 8 (nth 0 d.words 2).toNat) = (ga, mask, bytes) :: l →
          let far := (nth 0 d.words 1).toNat / 2 ^ 48
          let w : Packet := { Packet.blank PT.write far s.node with
            tag := mask, len := 1, addr := BitVec.ofNat 40 (ga % 2 ^ 48 / 16), payload := bytes }
          ((s.started p q i).net.freeId = none → Gives (.queueMark p q i false) s fun t =>
            ∃ f, (t.pair p q).fetched.find? (fun y => y.id == i) = some f ∧ f.started = false ∧ f.finished = d.finished) ∧
          (∀ s1, (s.started p q i).net.freeId ≠ none → (s.started p q i).inject w none true (agentBar4 p) = (s1, none) →
            Ends (.queueMark p q i false) s (s1.finished p q i 0x07 0 0 0)) ∧
          (∀ s1 s2 r x, (s.started p q i).net.freeId ≠ none →
            (s.started p q i).inject w none true (agentBar4 p) = (s1, some r) →
            s1.startRead far (ga % 2 ^ 48) 1 (waitMark p q) (some r) true (agentBar4 p) = some (s2, x) →
            Ends (.queueMark p q i false) s s2)) ∧
        (∀ s1 w, descOp d.words = 2 → (nth 0 d.words 1).toNat % 64 = 0 → (nth 0 d.words 1).toNat / 2 ^ 48 = s.node →
          (nth 0 d.words 1).toNat % 2 ^ 48 < 0x100000000000 →
          (s.started p q i).readWords (agentBar4 p) ((nth 0 d.words 1).toNat % 2 ^ 48) 8 = (s1, .ok w) →
          Ends (.queueMse p q i) s ((mseDies d.words).foldl
            (fun t k => t.mseAppend k (dbits (nth 0 d.words 0) 47 46) p q i (hostRecord w))
            (s1.modFetched p q i fun f => { f with dies := mseDies d.words }))) ∧
        (∀ fail, descOp d.words = 1 →
          let n := s.fld F.HIF_QCTL_CHAN p q
          s.dmaIdle n = true → s.dmaNext n = some (1 + 256 * p + q) →
          Ends (.queueMove p q i fail) s (((s.started p q i).dmaTurn n (1 + 256 * p + q)).moveOn n
            (s.moveCmd p q d.words) d (.queue p q i)
            (moveBeyond (s.pair p q).abi d.words) fail)))) ∧
    (s.powered = true → s.portLive p = true → s.qState p q = 1 → s.cqFull p q = false → d.dropped = false →
      (s.pair p q).fetched.find? (fun f => f.id == i && f.finished) = some d →
      let a := s.qBase .HIF_QCQLO .HIF_QCQHI p q + 16 * (s.pair p q).cqTail
      let u := ((s.setHostBytes p a (toBytes 8 (d.idx % 65536 * 2 ^ 48 + d.status % 256 * 2 ^ 40 + d.flags.toNat * 2 ^ 36
          + descTag d.words) ++ toBytes 8 (d.val.toNat * 2 ^ 32 + d.cnt.toNat))).modPair p q fun x => { x with
        cqTail := (x.cqTail + 1) % s.cqSize p q, doneCount := x.doneCount + 1, lastEntry := a, due := true }).dropFetched p q d.id
      Ends (.queueDescriptorComplete p q i) s (if descSb d.words then u.writeBlock p q else u)) ∧
    (s.powered = true → (s.pair p q).due = true ∨
        (s.flag F.HIF_QCTL_MIRROR p q = true ∧ s.qState p q ≠ 0 ∧ (s.pair p q).abi ≠ 2 ∧ s.progLoaded = true) →
      Ends (.statusBlockWrite p q) s (s.writeBlock p q)) ∧
    (s.powered = true → (s.pair p q).due = false → s.flag F.HIF_QCTL_MIRROR p q = false ∨ (s.pair p q).abi = 2 →
      exec (.statusBlockWrite p q) s = .next s)

/-- R401, R404, R405: FAILOVER = 1 makes the writing port the active one while no pair is enabled and SEQ is IDLE; a
heartbeat of the active port clears EXPIRED; its loss sets EXPIRED and alerts the standby port; a claim of the standby port
is refused while EXPIRED is 0, and otherwise makes it active, halts the program and revokes the other port's pairs. Rests on
the model's reading in log entry 45. -/
def Obligations.TwoHosts : Prop :=
  ∀ (s : State) (p : Nat), p < 2 →
    (∀ v, s.writable p (Reg.addr .HIF_MODE 0 0) = true → s.noPairs = true → s.seqState = 0 →
      Ends (.failover p v) s (if F.HIF_MODE_FAILOVER.of v = 1 then (s.setFld F.HIF_MODE_FAILOVER 1).setFld F.HIF_MODE_ACTIVE p
        else s.setFld F.HIF_MODE_FAILOVER 0)) ∧
    (s.writable p (Reg.addr .HIF_HBEAT p 0) = true → s.failover = true → s.fld F.HIF_MODE_ACTIVE = p →
      Ends (.heartbeat p p) s (s.setFld F.HIF_FOSTAT_EXPIRED 0)) ∧
    (s.powered = true → s.failover = true → s.flag F.HIF_FOSTAT_EXPIRED = false →
      Ends .heartbeatExpiry s ((s.setFld F.HIF_FOSTAT_EXPIRED 1).raiseAlert (1 - s.fld F.HIF_MODE_ACTIVE) 3)) ∧
    (s.writable p (Reg.addr .HIF_CLAIM p 0) = true → s.isStandby p = true →
      (s.flag F.HIF_FOSTAT_EXPIRED = false → Ends (.claim p p) s (s.setFld F.HIF_FOSTAT_CLAIMST 2)) ∧
      (s.flag F.HIF_FOSTAT_EXPIRED = true → Ends (.claim p p) s
        (let u := ((s.setFld F.HIF_MODE_ACTIVE p).setFld F.HIF_FOSTAT_CLAIMST 1).setFld F.HIF_FOSTAT_EXPIRED 0
         (u.halt HC.host (BitVec.ofNat 16 u.node)).revokePort (1 - p))))

/-! ## Start-up and resets (spec/14) -/

/-- R366, R424, R437 to R443: VIN starts the converters; the host die runs once they are on; verified firmware lets Ndomir
load its stores and start, and the dies leave reset where no component is in recovery; R413: it requests a Hot-Join where it has
seen the I3C bus carry traffic without it; trained HBM is zero and unpoisoned; the cores are tested and mapped; the end of the link wait is READY. Rests on the model's reading in log entries 47 and 48.
-/
def Obligations.TheDeviceStarts : Prop :=
  ∀ (s : State),
    (s.pwr.supply = .absent → exec .vinRise s = .next { keepFixed s ((s.modPwr fun p => { p with
      supply := .ramping, step := 1 }).showFuses) with tap := s.tap }) ∧
    (s.pwr.supply = .ramping → Ends .converterSoftStartComplete s
      (let u := s.modPwr fun p => { p with supply := .on, step := 2, timer := 0 }
       ((u.setFld F.PWR_THRSTAT_LEVEL (if u.pwr.throttleN then 1 else 0)).showRef).portsDetect)) ∧
    (s.powered = true → s.pwr.step = 2 → Ends .firmwareVerified s
      (let u := ((s.modPwr fun p => { p with step := 3 }).modNd fun n => { n with recovery := s.recoveryDue }).loadConfig.loadLedger
       let v := ((u.takeBank 1).takeBank 2).takeBank 3
       let w := (v.ledNow fun l => { l with powerups := satAdd 32 l.powerups 1 }).loadIds.loadMgt.showState
       let x := if s.pwr.busTraffic then w.emit .hotJoin else w
       if x.pwr.step == 3 && x.pwr.hold.isNone && !x.nd.recovery then
         ((x.modPwr fun p => { p with step := 6 }).setFld F.DBG_DEVSTATE_PHASE 2).loadTimers.trainEnabled
       else x)) ∧
    (s.diesUp = true → s.pwr.step = 6 → s.phase = 2 →
      (∀ qual l, s.pwr.lrefclk = true → Gives (.hbmTrainingComplete 0 qual l) s fun t =>
        t.pwr = { s.pwr with step := 7 } ∧ t.phase = 3 ∧
        t.hbm = { s.hbm.repairRows l with
          bytes := [], poison := [], latent := [], blockCe := [], retiring := [], asleep := [], idle := false, tlb := [], tlbInv := [] } ∧
        t.fld F.DBG_DEVSTATE_FAIL = 0 ∧ t.fld F.DBG_DEVSTATE_STACKS = 0 ∧
        (∀ k < 12, t.fld F.MEM_HBMRET_USED k = s.stored.hbmret.getD k 0 % 2 ^ (F.MEM_HBMRET_USED.hi + 1 - F.MEM_HBMRET_USED.lo)) ∧
        t.fld F.MEM_HBMCFG_QUAL = (if qual then 1 else 0) ∧
        t.fld F.MEM_HBMCFG_RATE = (if qual ∧ s.flag F.MEM_HBMCFG_MAXRATE then 1 else 0)) ∧
      (∀ failed : BitVec 12, ∀ qual l, s.pwr.lrefclk = true → failed ≠ 0 →
        Ends (.hbmTrainingComplete failed qual l) s (s.trainingFailed failed.toNat))) ∧
    (∀ once twice, s.diesUp = true → s.pwr.step = 7 → s.nd.wiping = none → s.safe = false →
      Ends (.coreSelfTestComplete once twice) s
        (let u := State.loadMap { s with lmem := [], mses := s.mses.map Mse.zeroed }
         let v := (List.range 80).foldl State.loadNibMap ((List.range 16).foldl State.mapCluster
           ((List.range 80).foldl (fun t p => t.selfTested once twice p) u))
         let w := (v.modPwr fun p => { p with step := 8 }).setFld F.DBG_DEVSTATE_PHASE 4
         if (List.range 16).map (fun q => w.reg .SAF_CMAP q 0) = (List.range 16).map (fun q => u.reg .SAF_CMAP q 0) then
           w.showCellar else w.cellarChanged)) ∧
    (s.diesUp = true → s.pwr.step = 8 → s.nd.refurbishing = false →
      (s.nd.live.grade = 3 → Ends .linkWaitEnd s
        (((s.modPwr fun p => { p with step := 9 }).setFld F.DBG_DEVSTATE_PHASE 7).setFld F.DBG_DEVSTATE_FAIL 2)) ∧
      (s.nd.live.grade ≠ 3 → Ends .linkWaitEnd s
        (let u := ((s.modPwr fun p => { p with step := 10 }).setFld F.DBG_DEVSTATE_PHASE 5)
         ((u.setReg .DBG_STARTTIME 0 0 (BitVec.ofNat 32 (Config.pick u.free))).drawn.burnFuses.showState).seqReady)))

/-- R444 to R446, R466: DEVRST_N, once it has been low long enough, and a keyed write of DBG.RSTCTL start a reset of
DEVRST_N scope, whose source RSTCAUSE records; the hold ends with the pin, or after 1 ms, and the fall of VIN leaves the
reset state but for what is not in the part's power. R378, R438, R446, R447: PERST, a function-level reset and D3hot reset
or disable what belongs to the port; a port in Detect with its clock trains; a configuration request is answered by Request
Retry Status until Ndomir runs, and then performed. Rests on the model's reading in log entry 49. -/
def Obligations.DeviceAndPortResets : Prop :=
  (∀ (s : State),
     (∀ cmd src, (cmd = .devrstNQualify ∧ src = RstSrc.pin ∧ s.powered = true ∧ s.pwr.devrstN = false ∧ s.pwr.pinHold = false) ∨
         (∃ port, port < 2 ∧ cmd = .devrst port ∧ src = RstSrc.register ∧ s.writable port (Reg.addr .DBG_RSTCTL 0 0) = true) →
       let u := s.setFld F.DBG_RSTCAUSE_CAUSE src.code
       Ends cmd s (State.modPwr (if s.pwr.hold = none then u.enterReset src else u.modPwr fun p => { p with hold := some src })
         fun p => { p with pinHold := p.pinHold || src == .pin, softHold := p.softHold || src != .pin })) ∧
     Ends .devrstNFall s (s.modPwr fun p => { p with devrstN := false }) ∧
     (s.pwr.hold = none ∨ s.pwr.softHold = true → Ends .devrstNRise s (s.modPwr fun p => { p with devrstN := true, pinHold := false })) ∧
     (s.pwr.softHold = true →
       (s.pwr.hold = none ∨ s.pwr.pinHold = true → Ends .resetHoldEnd s (s.modPwr fun p => { p with softHold := false })) ∧
       (∀ src, s.pwr.hold = some src → s.pwr.pinHold = false → Ends .resetHoldEnd s
         (let l := if s.tap.ir.seizes then s.emit (.lands none) else s
          let u := ((l.modPwr fun p => { p with softHold := false, hold := none }).setFld F.DBG_DEVSTATE_PHASE 1).takeImages
          (if u.ndRuns then (u.modNd fun n => { n with devState := u.devStateNow }).queueEvent (.sensor 0x100
             u.devStateNow) else u).leaveReset))) ∧
     (s.pwr.supply ≠ .absent → Gives .vinFall s fun t =>
       t.cores = State.reset.cores ∧ t.regs = [] ∧ t.lmem = [] ∧ t.hbm = { State.reset.hbm with repaired := s.hbm.repaired } ∧
       t.seq = State.reset.seq ∧ t.pwr.busTraffic = (s.pwr.busTraffic || s.nd.da.isSome) ∧
       t.net = State.reset.net ∧ t.pwr.supply = .absent ∧ t.fuses = s.fuses ∧ t.host = s.host ∧ t.nd.fw = s.nd.fw ∧
       t.nd.ledger = s.nd.ledger ∧ t.nd.log = s.nd.log ∧ t.nd.config = s.nd.config)) ∧
  (∀ (s : State) (p : Nat), p < 2 → s.powered = true →
     Ends (.perstAssert p) s ((s.modPwr fun x => { x with perstN := x.perstN.set p false }).resetPort p false) ∧
     ((if s.pwr.step < 3 then s.recoveryDue else s.nd.recovery) = false → s.wipeMark = none → Ends (.perstDeassert p) s
       (let u := s.modPwr fun x => { x with perstN := x.perstN.set p true }
        (List.range 2).foldl (fun t q => if t.pwr.perstN.getD q false then t.modPort q fun x => { x with inDetect := true } else t) u)) ∧
     ((s.port p).configured = true →
       Ends (.functionLevelReset p) s (s.resetPort p true) ∧
       Ends (.d3hotEntry p) s
         (let u := (List.range 256).foldl (fun t q => t.pairD3 p q) (s.modPort p fun x => { x with d3hot := true })
          if (List.range 256).any (fun q => s.isRevoking p q) then u.claimedDue p else u)) ∧
     Ends (.d0Return p) s ((s.modPort p fun x => { x with d3hot := false }).flushMsix p) ∧
     (∀ width speed : BitVec 3, (s.port p).inDetect = true → s.pwr.refclk.getD p false = true → width.toNat ≤ 4 → 1 ≤ speed.toNat →
       speed.toNat ≤ 5 → Gives (.portLinkUp p width speed) s fun t =>
         t = keepFixed s { s with regs := t.regs } ∧ t.flag F.HIF_PSTAT_UP p = true ∧ t.fld F.HIF_PSTAT_WIDTH p = width.toNat ∧
         t.fld F.HIF_PSTAT_SPEED p = speed.toNat ∧
         ∀ r i j, Reg.addr r i j ≠ Reg.addr .HIF_PSTAT p 0 → t.reg r i j = s.reg r i j) ∧
     (∀ i j, Gives (.portLinkDown p) s fun t => t.flag F.HIF_PSTAT_UP p = false ∧
       (Reg.addr .HIF_PSTAT i j ≠ Reg.addr .HIF_PSTAT p 0 → t.reg .HIF_PSTAT i j = s.reg .HIF_PSTAT i j)) ∧
     (s.flag F.HIF_PSTAT_UP p = true →
       (∀ rq, s.ndRuns = false → Ends (.configRequest p rq) s (s.emit (.config p true none))) ∧
       let u := s.modPort p fun x => { x with configured := true }
       (∀ r, s.ndRuns = true →
         Ends (.configRequest p (.read r)) s (u.emit (.config p false (some (u.configRead p r))))) ∧
       (∀ v, s.ndRuns = true →
         Ends (.configRequest p (.write .command v)) s ((u.modPort p fun x => { x with
           memSpace := v.getLsbD 1, command := v &&& 0x544 }).emit (.config p false none)) ∧
         Ends (.configRequest p (.write .rebarCtl v)) s (State.emit
           (if (s.port p).memSpace = false ∧ 10 ≤ v.toNat / 256 % 64 ∧ v.toNat / 256 % 64 ≤ 20 then
             u.modPort p fun x => { x with bar4Log := v.toNat / 256 % 64 + 20 } else u) (.config p false none)) ∧
         Ends (.configRequest p (.write .devCtl v)) s ((if v.getLsbD 15 then u.resetPort p true
           else u.modPort p fun x => { x with devCtl := v &&& 0x7FFF ||| (x.devCtl &&& ~~~ v &&& 0xF0000) }).emit
           (.config p false none))) ∧
       u.configRead p .id = 0x09601F4B ∧ u.configRead p .classRev = 0x12000003 ∧
       (u.configRead p .header).toNat / 2 ^ 16 % 128 = 0 ∧
       (u.configRead p .dsnHi ++ u.configRead p .dsnLo = s.fuses.serial)))

/-- R444 to R448, R466: what the commands of the pins and of the resets bring about, as the device then shows it. The fall of
VIN leaves every register at its reset value and the NOR stores as they were; a reset of DEVRST_N scope, by the pin or by the
keyed register, leaves SEQ idle with no program, no group, every engine, channel and link as after reset and every enabled pair
revoked, and a second one merges into it; its hold ends with the pin or after 1 ms, and the start goes on at step 6. R378, R438,
R447, R459: PERST and a function-level reset leave their port's pairs disabled with nothing in hand, and the other port as it
was; D3hot disables the pairs that are not revoked, D0 leaves them so; links come and go; configuration requests are answered.
R180, R204, R237, R238, R384 to R387: what an invalidation, a debug command and a command of a queue pair shows. -/
def Obligations.PinsPortsAndPairsAct : Prop :=
  (∀ (s : State),
    (s.pwr.supply ≠ .absent → Gives .vinFall s fun t =>
      t.pwr.supply = .absent ∧ t.pwr.step = 0 ∧ (∀ r i j, t.reg r i j = r.resetAt i j) ∧ t.seq = Seq.reset ∧
      (∀ c g, t.group c g = none) ∧ t.hbm.bytes = [] ∧ t.nd.position = none ∧ t.nd.config = s.nd.config ∧
      t.nd.ledger = s.nd.ledger ∧ t.nd.log = s.nd.log ∧ t.nd.fw = s.nd.fw) ∧
    exec .devrstNFall s = .next { s with pwr := { s.pwr with devrstN := false } } ∧
    (∀ cmd src, (cmd = .devrstNQualify ∧ src = RstSrc.pin ∧ s.powered = true ∧ s.pwr.devrstN = false ∧ s.pwr.pinHold = false) ∨
        (∃ port, port < 2 ∧ cmd = .devrst port ∧ src = RstSrc.register ∧ s.writable port (Reg.addr .DBG_RSTCTL 0 0) = true) →
      Gives cmd s fun t =>
        t.fld F.DBG_RSTCAUSE_CAUSE = src.code ∧ t.pwr.hold = some src ∧ (src = .pin → t.pwr.pinHold = true) ∧
        (src = .register → t.pwr.softHold = true) ∧
        (s.pwr.hold ≠ none → t.cores = s.cores ∧ t.seq = s.seq ∧ t.net = s.net ∧ t.ports = s.ports ∧ t.nd = s.nd) ∧
        (s.pwr.hold = none →
          t.phase = 6 ∧ t.seqState = SQ.idle ∧ t.seq = Seq.reset ∧ t.safe = false ∧ (∀ c g, t.group c g = none) ∧
          (∀ k < 6, t.mse k = Mse.reset) ∧ (∀ n < 32, t.dma n = Dma.reset) ∧ (∀ l < 96, t.linkSt l = LS.disabled) ∧
          (∀ p < 2, ∀ q < 256, s.qEnabled p q = true → t.qState p q = QS.revoked) ∧
          t.fld F.LNK_NODE_POS = s.fld F.LNK_NODE_POS ∧ t.nd.position = s.nd.position ∧ t.pwr.step = min s.pwr.step 3)) ∧
    (∀ cmd, s.pwr.hold ≠ none →
      (cmd = .devrstNRise ∧ s.pwr.softHold = false ∨ cmd = .resetHoldEnd ∧ s.pwr.softHold = true ∧ s.pwr.pinHold = false) →
      Gives cmd s fun t => t.pwr.hold = none ∧ t.pwr.softHold = false ∧ t.pwr.pinHold = false ∧
        (cmd = .devrstNRise → t.pwr.devrstN = true) ∧ t.cores = s.cores ∧ t.seq = s.seq ∧
        (s.pwr.step = 3 → s.nd.recovery = false → t.pwr.step = 6 ∧ t.phase = 2) ∧
        (s.pwr.step ≠ 3 ∨ s.nd.recovery = true → t.pwr.step = s.pwr.step ∧ t.phase = 1)) ∧
    (s.pwr.softHold = true → s.pwr.pinHold = true → exec .resetHoldEnd s = .next { s with pwr := { s.pwr with softHold := false } }) ∧
    (s.pwr.softHold = true → exec .devrstNRise s = .next { s with pwr := { s.pwr with devrstN := true, pinHold := false } })) ∧
  (∀ (s : State) (p : Nat), p < 2 → s.powered = true →
    let idle (t : State) : Prop := (∀ q < 256, t.qState p q = QS.disabled ∧ (t.pair p q).fetched = []) ∧
      t.port (1 - p) = s.port (1 - p) ∧ t.reg .HIF_MODE 0 0 = s.reg .HIF_MODE 0 0 ∧ t.reg .HIF_FOCTL 0 0 = s.reg .HIF_FOCTL 0 0
    Gives (.perstAssert p) s (fun t => idle t ∧ t.flag F.HIF_PSTAT_UP p = false ∧ (t.port p).configured = false ∧
      (t.port p).inDetect = false) ∧
    (∀ x b, s.pwr.step < 3 → s.recoveryDue = false → s.wipeMark = none → s.ports[p]? = some x → s.pwr.perstN[p]? = some b →
      Gives (.perstDeassert p) s fun t => (t.port p).inDetect = true ∧ t.pwr.perstN[p]? = some true ∧ t.regs = s.regs) ∧
    ((s.port p).configured = true →
      Gives (.functionLevelReset p) s (fun t => idle t ∧ t.reg .HIF_PSTAT p 0 = s.reg .HIF_PSTAT p 0 ∧
        (t.port p).configured = true) ∧
      Gives (.d3hotEntry p) s (fun t => (t.port p).d3hot = true ∧ t.cores = s.cores ∧ ∀ q < 256,
        (t.qState p q = if s.qState p q = QS.revoked then QS.revoked else QS.disabled) ∧
        ∀ f ∈ (t.pair p q).fetched, f.dropped = true)) ∧
    Gives (.d0Return p) s (fun t => (t.port p).d3hot = false ∧ ∀ q < 256, t.qState p q = s.qState p q) ∧
    (∀ width speed : BitVec 3, (s.port p).inDetect = true → s.pwr.refclk.getD p false = true → width.toNat ≤ 4 → 1 ≤ speed.toNat →
      speed.toNat ≤ 5 → Gives (.portLinkUp p width speed) s fun t =>
        t.flag F.HIF_PSTAT_UP p = true ∧ t.fld F.HIF_PSTAT_WIDTH p = width.toNat ∧ t.fld F.HIF_PSTAT_SPEED p = speed.toNat ∧
        t.ports = s.ports) ∧
    Gives (.portLinkDown p) s (fun t => t.reg .HIF_PSTAT p 0 = 0 ∧ t.ports = s.ports) ∧
    (s.flag F.HIF_PSTAT_UP p = true → ∀ rq,
      (s.ndRuns = false → exec (.configRequest p rq) s = .next { s with out := s.out ++ [.config p true none] }) ∧
      (∀ x, s.ndRuns = true → s.ports[p]? = some x → Gives (.configRequest p rq) s fun t => (t.port p).configured = true ∧
        ∃ d, t.out.getLast? = some (.config p false d) ∧ (d = none ↔ ∃ r v, rq = .write r v)))) ∧
  (∀ (s s1 : State) (c g : Nat) (w : IFields) (x : Group),
    let keeps (t : State) : Prop := ∃ y, t.group c g = some y ∧ y.regs = x.regs ∧ y.preds = x.preds
    (Issues s s1 c g 0x00 w {} x → Gives (.nop c g w) s keeps) ∧
    (Issues s s1 c g 0x9C w { plain := true } x → Gives (.cede c g w) s keeps) ∧
    (∀ l, Issues s s1 c g 0x89 w { a := .reg, mods := 0xF, plain := true } x → x.lowest l → w.md = 1 →
      Gives (.setctx c g w) s fun t => keeps t ∧ ∃ y, t.group c g = some y ∧ y.ctxTensor = x.av w l) ∧
    (Issues s s1 c g 0x81 w { imm := true, plain := true } x → x.badDesc = false → x.outstanding = 0 →
      Gives (.twait c g w) s keeps) ∧
    (Issues s s1 c g 0x7A w { mods := 0xFFF0 } x → sysRelease w = false → Gives (.fence c g w) s keeps)) ∧
  (∀ (s : State) (port slot c g : Nat) (x : Group), port < 2 → slot < 80 → g < 64 →
    s.writable port (Reg.addr .CORE_GCTL slot g) = true → s.logicalOf slot = some c → s.group c g = some x → x.killed = false →
    s.phys c = slot →
    (∀ b, x.lanesLeft ≠ 0 → s.blockOf c x.block = some b → g ∈ b.slots → othersRun s c g b → x.state = .parked ∨ x.state = .halted →
      Gives (.groupReplay port slot g) s fun t =>
        t.group c g = some (Group.settle { x with state := .running, stepping := false, live := x.lanesLeft })) ∧
    (s.flag F.CORE_FAULTCTL_MODE slot = true →
      (∀ b, x.lanesLeft ≠ 0 → s.blockOf c x.block = some b → g ∈ b.slots → othersRun s c g b → x.state = .halted →
        Gives (.groupStep port slot g) s fun t =>
          t.group c g = some (Group.settle { x with state := .running, stepping := true, live := x.lanesLeft })) ∧
      (x.state = .running → x.stepping = false → Gives (.groupHalt port slot g) s fun t =>
        t.flag F.CORE_GCTL_HALT slot g = true ∧ t.group c g = some { x with state := .halted })) ∧
    (∀ v : Word, s.writable port (Reg.addr .CORE_FECTL slot 0) = true → v.toNat.testBit 31 = true →
      Gives (.icinv port slot v) s fun t => (t.core c).icache = [] ∧ t.group c g = some x) ∧
    (∀ v : Word, s.writable port (Reg.addr .CORE_DBGDATA slot 0) = true → F.CORE_DBGSEL_GROUP.of (s.reg .CORE_DBGSEL slot 0) = g →
      F.CORE_DBGSEL_CLASS.of (s.reg .CORE_DBGSEL slot 0) = 3 → F.CORE_DBGSEL_INDEX.of (s.reg .CORE_DBGSEL slot 0) = 1 →
      x.state = .parked ∨ x.state = .halted →
      Gives (.dbgdataWrite port slot v) s fun t => t.group c g = some { x with ctxTensor := v })) ∧
  (∀ (s : State) (p q : Nat) (v : Word), p < 2 → q < 256 →
    (∀ port, port < 2 → s.writable port (Reg.addr .MEM_TLBINV 0 0) = true → Gives (.tlbInvalidate port v) s fun t =>
      t.flag F.MEM_TLBINV_DONE = false ∧ t.hbm.tlbInv ≠ []) ∧
    (s.hbm.tlbInv ≠ [] → s.underOld = false → Gives .tlbInvalidateDone s fun t => t.flag F.MEM_TLBINV_DONE = true ∧
      t.hbm.tlbInv = []) ∧
    (s.diesUp = true → 7 ≤ s.pwr.step → s.isRunning = false → s.pwr.idleMs ≠ 0 → Gives .hbmIdleTimeout s fun t =>
      ∀ k < 12, k ∈ t.hbm.asleep) ∧
    (∀ off n, s.barLive p = true → 1 ≤ n → off + n ≤ 2 ^ (s.port p).bar4Log → Gives (.bar4Read p off n) s fun t =>
      ∃ d e, t.out.getLast? = some (.bar4 p d e) ∧ (d ≠ none → s.bar4Ready = true ∧ e = false)) ∧
    (∀ off b s1, s.barLive p = true → s.bar4Ready = true → s.isStandby p = false → b ≠ [] → off + b.length ≤ 2 ^ (s.port p).bar4Log →
      off % 4096 + b.length ≤ 4096 → s.write (agentBar4 p) false off b = (s1, none) →
      exec (.bar4Write p off b) s = .next (keepFixed s s1)) ∧
    (s.barLive p = true → s.flag F.HIF_QCTL_EN p q = false → s.qState p q = QS.disabled →
      ((s.setReg .HIF_QCTL p q (Reg.HIF_QCTL.written (s.reg .HIF_QCTL p q) v)).setFld F.HIF_QCTL_EN 1 p q).enableErr p q = 0 →
      Gives (.queueEnable p p q v) s fun t => t.qEnabled p q = true ∧ t.flag F.HIF_QCTL_EN p q = true ∧
        (t.pair p q).sqHead = (t.pair p q).sqTail) ∧
    (s.writable p (Reg.addr .HIF_QCTL p q) = true → s.flag F.HIF_QCTL_EN p q = true → s.qState p q = QS.enabled →
      (s.pair p q).fetched = [] → Gives (.queueDisable p p q) s fun t => t.qState p q = QS.disabled ∧
        t.flag F.HIF_QCTL_EN p q = false) ∧
    (∀ (x : Port) (y : Pair), s.ports[p]? = some x → x.pairs[q]? = some y →
      (s.doorbell p q = true → y.sqDb ≠ v → v.toNat < s.sqSize p q → Gives (.sqDoorbell p q v []) s fun t =>
        (t.pair p q).sqTail = v.toNat ∧ (t.pair p q).sqDb = v) ∧
      (s.doorbell p q = true → y.cqDb ≠ v → v.toNat < s.cqSize p q → y.cqHead = y.cqTail → y.cqHead = v.toNat →
        Gives (.cqDoorbell p q v) s fun t => (t.pair p q).cqHead = v.toNat ∧ (t.pair p q).cqDb = v)) ∧
    (s.fetches = true → s.nextPair p = some q → s.portLive p = true → Gives (.descriptorFetch p q false) s fun t =>
      (t.pair p q).fetched.length = (s.pair p q).fetched.length + s.fetchCount p q ∧
      t.fld F.HIF_QSTAT_OUT p q = (t.pair p q).fetched.length))

/-! ## Ndomir (spec/13) -/

/-- R410 to R414, R417, R420, R427, R429: three equal good frames latch the position once, and three of another word are a
conflict; a low line latches 0; the successor's position goes out; the ledger is written every hour; an event is sent again to its
receiver, on I3C with an in-band interrupt, or leaves the queue with its acknowledgement; a nonce expires; the I3C codes set, clear
and give Ndomir's address, identity, lengths and events, and a masked interrupt goes out once it is enabled. Rests on the model's reading in log entries 31 and 28. -/
def Obligations.NdomirPinsAndBus : Prop :=
  ∀ (s : State), s.ndRuns = true →
    let high := s.modPwr fun p => { p with posInLow := false }
    (∀ f w, frameWord f = some w → s.nd.position = none →
      let run := if s.nd.run ≠ 0 ∧ s.nd.lastWord = w then s.nd.run + 1 else 1
      let u := high.modNd fun n => { n with lastWord := w, run := run }
      Ends (.positionFrame f) s (if run = 3 then u.latchPosition w else u)) ∧
    (∀ f w p, frameWord f = some w → s.nd.position = some p → w ≠ p →
      let run := if s.nd.confRun ≠ 0 ∧ s.nd.confWord = w then s.nd.confRun + 1 else 1
      let u := high.modNd fun n => { n with confWord := w, confRun := run % 3 }
      Ends (.positionFrame f) s (if run = 3 then u.positionConflict w else u)) ∧
    (s.nd.position = none →
      Ends .posInLowTimeout s ((s.modPwr fun p => { p with posInLow := true }).latchPosition 0)) ∧
    (∀ p, s.nd.position = some p → p.toNat < 63 → Ends .positionFrameSend s (s.emit (.posOut (posFrame (p + 1)))) ∧
      frameWord (posFrame (p + 1)) = some (p + 1)) ∧
    Ends .ledgerHourly s (s.logEntry (.throttleCounts (s.reg .PWR_THRCNT 0 0))).writeLedger.writeLog ∧
    (∀ e r n, s.nd.queue = e :: r → s.nd.unacked = some n →
      (n < 3 → Ends .eventRetryTimeout s
        (let u := (s.modNd fun x => { x with unacked := some (n + 1) }).emit
          (.platformEvent s.nd.recvMedium (mctpPackets (s.unitOf s.nd.recvMedium) 4 ([0x01, s.nd.tid] ++ e.bytes)))
         if s.nd.recvMedium = .i3c then u.raiseIbi else u)) ∧
      Ends .platformEventAcknowledged s
        (((s.modNd fun x => { x with unacked := none, pendingIbi := false }).setEvents r).sendEvent)) ∧
    Ends .nonceExpiry s (s.modNd fun n => { n with nonce := none }) ∧
    Ends .rstdaa s (s.setDa none) ∧
    (∀ da, s.nd.da = none →
      (s.nd.pendingIbi = false → Ends (.entdaa da) s (s.setDa (some da))) ∧
      (s.nd.pendingIbi = true → s.nd.events.getLsbD 0 = true → Ends (.entdaa da) s
        (((s.setDa (some da)).emit (.ibi 0xAE)).modNd fun n => { n with pendingIbi := false }))) ∧
    (∀ ev, (s.nd.pendingIbi = false → Ends (.enec ev) s (s.modNd fun n => { n with events := n.events ||| ev })) ∧
      (s.nd.pendingIbi = true → s.nd.da ≠ none → ev.getLsbD 0 = true → Ends (.enec ev) s
        ((s.emit (.ibi 0xAE)).modNd fun n => { n with events := n.events ||| ev, pendingIbi := false }))) ∧
    (∀ ev, Ends (.disec ev) s (s.modNd fun n => { n with events := n.events &&& ~~~ ev })) ∧
    (∀ v, Ends (.setmwl v) s (s.modNd fun n => { n with mwl := v }) ∧ Ends (.setmrl v) s (s.modNd fun n => { n with mrl := v })) ∧
    (∀ da, s.nd.da = some da →
      (∀ x, Ends (.setnewda x) s (s.setDa (some x))) ∧
      Ends .getpid s (s.emit (.i3c (bigBytes 6 (0x0593 * 2 ^ 33 + 2 ^ 32 + s.fuses.serial.toNat % 2 ^ 32)))) ∧
      Ends .getbcr s (s.emit (.i3c [0x06])) ∧ Ends .getdcr s (s.emit (.i3c [0x00])) ∧
      Ends .getstatus s (s.emit (.i3c [0x00, if s.nd.pendingIbi then 1 else 0])) ∧
      Ends .getmwl s (s.emit (.i3c [BitVec.ofNat 8 (s.nd.mwl.toNat / 256), BitVec.ofNat 8 s.nd.mwl.toNat])) ∧
      Ends .getmrl s (s.emit (.i3c [BitVec.ofNat 8 (s.nd.mrl.toNat / 256), BitVec.ofNat 8 s.nd.mrl.toNat])))

/-- R408, R409, R415 to R417: what Ndomir answers to MCTP control and to PLDM base and platform requests on a medium on
which it is reached: endpoint and terminus ids are set and given, versions, types and commands are those of Tables 13.1 and
13.2, sensors give their readings, effecter 0x0200 is PWR.CAP.WATTS, and events wait for their receiver or are polled. Rests
on the model's reading in log entry 28. -/
def Obligations.NdomirAnswers : Prop :=
  ∀ (s : State) (md : Medium), s.reaches md = true → s.nd.recovery = false →
    let answers (cmd : Instr) (t : State) (code cc : Nat) (data : List Byte) : Prop :=
      Ends cmd s (t.reply md code cc data)
    let slot := mediumIndex md
    (∀ (t : State) code cc data, let unit := if md = .i3c then max 64 (min 256 t.nd.mrl.toNat) else 64
      ∃ l : List (List Byte), l.flatten = data ∧ (∀ x ∈ l, x.length ≤ unit) ∧
        let u := t.emit (.mgmt md code (BitVec.ofNat 8 cc) l)
        t.reply md code cc data = if md ≠ .i3c then u
          else if t.nd.events.getLsbD 0 ∧ t.nd.da ≠ none then (u.emit (.ibi 0xAE)).modNd fun n => { n with pendingIbi := false }
          else u.modNd fun n => { n with pendingIbi := true }) ∧
    (∀ e : Byte, e ≠ 0 → e ≠ 0xFF → answers (.setEndpointId md e) (s.modNd fun n => { n with eid := n.eid.set slot e }) 0x1001 0 [e]) ∧
    answers (.getEndpointId md) s 0x1002 0 [s.nd.eid.getD slot 0] ∧
    answers (.getEndpointUuid md) s 0x1003 0 (bigBytes 16 (Config.uuid s.fuses.serial).toNat) ∧
    (answers (.getMctpVersionSupport md 0) s 0x1004 0 [1, 3] ∧ answers (.getMctpVersionSupport md 0xFF) s 0x1004 0 [1, 3]) ∧
    answers (.getMessageTypeSupport md) s 0x1005 0 [0x00, 0x01, 0x05] ∧
    answers (.getTid md) s 0x0002 0 [s.nd.tid] ∧
    (∀ e : Byte, e ≠ 0 → e ≠ 0xFF → answers (.setTid md e) (s.modNd fun n => { n with tid := e }) 0x0001 0 []) ∧
    (answers (.getPldmVersion md 0) s 0x0003 0 [1, 1] ∧ answers (.getPldmVersion md 2) s 0x0003 0 [1, 3] ∧
      answers (.getPldmVersion md 5) s 0x0003 0 [1, 1]) ∧
    answers (.getPldmTypes md) s 0x0004 0 (toBytes 8 (2 ^ 0 + 2 ^ 2 + 2 ^ 5 + 2 ^ 63)) ∧
    answers (.getPldmCommands md 0) s 0x0005 0 (toBytes 32 0x3E) ∧
    (∀ r, Ends (.setEventReceiver md r) s
      (((s.modNd fun n => { n with receiver := r, recvMedium := md, unacked := none }).reply md 0x0204 0 []).sendEvent)) ∧
    ((s.nd.queue = [] → answers (.pollForPlatformEventMessage md) s 0x020B 0 []) ∧
      ∀ e r, s.nd.queue = e :: r → s.nd.receiver = none → Ends (.pollForPlatformEventMessage md) s
        (s.reply md 0x020B 0 e.bytes).dropEvent) ∧
    ((∀ id : BitVec 16, 1 ≤ id.toNat → id.toNat ≤ 15 →
        answers (.getSensorReading md id) s 0x0211 0 (toBytes 4 (s.fld F.PWR_DSTAT_TJ (id.toNat - 1)))) ∧
      answers (.getSensorReading md 0x22) s 0x0211 0 (toBytes 4 (s.fld F.PWR_PIN_AVG)) ∧
      ∀ id : BitVec 16, 0x40 ≤ id.toNat → id.toNat ≤ 0x4D →
        answers (.getSensorReading md id) s 0x0211 0 (toBytes 4 (s.fld F.PWR_DSTAT_RATE (id.toNat - 0x40)))) ∧
    (answers (.getStateSensorReadings md 0x100) s 0x0221 0 [BitVec.ofNat 8 s.nd.devState] ∧
      answers (.getStateSensorReadings md 0x101) s 0x0221 0 [BitVec.ofNat 8 s.nd.live.grade] ∧
      answers (.getStateSensorReadings md 0x102) s 0x0221 0 [BitVec.ofNat 8 s.nd.throttleState]) ∧
    (∀ v : Word, answers (.setNumericEffecterValue md 0x200 v) (s.setFld F.PWR_CAP_WATTS (min v.toNat 0xFFFF)) 0x0231 0 []) ∧
    answers (.getNumericEffecterValue md 0x200) s 0x0232 0 (toBytes 4 (s.fld F.PWR_CAP_WATTS)) ∧
    Ends (.getPdrRepositoryInfo md) s (s.reply md 0x0250 0 (s.stdBytes 40)).drawn ∧
    (∀ h, Ends (.getPdr md h) s (s.reply md 0x0251 0 (s.stdBytes 64)).drawn)

/-- R423: firmware update goes through its states for the one agent that holds it: an image that is verified goes into the
inactive bank and becomes active with ACTIVATE; nothing becomes active by a cancelled update; a second RequestUpdate, one while a
wipe or a refurbishment goes on, and a command of an agent that holds no update are answered by their codes. R418, R419: SPDM gives
version, capabilities, algorithms, digest, certificate, signed challenge and measurements of slot 0. Rests on the model's
reading in log entries 27, 28 and 54. -/
def Obligations.UpdateAndAttestation : Prop :=
  ∀ (s : State) (md : Medium), s.reaches md = true → s.nd.recovery = false →
    let answers (cmd : Instr) (t : State) (code cc : Nat) (data : List Byte) : Prop :=
      Ends cmd s (t.reply md code cc data)
    answers (.queryDeviceIdentifiers md) s 0x0501 0 [0x4B, 0x1F, 0x60, 0x09] ∧
    answers (.getFirmwareParameters md) s 0x0502 0 ([1, 2, 3].flatMap fun c =>
      let v := (s.activeImage c).elim [] fun i => versionString i.version
      [0x01, BitVec.ofNat 8 v.length] ++ v) ∧
    answers (.getStatus md) s 0x051B 0 [BitVec.ofNat 8 s.nd.fwu.code] ∧
    (s.nd.fwu ≠ .idle → answers (.requestUpdate md) s 0x0510 0x81 []) ∧
    (s.nd.fwu = .idle → s.nd.wiping ≠ none ∨ s.nd.refurbishing = true → answers (.requestUpdate md) s 0x0510 0x86 []) ∧
    (s.nd.fwu = .idle → s.nd.wiping = none → s.nd.refurbishing = false → answers (.requestUpdate md)
      ((s.modNd fun n => { n with fwu := .learn, fwuAgent := md, fwuComps := [], fwuVerified := [] }).showState) 0x0510 0 []) ∧
    ((s.nd.fwu = .idle ∨ s.nd.fwuAgent ≠ md) → answers (.activateFirmware md) s 0x051A 0x80 [] ∧
      answers (.cancelUpdate md) s 0x051D 0x80 []) ∧
    (s.nd.fwuAgent = md →
      (∀ l, s.nd.fwu = .learn → answers (.passComponentTable md l) (s.modNd fun n => { n with fwu := .ready, fwuComps := l }) 0x0513 0 []) ∧
      (∀ c, s.nd.fwu = .ready → 1 ≤ c → c ≤ 3 → s.nd.fwuComps.contains c = true →
        answers (.updateComponent md c) ((s.modNd fun n => { n with fwu := .download, fwuComp := c }).reply md 0x0514 0 []) 0x0515 0 []) ∧
      (∀ file, s.nd.fwu = .download →
        let img := FwImage.ofFile file
        let u := ((s.storeImage s.nd.fwuComp img).reply md 0x0516 0 []).modNd fun n => { n with fwu := .ready }
        (imageFits img s.nd.fwuComp = true → u.acceptable img = true → answers (.firmwareData md file) ((u.modNd fun n => { n with
          fwuVerified := n.fwuVerified.filter (· != s.nd.fwuComp) ++ [s.nd.fwuComp] }).reply md 0x0517 0 []) 0x0518 0 []) ∧
        (imageFits img s.nd.fwuComp = false ∨ u.acceptable img = false → answers (.firmwareData md file) ((u.modNd fun n => { n with
          fwuVerified := n.fwuVerified.filter (· != s.nd.fwuComp) }).fwHistory s.nd.fwuComp 1 img) 0x0517 1 [])) ∧
      (s.nd.fwu = .ready → s.nd.fwuVerified ≠ [] → answers (.activateFirmware md)
        ((((s.nd.fwuVerified.foldl State.activate s).modNd fun n => { n with
          fwu := .idle, fwuComps := [], fwuVerified := [], burnPending := true }).mgtAlert 1).loadIds.showState) 0x051A 0 []) ∧
      (s.nd.fwu = .download → answers (.cancelUpdateComponent md) (s.modNd fun n => { n with fwu := .ready }) 0x051C 0 []) ∧
      (s.nd.fwu ≠ .idle → answers (.cancelUpdate md)
        ((s.modNd fun n => { n with fwu := .idle, fwuComps := [], fwuVerified := [] }).showState) 0x051D 0 [])) ∧
    answers (.spdmGetVersion md) s 0x2084 0 [0x12] ∧ answers (.getCapabilities md) s 0x20E1 0 (toBytes 4 0x16) ∧
    answers (.negotiateAlgorithms md) s 0x20E3 0 (toBytes 8 0x100000010) ∧
    answers (.getDigests md) s 0x2081 0 ([0x01] ++ bigBytes 32 (Config.sha256 s.chain).toNat) ∧
    (∀ off n, answers (.getCertificate md 0 off n) s 0x2082 0 ((s.chain.drop off).take n)) ∧
    (∀ i nonce, Ends (.challenge md 0 i nonce) s (s.reply md 0x2083 0
      (s.signed (bigBytes 32 (Config.sha256 s.chain).toNat ++ bigBytes 32 nonce.toNat ++ [i]))).drawn) ∧
    (∀ nonce, answers (.getMeasurements md 0 0 nonce) s 0x20E0 0 [9]) ∧
    (∀ (i : Byte) nonce, 1 ≤ i.toNat → i.toNat ≤ 9 → Ends (.getMeasurements md 0 i nonce) s (s.reply md 0x20E0 0
      (s.signed (s.measurement i.toNat ++ bigBytes 32 nonce.toNat))).drawn) ∧
    (∀ i, 1 ≤ i → i ≤ 9 → ∃ v, s.measurement i = [BitVec.ofNat 8 i, 0x01] ++ toBytes 2 (v.length + 3) ++
      [(if 6 ≤ i then 1#1 else 0#1) ++ Config.measType i] ++ toBytes 2 v.length ++ v)

/-- R429: a signed OEM request passes where no update, wipe or refurbishment is in progress, the owner is as it must be, a nonce is
valid and the signature was made over its code, the serial number, that nonce and its body with a right key: the owner's, the new
owner's for TakeOwnership, a tenant's too for TenantWipe; it uses up its nonce and has its effect. One that fails changes nothing and
says BUSY, STATE, BADNONCE or BADSIG, in this order. R430 to R435: what a wipe erases and records, and what a refurbishment assigns.
Rests on the model's reading in log entries 32 and 55. -/
def Obligations.OwnersAndWipes : Prop :=
  (∀ (s : State) (rq : SignedReq), s.reaches rq.medium = true → s.nd.recovery = false →
    let used := s.modNd fun n => { n with nonce := none }
    let isOver (cmd : Nat) (body : List Byte) (n : BitVec 128) : Prop :=
      rq.covers = toBytes 1 cmd ++ toBytes 8 s.fuses.serial.toNat ++ bigBytes 16 n.toNat ++ body
    let made (k : Key) (cmd : Nat) (body : List Byte) : Prop :=
      rq.signer = some k ∧ ∃ n, s.nd.nonce = some n ∧ isOver cmd body n
    let done (cmd : Instr) (code : Nat) (t : State) : Prop := Ends cmd s (t.reply rq.medium (0x3F00 + code) 0 [])
    (s.oemBusy = false →
      (∀ k, s.nd.owner = none → rq.medium = .i3c → made k 3 (keyBytes [k]) →
        done (.takeOwnership rq k) 3 (used.setOwner (some k) none)) ∧
      (∀ o, s.nd.owner = some o →
        (∀ k, made o 4 (keyBytes [k]) → done (.transferOwnership rq k) 4 ((used.setOwner (some k) (some 2)).beginWipe 2)) ∧
        (made o 5 [] → done (.releaseOwnership rq) 5 ((used.setOwner none (some 3)).beginWipe 3)) ∧
        (∀ ks, ks.length ≤ 4 → made o 6 (keyBytes ks) → done (.setTenantKeys rq ks) 6
          (((used.modNd fun n => { n with tenants := ks }).writeConfig).writeLedger)) ∧
        (∀ k, k = o ∨ k ∈ s.nd.tenants → made k 7 [] → done (.tenantWipe rq) 7 (used.beginWipe 1)) ∧
        (made o 8 [] →
          done (.enterRefurbishment rq) 8 ((used.modNd fun n => { n with refurbishing := true }).beginWipe 4)))) ∧
    (∀ (k : Key) (ks : List Key), ks.length ≤ 4 → ∀ cmd code body right keys,
      (cmd, code, body, right, keys) ∈ [
        (Instr.takeOwnership rq k, 3, keyBytes [k], s.nd.owner = none ∧ rq.medium = .i3c, [k]),
        (.transferOwnership rq k, 4, keyBytes [k], s.nd.owner ≠ none, s.nd.owner.toList),
        (.releaseOwnership rq, 5, [], s.nd.owner ≠ none, s.nd.owner.toList),
        (.setTenantKeys rq ks, 6, keyBytes ks, s.nd.owner ≠ none, s.nd.owner.toList),
        (.tenantWipe rq, 7, [], s.nd.owner ≠ none, s.nd.owner.toList ++ s.nd.tenants),
        (.enterRefurbishment rq, 8, [], s.nd.owner ≠ none, s.nd.owner.toList)] →
      let fails (cc : Nat) : Prop := Ends cmd s (s.reply rq.medium (0x3F00 + code) cc [])
      (s.oemBusy = true → fails 0x83) ∧
      (s.oemBusy = false → ¬ right → fails 0x82) ∧
      (s.oemBusy = false → right → s.nd.nonce = none → fails 0x81) ∧
      (∀ n, s.oemBusy = false → right → s.nd.nonce = some n → (∀ x ∈ keys, rq.signer ≠ some x) ∨ ¬ isOver code body n →
        fails 0x80)) ∧
    (∀ ks, 4 < ks.length → Ends (.setTenantKeys rq ks) s (s.reply rq.medium 0x3F06 0x03 []))) ∧
  (∀ (s : State) (md : Medium), s.reaches md = true → s.nd.recovery = false →
    Ends (.getNonce md) s ((s.drawn.modNd fun x => { x with nonce := some (BitVec.ofNat 128 (Config.random s.free).toNat) }).reply
      md 0x3F01 0 (bigBytes 16 (BitVec.ofNat 128 (Config.random s.free).toNat).toNat)) ∧
    ∀ k < 4, Ends (.getLedger md k) s (s.reply md 0x3F02 0 ((s.ledgerBytes.drop (256 * k)).take 256))) ∧
  (∀ (s : State) (cause failed : Nat) (clean : Bool), s.nd.wiping = some cause → s.diesUp = true →
    (s.nd.wipeResume = false → 7 ≤ s.pwr.step →
      Ends (.wipeComplete failed clean) s ((s.erase.recordWipe cause failed clean).startReset .wipe)) ∧
    (s.nd.wipeResume = true → s.pwr.step = 7 →
      Ends (.wipeComplete failed clean) s ((s.erase.recordWipe cause failed clean).showState.portsDetect)) ∧
    s.erase.hbm.bytes = [] ∧ s.erase.lmem = [] ∧ s.erase.nd.tenants = [] ∧ s.erase.nd.tenantRegion = [] ∧
    ∀ m ∈ s.erase.mses, m.ranges = [] ∧ m.held = []) ∧
  (∀ (s : State) (r : RefurbResult), s.nd.refurbishing = true → s.nd.wiping = none → s.diesUp = true → 8 ≤ s.pwr.step →
    Ends (.refurbishmentComplete r) s
      ((((List.range 16).foldl State.refurbCluster (s.rebuildMap r)).assignGrade.modNd fun n => { n with
        refurbishing := false }).startReset .refurbish))

/-! ## Registers (spec/16) -/

/-- R10, R381, R468, R470: a write at an offset that is no register's place, or misaligned, does nothing; one of a register
without a behaviour of its own writes each field by its access code and no other register; a base of a queue pair takes it while
EN is 0, and the wiring while the fabric links are disabled; a write that is a command is that command. R402, R403, R443, R469,
R471: a write that may not reach its register is ignored; so are those of a fenced device to SEQ, MSE, DMA, NUM and CORE. R381,
R443: a 64-bit write is two of 32 bits, a narrower one is discarded; a read gives the bytes of the enclosing register, zero at a
RSVD offset, and the reset values of a block that is not there yet. Rests on the model's reading in log entry 33. -/
def Obligations.RegisterWrites : Prop :=
  ∀ (s : State) (port off : Nat) (v : Word), port < 2 →
    (Reg.at_ off = none → exec (.registerWrite port off (.word v)) s = .next s) ∧
    (∀ r i j, Reg.at_ off = some (r, i, j) →
      (s.writable port off = true →
        (r ∉ ownWrites ∨ (r ∈ [Reg.HIF_QSQLO, .HIF_QSQHI, .HIF_QCQLO, .HIF_QCQHI, .HIF_QSTLO, .HIF_QSTHI] ∧
            s.flag F.HIF_QCTL_EN i j = false) ∨ (r ∈ [Reg.LNK_NODE, .LNK_SYSCFG] ∧ s.fabricDisabled = true)) →
        Gives (.registerWrite port off (.word v)) s fun t =>
          t = keepFixed s { s with regs := t.regs } ∧
          (∀ f ∈ r.desc.fields,
            let old := bitsOf (s.reg r i j).toNat f.hi f.lo
            let w := bitsOf v.toNat f.hi f.lo
            bitsOf (t.reg r i j).toNat f.hi f.lo = match f.acc with
              | .ro => old
              | .rw => w
              | .w1c => old - (old &&& w)
              | .w1cAll => if w = 0 then old else 0
              | .wo => 0
              | .rsvd => 0) ∧
          ∀ q k l, Reg.addr q k l ≠ off → t.reg q k l = s.reg q k l) ∧
      (r ∈ [Reg.HIF_QSQLO, .HIF_QSQHI, .HIF_QCQLO, .HIF_QCQHI, .HIF_QSTLO, .HIF_QSTHI] → s.flag F.HIF_QCTL_EN i j = true →
        exec (.registerWrite port off (.word v)) s = .next s) ∧
      (∀ c, writeCommand port r i j v = some c → exec (.registerWrite port off (.word v)) s = exec c s) ∧
      (r ≠ .HIF_QCTL ∨ F.HIF_QCTL_EN.of v ≠ 1 →
        (s.isStandby port = true ∧ standbyMayWrite port off = false) ∨ otherPortPart port off = true ∨ s.barLive port = false ∨
          (BlockId.ofOffset off = some .core ∧ s.isRetired ((off - 0x1000000) / 0x10000) = true) ∨
          (s.safe = true ∧ ∃ b ∈ [BlockId.seq, .mse, .dma, .num, .core], BlockId.ofOffset off = some b) →
        exec (.registerWrite port off (.word v)) s = .next s)) ∧
    (∀ lo hi, (off % 8 = 0 → Ends (.registerWrite port off (.pair lo hi)) s
        ((s.wordWrite port off lo).wordWrite port (off + 4) hi)) ∧
      (off % 8 ≠ 0 → exec (.registerWrite port off (.pair lo hi)) s = .next s)) ∧
    Ends (.registerWrite port off (.word v)) s (s.wordWrite port off v) ∧
    (∀ b, exec (.registerWrite port off (.narrow b)) s = .next s) ∧
    (off % 4 = 0 →
      (∀ r i j, Reg.at_ off = some (r, i, j) → s.bar0Read off 4 = toBytes 4 (s.shown r i j).toNat) ∧
      (Reg.at_ off = none → s.bar0Read off 4 = [0, 0, 0, 0]) ∧
      ∀ k n, k + n ≤ 4 → s.bar0Read (off + k) n = ((s.bar0Read off 4).drop k).take n) ∧
    ∀ r i j b, BlockId.ofOffset (Reg.addr r i j) = some b →
      (b ∈ [BlockId.mem, .mse, .dma] ∧ s.pwr.step < 7 ∨ b ∈ [BlockId.core, .num] ∧ s.pwr.step < 8) →
      s.shown r i j = r.resetAt i j

/-- R183. -/
def Obligations.PlacementModeMovesNoData : Prop :=
  ∀ (s : State) (port g : Nat) (v : Word), port < 2 → g < 47 → s.writable port (Reg.addr .MEM_IMODE g 0) = true →
    Gives (.registerWrite port (Reg.addr .MEM_IMODE g 0) (.word v)) s fun t =>
      let mode := v.toNat / 8 % 2
      let gran := if v.toNat % 8 ≤ 4 then v.toNat % 8 else s.fld F.MEM_IMODE_GRAN g
      t = keepFixed s { s with regs := t.regs } ∧ t.fld F.MEM_IMODE_MODE g = mode ∧ t.fld F.MEM_IMODE_GRAN g = gran ∧
      (∀ q k l, Reg.addr q k l ≠ Reg.addr .MEM_IMODE g 0 → t.reg q k l = s.reg q k l) ∧
      ∀ pa n, t.paBytes pa n = (List.range n).map fun i =>
        let a := pa + i
        let o := a % (12 * 2 ^ 30)
        let u := granOf gran
        let at_ := if a / (12 * 2 ^ 30) ≠ g then s.place a
          else if mode = 0 then (o / u % 12, g * 2 ^ 30 + o / u / 12 * u + o % u)
          else
            let x := o % (3 * 2 ^ 30)
            (3 * (o / (3 * 2 ^ 30)) + x / u % 3, g * 2 ^ 30 + x / u / 3 * u + x % u)
        Sparse.get 0 s.hbm.bytes (s.redirected (at_.1 * 2 ^ 36 + at_.2))

/-- R236: after reset every core is in park mode; a trap parks the group where MODE is 0 and halts it where MODE is 1. -/
def Obligations.TrapModes : Prop :=
  (∀ p, State.reset.fld F.CORE_FAULTCTL_MODE p = 0) ∧
  ∀ (s s1 : State) (c g : Nat) (w : IFields) (x : Group), Issues s s1 c g 0x9F w { imm := true } x → x.exec w ≠ 0 →
    (s1.fld F.CORE_FAULTCTL_MODE (s1.phys c) = 0 → Gives (.trapSoft c g w) s fun t =>
      ∃ y, t.group c g = some y ∧ y.state = .parked) ∧
    (s1.fld F.CORE_FAULTCTL_MODE (s1.phys c) = 1 → Gives (.trapSoft c g w) s fun t =>
      ∃ y, t.group c g = some y ∧ y.state = .halted)

/-- R401. -/
def Obligations.FailoverMode : Prop :=
  State.reset.failover = false ∧
  ∀ (s : State) (p : Nat) (v : Word), p < 2 → s.writable p (Reg.addr .HIF_MODE 0 0) = true →
    ((∃ a < 2, ∃ q < 256, s.qEnabled a q = true) ∨ s.seqState ≠ SQ.idle → exec (.failover p v) s = .next s) ∧
    ((∀ a < 2, ∀ q < 256, s.qEnabled a q = false) → s.seqState = SQ.idle → Gives (.failover p v) s fun t =>
      t = keepFixed s { s with regs := t.regs } ∧ t.fld F.HIF_MODE_FAILOVER = v.toNat % 2 ∧
      (t.failover = true ↔ v.toNat % 2 = 1) ∧ (v.toNat % 2 = 1 → t.fld F.HIF_MODE_ACTIVE = p) ∧
      (v.toNat % 2 = 0 → t.fld F.HIF_MODE_ACTIVE = s.fld F.HIF_MODE_ACTIVE) ∧
      ∀ r i j, Reg.addr r i j ≠ Reg.addr .HIF_MODE 0 0 → t.reg r i j = s.reg r i j)

/-- R412: three frames of another word than the latched one are a conflict; a frame with bad parity is ignored. -/
def Obligations.PositionConflict : Prop :=
  ∀ (s : State), s.ndRuns = true →
    (∀ f, frameWord f = none → exec (.positionFrame f) s = .next { s with pwr := { s.pwr with posInLow := false } }) ∧
    ∀ (f1 f2 f3 : BitVec 9) (w p : BitVec 6), frameWord f1 = some w → frameWord f2 = some w → frameWord f3 = some w →
      s.nd.position = some p → w ≠ p → s.nd.confRun = 0 ∨ s.nd.confWord ≠ w →
      ∃ s1 s2 t, exec (.positionFrame f1) s = .next s1 ∧ exec (.positionFrame f2) s1 = .next s2 ∧
        exec (.positionFrame f3) s2 = .next t ∧
        t.flag F.MGT_POS_CONFLICT = true ∧ t.fld F.MGT_POS_CWORD = w.toNat ∧ (t.reg .MGT_ALERT 0 0).toNat.testBit 3 = true ∧
        (s.nd.queue.length < 256 → t.nd.queue = s.nd.queue ++ [.sensor 0x100 s.nd.devState]) ∧
        t.nd.position = some p ∧ t.fld F.MGT_POS_POS = s.fld F.MGT_POS_POS ∧ t.node = s.node ∧ t.net = s.net ∧
        SameBlock .lnk s t

/-! ## Numbers (spec/02) -/

/-- R48: a value that a format holds is kept in every rounding mode, without a flag. -/
def Obligations.ExactValuesAreKept : Prop :=
  ∀ (r : Rnd) (n : Bool) (m : Nat) (e : Int),
    (∀ w : Word, (Num.fin n m e).eqv (w32Val w) = true → w.msb = n → toW32 r (.fin n m e) = (w, 0)) ∧
    (∀ h : BitVec 16, (Num.fin n m e).eqv (b16Val h) = true → h.msb = n → toB16 r (.fin n m e) = (h, 0)) ∧
    (∀ b : Byte, (Num.fin n m e).eqv (f8Val b) = true → encF8 r (.fin n m e) = ⟨b, 0, false⟩) ∧
    (∀ c < 16, c ≠ 8 → (Num.fin n m e).eqv (h4Val c) = true → encH4Fin r n m e = ⟨BitVec.ofNat 8 c, 0, false⟩)

/-! ## Packets (spec/08) -/

/-- R259, Table 8.8: a packet is read back from its two header words and its payload, and header words from their packet. -/
def Obligations.PacketHeaders : Prop :=
  (∀ (p : Packet) (w0 w1 : DWord), p.header = [w0, w1] → { Packet.ofHeader w0 w1 with payload := p.payload } = p) ∧
  (∀ w0 w1 : DWord, (Packet.ofHeader w0 w1).header = [w0, w1])

/-! ## The test access port (spec/15) -/

/-- R461: with VIN present a rising edge of TCK moves the controller and the selected register, and a falling one loads the
instruction register or the boundary, or shows a bit; TRST_N low resets the port, whatever TCK does; with VIN absent TCK does nothing.
During a reset an instruction that seizes the pins drives the lands from the boundary, and outside one BYPASS stands in for it. Rests
on the model's reading in log entry 29. -/
def Obligations.TestPort : Prop :=
  ∀ (s : State),
    let driving : Bool := s.tap.ir.seizes && s.pwr.hold.isSome
    let reset : State := { s with tap := Tap.reset, out := s.out ++ if driving then [.lands none] else [] }
    exec .trstNFall s = .next reset ∧
    (s.pwr.supply = .absent → ∀ rising tms tdi, exec (.tckEdge rising tms tdi) s = .next s) ∧
    (s.pwr.supply ≠ .absent → ∀ tms tdi,
      (∀ rising, exec (.tckEdge rising tms ⟨tdi, false⟩) s = .next reset) ∧
      (Gives (.tckEdge true tms ⟨tdi, true⟩) s fun t => t = { s with tap := t.tap, out := t.out, free := t.free } ∧
        t.tap.st = s.tap.st.next tms ∧ t.tap.boundary = s.tap.boundary ∧
        t.tap.ir = (if t.tap.st = .testLogicReset then .idcode else s.tap.ir) ∧
        t.out = (s.out ++ if driving ∧ t.tap.st = .testLogicReset then [.lands none] else []) ∧
        t.tap.drShift = (if s.tap.st = .captureDr then s.captured
          else if s.tap.st = .shiftDr ∧ s.tap.drShift ≠ [] then s.tap.drShift.tail ++ [tdi] else s.tap.drShift) ∧
        t.tap.irShift = (if s.tap.st = .captureIr then [] else if s.tap.st = .shiftIr then tdi :: s.tap.irShift
          else s.tap.irShift)) ∧
      (s.tap.st = .updateIr → s.tap.irShift.all id = true → exec (.tckEdge false tms ⟨tdi, true⟩) s =
        .next { reset with tap := { s.tap with ir := .bypass }, out := reset.out ++ [.tdo none] }) ∧
      (s.tap.st = .updateIr → s.pwr.hold = none → Gives (.tckEdge false tms ⟨tdi, true⟩) s fun t => t.tap.ir.seizes = false) ∧
      (s.tap.st = .updateIr → s.pwr.hold ≠ none →
        let i := tapSelected s.tap.irShift
        let drives (j : TapInstr) : Option (TapInstr × List Bool) := if j.seizes then some (j, s.tap.boundary) else none
        exec (.tckEdge false tms ⟨tdi, true⟩) s = .next { s with
          tap := { s.tap with ir := i }
          out := s.out ++ (if drives i = drives s.tap.ir then [] else [.lands (drives i)]) ++ [.tdo none] }) ∧
      (s.tap.st = .updateDr → s.tap.ir.onBoundary = true → exec (.tckEdge false tms ⟨tdi, true⟩) s = .next { s with
        tap := { s.tap with boundary := s.tap.drShift }
        out := s.out ++ (if driving ∧ s.tap.drShift ≠ s.tap.boundary then [.lands (some (s.tap.ir, s.tap.drShift))] else []) ++
          [.tdo none] }) ∧
      (∀ b l, s.tap.st = .shiftDr → s.tap.drShift = b :: l → exec (.tckEdge false tms ⟨tdi, true⟩) s =
        .next { s with out := s.out ++ [.tdo (some b)] }) ∧
      (s.tap.st ∉ [TapState.updateIr, .updateDr, .shiftDr, .shiftIr] → exec (.tckEdge false tms ⟨tdi, true⟩) s =
        .next { s with out := s.out ++ [.tdo none] })) ∧
    ((s.tap.ir = .bypass ∨ s.tap.ir = .clamp ∨ s.tap.ir = .highz → s.captured = [false]) ∧
      (s.tap.ir = .idcode → s.captured = (List.range 32).map (Nat.testBit 0x3096094F)))

/-- R461: whatever command a step runs, the data register of the port keeps the length that Capture-DR gave it until Update-
DR. Rests on the model's reading in log entry 29. -/
def Obligations.TapKeepsItsLength : Prop := ∀ (s t : State), s.tap.fits → step s = .next t → t.tap.fits

/-! ## The machine -/

/-- R187, R221: whatever command a step runs, the memories keep their canonical form: addresses rise, and HBM and local memory list
no byte that an unlisted address reads as. Rests on log entry 6. -/
def Obligations.MemoryStaysCanonical : Prop := ∀ (s t : State), Memory.wf s = true → step s = .next t → Memory.wf t = true

/-- R208, R210: whatever command a step runs, the block of every group that a core holds stays among the core's blocks, with the
group's slot, and no two blocks share an id. -/
def Obligations.GroupsKeepTheirBlocks : Prop := ∀ (s t : State), s.groupsHeld → step s = .next t → t.groupsHeld

/-- R461: what every step keeps holds at reset: the port has no register to shift, the memories have their canonical form, and no
core holds a group. -/
def Obligations.InvariantsAtReset : Prop :=
  State.reset.tap.fits ∧ State.reset.tap.st = .testLogicReset ∧ State.reset.tap.ir = .idcode ∧ Memory.wf State.reset = true ∧
  State.reset.groupsHeld

/-- The command at the front of the queue runs on the rest of the queue, which it leaves as it is; with no command the device
idles (log entry 1). R1, R422: no command changes the fuses set at manufacture. -/
def Obligations.StepRunsTheFrontCommand : Prop :=
  (∀ (c : Instr) (s : State), step { s with pending := c :: s.pending } = exec c s) ∧
  (∀ s : State, s.pending = [] → step s = .next s) ∧
  ∀ s t : State, step s = .next t → t.pending = s.pending.drop 1 ∧ t.fuses.rpRate = s.fuses.rpRate ∧
    t.fuses.binS2 = s.fuses.binS2 ∧ t.fuses.serial = s.fuses.serial ∧ t.fuses.keyHash = s.fuses.keyHash

/-- Every command whose units exist answers a next state in every state; one that names no unit of the device stops. Rests
on the model's reading in log entry 2. -/
def Obligations.CommandsComplete : Prop :=
  ∀ (c : Instr) (s : State), (c.wf = true → ∃ t, exec c s = .next t) ∧ (c.wf = false → exec c s = .fault .noSuchUnit)

/-- R10, R448, R468: without VIN every register holds the reset value of its field map; no program, no pair, no group and no
descriptor is held, no page is translated, and no command waits. -/
def Obligations.ResetState : Prop :=
  let s := State.reset
  (∀ r i j, s.reg r i j = r.resetAt i j) ∧ s.seqState = SQ.idle ∧ s.safe = false ∧ s.failover = false ∧
  (∀ p q, s.qEnabled p q = false) ∧ (∀ l, s.linkSt l = LS.disabled) ∧ (∀ c g, s.group c g = none) ∧
  (∀ k < 6, s.mse k = Mse.reset) ∧ (∀ n < 32, s.dma n = Dma.reset) ∧ (∀ g, s.fld F.MEM_IMODE_MODE g = 0 ∧ granOf (s.fld F.MEM_IMODE_GRAN g) = 4096) ∧
  s.hbm.tlb = [] ∧ s.hbm.poison = [] ∧ s.powered = false ∧ s.pending = []
end

