-- ==== Sys2Proof/Laws/Sparse.lean ====
section
/-! SUPPORT. Laws of the sparse lists: what a read gives after a write, and that every operation keeps the canonical form. -/

namespace Sys2Proof.Sparse

variable {α : Type}

theorem find_put_same (m : Sparse α) (x : Nat) (v : α) : find (put m x v) x = some v := by
  induction m with
  | nil => simp [put, find]
  | cons e r ih =>
    obtain ⟨k, w⟩ := e
    simp only [put]
    split
    · simp [find]
    · split
      · simp [find]
      · next h1 h2 => simp only [find]; rw [if_neg (fun h => h2 h.symm)]; exact ih

theorem find_put_other (m : Sparse α) (x y : Nat) (v : α) (h : y ≠ x) : find (put m x v) y = find m y := by
  induction m with
  | nil => simp [put, find, Ne.symm h]
  | cons e r ih =>
    obtain ⟨k, w⟩ := e
    simp only [put]
    split
    · simp [find, Ne.symm h]
    · split
      · next h1 h2 => subst h2; simp [find, Ne.symm h]
      · simp only [find]; split
        · rfl
        · exact ih

theorem find_drop_other (m : Sparse α) (x y : Nat) (h : y ≠ x) : find (drop m x) y = find m y := by
  induction m with
  | nil => rfl
  | cons e r ih =>
    obtain ⟨k, w⟩ := e
    simp only [drop]
    split
    · next hk => subst hk; simp [find, Ne.symm h, ih]
    · simp only [find]; split
      · rfl
      · exact ih

theorem find_drop_same (m : Sparse α) (x : Nat) : find (drop m x) x = none := by
  induction m with
  | nil => rfl
  | cons e r ih =>
    obtain ⟨k, w⟩ := e
    simp only [drop]
    split
    · exact ih
    · next hk => simp only [find]; rw [if_neg hk]; exact ih

theorem rising_tail {e : Nat × α} {r : Sparse α} (h : rising (e :: r) = true) : rising r = true := by
  cases r with
  | nil => rfl
  | cons f t => simp [rising] at h; exact h.2

/-- Every key of a rising list's tail lies above its head. -/
theorem rising_head_lt {k : Nat} {v : α} {r : Sparse α} (h : rising ((k, v) :: r) = true) : ∀ e ∈ r, k < e.1 := by
  induction r generalizing k v with
  | nil => simp
  | cons f t ih =>
    obtain ⟨b, w⟩ := f
    simp [rising] at h
    intro e he
    rcases List.mem_cons.mp he with rfl | he
    · exact h.1
    · exact Nat.lt_trans h.1 (ih h.2 e he)

theorem rising_cons {k : Nat} {v : α} {r : Sparse α} (hr : rising r = true) (h : ∀ e ∈ r, k < e.1) :
    rising ((k, v) :: r) = true := by
  cases r with
  | nil => rfl
  | cons f t =>
    obtain ⟨b, w⟩ := f
    simp [rising, hr]
    exact h (b, w) (by simp)

theorem mem_put {m : Sparse α} {x : Nat} {v : α} {e : Nat × α} (h : e ∈ put m x v) : e = (x, v) ∨ e ∈ m := by
  induction m with
  | nil => simp [put] at h; exact .inl h
  | cons f r ih =>
    obtain ⟨k, w⟩ := f
    simp only [put] at h
    split at h
    · simpa using h
    · split at h
      · simp at h; rcases h with h | h
        · exact .inl h
        · exact .inr (List.mem_cons_of_mem _ h)
      · simp only [List.mem_cons] at h
        rcases h with h | h
        · exact .inr (by simp [h])
        · rcases ih h with h | h
          · exact .inl h
          · exact .inr (List.mem_cons_of_mem _ h)

theorem mem_drop {m : Sparse α} {x : Nat} {e : Nat × α} (h : e ∈ drop m x) : e ∈ m := by
  induction m with
  | nil => simp [drop] at h
  | cons f r ih =>
    obtain ⟨k, w⟩ := f
    simp only [drop] at h
    split at h
    · exact List.mem_cons_of_mem _ (ih h)
    · simp only [List.mem_cons] at h
      rcases h with h | h
      · simp [h]
      · exact List.mem_cons_of_mem _ (ih h)

theorem rising_put {m : Sparse α} (h : rising m = true) (x : Nat) (v : α) : rising (put m x v) = true := by
  induction m with
  | nil => rfl
  | cons f r ih =>
    obtain ⟨k, w⟩ := f
    simp only [put]
    split
    · next hx => exact rising_cons h (by
        intro e he
        rcases List.mem_cons.mp he with rfl | he
        · exact hx
        · exact Nat.lt_trans hx (rising_head_lt h e he))
    · split
      · next hx => subst hx; exact rising_cons (rising_tail h) (rising_head_lt h)
      · next h1 h2 => exact rising_cons (ih (rising_tail h)) (by
          intro e he
          rcases mem_put he with rfl | he
          · show k < x; omega
          · exact rising_head_lt h e he)

theorem rising_drop {m : Sparse α} (h : rising m = true) (x : Nat) : rising (drop m x) = true := by
  induction m with
  | nil => rfl
  | cons f r ih =>
    obtain ⟨k, w⟩ := f
    simp only [drop]
    split
    · exact ih (rising_tail h)
    · exact rising_cons (ih (rising_tail h)) fun e he => rising_head_lt h e (mem_drop he)

variable [DecidableEq α]

@[simp] theorem get_set_same (d : α) (m : Sparse α) (x : Nat) (v : α) : get d (set d m x v) x = v := by
  unfold get set
  split
  · next hv => rw [find_drop_same, hv]; rfl
  · rw [find_put_same]; rfl

theorem get_set_other (d : α) (m : Sparse α) (x y : Nat) (v : α) (h : y ≠ x) : get d (set d m x v) y = get d m y := by
  unfold get set
  split
  · rw [find_drop_other m x y h]
  · rw [find_put_other m x y v h]

/-- The same where the two reads name their defaults apart. -/
theorem get_set_other' (d e : α) (m : Sparse α) (x y : Nat) (v : α) (h : y ≠ x) : get e (set d m x v) y = get e m y := by
  unfold get set
  split
  · rw [find_drop_other m x y h]
  · rw [find_put_other m x y v h]

theorem rising_set (d : α) {m : Sparse α} (h : rising m = true) (x : Nat) (v : α) : rising (set d m x v) = true := by
  unfold set
  split
  · exact rising_drop h x
  · exact rising_put h x v

/-- A write keeps the canonical form. -/
theorem wf_set (d : α) {m : Sparse α} (h : wf d m = true) (x : Nat) (v : α) : wf d (set d m x v) = true := by
  unfold wf at h ⊢
  rw [Bool.and_eq_true, List.all_eq_true] at h ⊢
  refine ⟨rising_set d h.1 x v, fun e he => ?_⟩
  unfold set at he
  split at he
  · exact h.2 e (mem_drop he)
  · next hv =>
    rcases mem_put he with rfl | he
    · simpa using hv
    · exact h.2 e he

end Sys2Proof.Sparse
end

