-- ==== Sys2Proof/Laws/State.lean ====
section
/-! SUPPORT. Each field of the state under each update: true by rfl, so that no later proof unfolds a record update. -/

namespace Sys2Proof.Machine

/-! modCore -/

@[simp] theorem State.modCore_regs (s : State) (c : Nat) (f : Core → Core) : (s.modCore c f).regs = s.regs := rfl
@[simp] theorem State.modCore_fuses (s : State) (c : Nat) (f : Core → Core) : (s.modCore c f).fuses = s.fuses := rfl
@[simp] theorem State.modCore_pwr (s : State) (c : Nat) (f : Core → Core) : (s.modCore c f).pwr = s.pwr := rfl
@[simp] theorem State.modCore_tap (s : State) (c : Nat) (f : Core → Core) : (s.modCore c f).tap = s.tap := rfl
@[simp] theorem State.modCore_hbm (s : State) (c : Nat) (f : Core → Core) : (s.modCore c f).hbm = s.hbm := rfl
@[simp] theorem State.modCore_lmem (s : State) (c : Nat) (f : Core → Core) : (s.modCore c f).lmem = s.lmem := rfl
@[simp] theorem State.modCore_host (s : State) (c : Nat) (f : Core → Core) : (s.modCore c f).host = s.host := rfl
@[simp] theorem State.modCore_blot (s : State) (c : Nat) (f : Core → Core) : (s.modCore c f).blot = s.blot := rfl
@[simp] theorem State.modCore_mses (s : State) (c : Nat) (f : Core → Core) : (s.modCore c f).mses = s.mses := rfl
@[simp] theorem State.modCore_dmas (s : State) (c : Nat) (f : Core → Core) : (s.modCore c f).dmas = s.dmas := rfl
@[simp] theorem State.modCore_net (s : State) (c : Nat) (f : Core → Core) : (s.modCore c f).net = s.net := rfl
@[simp] theorem State.modCore_seq (s : State) (c : Nat) (f : Core → Core) : (s.modCore c f).seq = s.seq := rfl
@[simp] theorem State.modCore_saf (s : State) (c : Nat) (f : Core → Core) : (s.modCore c f).saf = s.saf := rfl
@[simp] theorem State.modCore_ports (s : State) (c : Nat) (f : Core → Core) : (s.modCore c f).ports = s.ports := rfl
@[simp] theorem State.modCore_nd (s : State) (c : Nat) (f : Core → Core) : (s.modCore c f).nd = s.nd := rfl
@[simp] theorem State.modCore_out (s : State) (c : Nat) (f : Core → Core) : (s.modCore c f).out = s.out := rfl
@[simp] theorem State.modCore_free (s : State) (c : Nat) (f : Core → Core) : (s.modCore c f).free = s.free := rfl
@[simp] theorem State.modCore_pending (s : State) (c : Nat) (f : Core → Core) : (s.modCore c f).pending = s.pending := rfl

/-! modMse -/

@[simp] theorem State.modMse_regs (s : State) (k : Nat) (f : Mse → Mse) : (s.modMse k f).regs = s.regs := rfl
@[simp] theorem State.modMse_fuses (s : State) (k : Nat) (f : Mse → Mse) : (s.modMse k f).fuses = s.fuses := rfl
@[simp] theorem State.modMse_pwr (s : State) (k : Nat) (f : Mse → Mse) : (s.modMse k f).pwr = s.pwr := rfl
@[simp] theorem State.modMse_tap (s : State) (k : Nat) (f : Mse → Mse) : (s.modMse k f).tap = s.tap := rfl
@[simp] theorem State.modMse_hbm (s : State) (k : Nat) (f : Mse → Mse) : (s.modMse k f).hbm = s.hbm := rfl
@[simp] theorem State.modMse_lmem (s : State) (k : Nat) (f : Mse → Mse) : (s.modMse k f).lmem = s.lmem := rfl
@[simp] theorem State.modMse_host (s : State) (k : Nat) (f : Mse → Mse) : (s.modMse k f).host = s.host := rfl
@[simp] theorem State.modMse_cores (s : State) (k : Nat) (f : Mse → Mse) : (s.modMse k f).cores = s.cores := rfl
@[simp] theorem State.modMse_blot (s : State) (k : Nat) (f : Mse → Mse) : (s.modMse k f).blot = s.blot := rfl
@[simp] theorem State.modMse_dmas (s : State) (k : Nat) (f : Mse → Mse) : (s.modMse k f).dmas = s.dmas := rfl
@[simp] theorem State.modMse_net (s : State) (k : Nat) (f : Mse → Mse) : (s.modMse k f).net = s.net := rfl
@[simp] theorem State.modMse_seq (s : State) (k : Nat) (f : Mse → Mse) : (s.modMse k f).seq = s.seq := rfl
@[simp] theorem State.modMse_saf (s : State) (k : Nat) (f : Mse → Mse) : (s.modMse k f).saf = s.saf := rfl
@[simp] theorem State.modMse_ports (s : State) (k : Nat) (f : Mse → Mse) : (s.modMse k f).ports = s.ports := rfl
@[simp] theorem State.modMse_nd (s : State) (k : Nat) (f : Mse → Mse) : (s.modMse k f).nd = s.nd := rfl
@[simp] theorem State.modMse_out (s : State) (k : Nat) (f : Mse → Mse) : (s.modMse k f).out = s.out := rfl
@[simp] theorem State.modMse_free (s : State) (k : Nat) (f : Mse → Mse) : (s.modMse k f).free = s.free := rfl
@[simp] theorem State.modMse_pending (s : State) (k : Nat) (f : Mse → Mse) : (s.modMse k f).pending = s.pending := rfl

/-! modDma -/

@[simp] theorem State.modDma_regs (s : State) (n : Nat) (f : Dma → Dma) : (s.modDma n f).regs = s.regs := rfl
@[simp] theorem State.modDma_fuses (s : State) (n : Nat) (f : Dma → Dma) : (s.modDma n f).fuses = s.fuses := rfl
@[simp] theorem State.modDma_pwr (s : State) (n : Nat) (f : Dma → Dma) : (s.modDma n f).pwr = s.pwr := rfl
@[simp] theorem State.modDma_tap (s : State) (n : Nat) (f : Dma → Dma) : (s.modDma n f).tap = s.tap := rfl
@[simp] theorem State.modDma_hbm (s : State) (n : Nat) (f : Dma → Dma) : (s.modDma n f).hbm = s.hbm := rfl
@[simp] theorem State.modDma_lmem (s : State) (n : Nat) (f : Dma → Dma) : (s.modDma n f).lmem = s.lmem := rfl
@[simp] theorem State.modDma_host (s : State) (n : Nat) (f : Dma → Dma) : (s.modDma n f).host = s.host := rfl
@[simp] theorem State.modDma_cores (s : State) (n : Nat) (f : Dma → Dma) : (s.modDma n f).cores = s.cores := rfl
@[simp] theorem State.modDma_blot (s : State) (n : Nat) (f : Dma → Dma) : (s.modDma n f).blot = s.blot := rfl
@[simp] theorem State.modDma_mses (s : State) (n : Nat) (f : Dma → Dma) : (s.modDma n f).mses = s.mses := rfl
@[simp] theorem State.modDma_net (s : State) (n : Nat) (f : Dma → Dma) : (s.modDma n f).net = s.net := rfl
@[simp] theorem State.modDma_seq (s : State) (n : Nat) (f : Dma → Dma) : (s.modDma n f).seq = s.seq := rfl
@[simp] theorem State.modDma_saf (s : State) (n : Nat) (f : Dma → Dma) : (s.modDma n f).saf = s.saf := rfl
@[simp] theorem State.modDma_ports (s : State) (n : Nat) (f : Dma → Dma) : (s.modDma n f).ports = s.ports := rfl
@[simp] theorem State.modDma_nd (s : State) (n : Nat) (f : Dma → Dma) : (s.modDma n f).nd = s.nd := rfl
@[simp] theorem State.modDma_out (s : State) (n : Nat) (f : Dma → Dma) : (s.modDma n f).out = s.out := rfl
@[simp] theorem State.modDma_free (s : State) (n : Nat) (f : Dma → Dma) : (s.modDma n f).free = s.free := rfl
@[simp] theorem State.modDma_pending (s : State) (n : Nat) (f : Dma → Dma) : (s.modDma n f).pending = s.pending := rfl

/-! modNet -/

@[simp] theorem State.modNet_regs (s : State) (f : LinkNet → LinkNet) : (s.modNet f).regs = s.regs := rfl
@[simp] theorem State.modNet_fuses (s : State) (f : LinkNet → LinkNet) : (s.modNet f).fuses = s.fuses := rfl
@[simp] theorem State.modNet_pwr (s : State) (f : LinkNet → LinkNet) : (s.modNet f).pwr = s.pwr := rfl
@[simp] theorem State.modNet_tap (s : State) (f : LinkNet → LinkNet) : (s.modNet f).tap = s.tap := rfl
@[simp] theorem State.modNet_hbm (s : State) (f : LinkNet → LinkNet) : (s.modNet f).hbm = s.hbm := rfl
@[simp] theorem State.modNet_lmem (s : State) (f : LinkNet → LinkNet) : (s.modNet f).lmem = s.lmem := rfl
@[simp] theorem State.modNet_host (s : State) (f : LinkNet → LinkNet) : (s.modNet f).host = s.host := rfl
@[simp] theorem State.modNet_cores (s : State) (f : LinkNet → LinkNet) : (s.modNet f).cores = s.cores := rfl
@[simp] theorem State.modNet_blot (s : State) (f : LinkNet → LinkNet) : (s.modNet f).blot = s.blot := rfl
@[simp] theorem State.modNet_mses (s : State) (f : LinkNet → LinkNet) : (s.modNet f).mses = s.mses := rfl
@[simp] theorem State.modNet_dmas (s : State) (f : LinkNet → LinkNet) : (s.modNet f).dmas = s.dmas := rfl
@[simp] theorem State.modNet_seq (s : State) (f : LinkNet → LinkNet) : (s.modNet f).seq = s.seq := rfl
@[simp] theorem State.modNet_saf (s : State) (f : LinkNet → LinkNet) : (s.modNet f).saf = s.saf := rfl
@[simp] theorem State.modNet_ports (s : State) (f : LinkNet → LinkNet) : (s.modNet f).ports = s.ports := rfl
@[simp] theorem State.modNet_nd (s : State) (f : LinkNet → LinkNet) : (s.modNet f).nd = s.nd := rfl
@[simp] theorem State.modNet_out (s : State) (f : LinkNet → LinkNet) : (s.modNet f).out = s.out := rfl
@[simp] theorem State.modNet_free (s : State) (f : LinkNet → LinkNet) : (s.modNet f).free = s.free := rfl
@[simp] theorem State.modNet_pending (s : State) (f : LinkNet → LinkNet) : (s.modNet f).pending = s.pending := rfl

/-! modLink -/

@[simp] theorem State.modLink_regs (s : State) (l : Nat) (f : Link → Link) : (s.modLink l f).regs = s.regs := rfl
@[simp] theorem State.modLink_fuses (s : State) (l : Nat) (f : Link → Link) : (s.modLink l f).fuses = s.fuses := rfl
@[simp] theorem State.modLink_pwr (s : State) (l : Nat) (f : Link → Link) : (s.modLink l f).pwr = s.pwr := rfl
@[simp] theorem State.modLink_tap (s : State) (l : Nat) (f : Link → Link) : (s.modLink l f).tap = s.tap := rfl
@[simp] theorem State.modLink_hbm (s : State) (l : Nat) (f : Link → Link) : (s.modLink l f).hbm = s.hbm := rfl
@[simp] theorem State.modLink_lmem (s : State) (l : Nat) (f : Link → Link) : (s.modLink l f).lmem = s.lmem := rfl
@[simp] theorem State.modLink_host (s : State) (l : Nat) (f : Link → Link) : (s.modLink l f).host = s.host := rfl
@[simp] theorem State.modLink_cores (s : State) (l : Nat) (f : Link → Link) : (s.modLink l f).cores = s.cores := rfl
@[simp] theorem State.modLink_blot (s : State) (l : Nat) (f : Link → Link) : (s.modLink l f).blot = s.blot := rfl
@[simp] theorem State.modLink_mses (s : State) (l : Nat) (f : Link → Link) : (s.modLink l f).mses = s.mses := rfl
@[simp] theorem State.modLink_dmas (s : State) (l : Nat) (f : Link → Link) : (s.modLink l f).dmas = s.dmas := rfl
@[simp] theorem State.modLink_seq (s : State) (l : Nat) (f : Link → Link) : (s.modLink l f).seq = s.seq := rfl
@[simp] theorem State.modLink_saf (s : State) (l : Nat) (f : Link → Link) : (s.modLink l f).saf = s.saf := rfl
@[simp] theorem State.modLink_ports (s : State) (l : Nat) (f : Link → Link) : (s.modLink l f).ports = s.ports := rfl
@[simp] theorem State.modLink_nd (s : State) (l : Nat) (f : Link → Link) : (s.modLink l f).nd = s.nd := rfl
@[simp] theorem State.modLink_out (s : State) (l : Nat) (f : Link → Link) : (s.modLink l f).out = s.out := rfl
@[simp] theorem State.modLink_free (s : State) (l : Nat) (f : Link → Link) : (s.modLink l f).free = s.free := rfl
@[simp] theorem State.modLink_pending (s : State) (l : Nat) (f : Link → Link) : (s.modLink l f).pending = s.pending := rfl

/-! modPort -/

@[simp] theorem State.modPort_regs (s : State) (p : Nat) (f : Port → Port) : (s.modPort p f).regs = s.regs := rfl
@[simp] theorem State.modPort_fuses (s : State) (p : Nat) (f : Port → Port) : (s.modPort p f).fuses = s.fuses := rfl
@[simp] theorem State.modPort_pwr (s : State) (p : Nat) (f : Port → Port) : (s.modPort p f).pwr = s.pwr := rfl
@[simp] theorem State.modPort_tap (s : State) (p : Nat) (f : Port → Port) : (s.modPort p f).tap = s.tap := rfl
@[simp] theorem State.modPort_hbm (s : State) (p : Nat) (f : Port → Port) : (s.modPort p f).hbm = s.hbm := rfl
@[simp] theorem State.modPort_lmem (s : State) (p : Nat) (f : Port → Port) : (s.modPort p f).lmem = s.lmem := rfl
@[simp] theorem State.modPort_host (s : State) (p : Nat) (f : Port → Port) : (s.modPort p f).host = s.host := rfl
@[simp] theorem State.modPort_cores (s : State) (p : Nat) (f : Port → Port) : (s.modPort p f).cores = s.cores := rfl
@[simp] theorem State.modPort_blot (s : State) (p : Nat) (f : Port → Port) : (s.modPort p f).blot = s.blot := rfl
@[simp] theorem State.modPort_mses (s : State) (p : Nat) (f : Port → Port) : (s.modPort p f).mses = s.mses := rfl
@[simp] theorem State.modPort_dmas (s : State) (p : Nat) (f : Port → Port) : (s.modPort p f).dmas = s.dmas := rfl
@[simp] theorem State.modPort_net (s : State) (p : Nat) (f : Port → Port) : (s.modPort p f).net = s.net := rfl
@[simp] theorem State.modPort_seq (s : State) (p : Nat) (f : Port → Port) : (s.modPort p f).seq = s.seq := rfl
@[simp] theorem State.modPort_saf (s : State) (p : Nat) (f : Port → Port) : (s.modPort p f).saf = s.saf := rfl
@[simp] theorem State.modPort_nd (s : State) (p : Nat) (f : Port → Port) : (s.modPort p f).nd = s.nd := rfl
@[simp] theorem State.modPort_out (s : State) (p : Nat) (f : Port → Port) : (s.modPort p f).out = s.out := rfl
@[simp] theorem State.modPort_free (s : State) (p : Nat) (f : Port → Port) : (s.modPort p f).free = s.free := rfl
@[simp] theorem State.modPort_pending (s : State) (p : Nat) (f : Port → Port) : (s.modPort p f).pending = s.pending := rfl

/-! modPair -/

@[simp] theorem State.modPair_regs (s : State) (p q : Nat) (f : Pair → Pair) : (s.modPair p q f).regs = s.regs := rfl
@[simp] theorem State.modPair_fuses (s : State) (p q : Nat) (f : Pair → Pair) : (s.modPair p q f).fuses = s.fuses := rfl
@[simp] theorem State.modPair_pwr (s : State) (p q : Nat) (f : Pair → Pair) : (s.modPair p q f).pwr = s.pwr := rfl
@[simp] theorem State.modPair_tap (s : State) (p q : Nat) (f : Pair → Pair) : (s.modPair p q f).tap = s.tap := rfl
@[simp] theorem State.modPair_hbm (s : State) (p q : Nat) (f : Pair → Pair) : (s.modPair p q f).hbm = s.hbm := rfl
@[simp] theorem State.modPair_lmem (s : State) (p q : Nat) (f : Pair → Pair) : (s.modPair p q f).lmem = s.lmem := rfl
@[simp] theorem State.modPair_host (s : State) (p q : Nat) (f : Pair → Pair) : (s.modPair p q f).host = s.host := rfl
@[simp] theorem State.modPair_cores (s : State) (p q : Nat) (f : Pair → Pair) : (s.modPair p q f).cores = s.cores := rfl
@[simp] theorem State.modPair_blot (s : State) (p q : Nat) (f : Pair → Pair) : (s.modPair p q f).blot = s.blot := rfl
@[simp] theorem State.modPair_mses (s : State) (p q : Nat) (f : Pair → Pair) : (s.modPair p q f).mses = s.mses := rfl
@[simp] theorem State.modPair_dmas (s : State) (p q : Nat) (f : Pair → Pair) : (s.modPair p q f).dmas = s.dmas := rfl
@[simp] theorem State.modPair_net (s : State) (p q : Nat) (f : Pair → Pair) : (s.modPair p q f).net = s.net := rfl
@[simp] theorem State.modPair_seq (s : State) (p q : Nat) (f : Pair → Pair) : (s.modPair p q f).seq = s.seq := rfl
@[simp] theorem State.modPair_saf (s : State) (p q : Nat) (f : Pair → Pair) : (s.modPair p q f).saf = s.saf := rfl
@[simp] theorem State.modPair_nd (s : State) (p q : Nat) (f : Pair → Pair) : (s.modPair p q f).nd = s.nd := rfl
@[simp] theorem State.modPair_out (s : State) (p q : Nat) (f : Pair → Pair) : (s.modPair p q f).out = s.out := rfl
@[simp] theorem State.modPair_free (s : State) (p q : Nat) (f : Pair → Pair) : (s.modPair p q f).free = s.free := rfl
@[simp] theorem State.modPair_pending (s : State) (p q : Nat) (f : Pair → Pair) : (s.modPair p q f).pending = s.pending := rfl

/-! modSeq -/

@[simp] theorem State.modSeq_regs (s : State) (f : Seq → Seq) : (s.modSeq f).regs = s.regs := rfl
@[simp] theorem State.modSeq_fuses (s : State) (f : Seq → Seq) : (s.modSeq f).fuses = s.fuses := rfl
@[simp] theorem State.modSeq_pwr (s : State) (f : Seq → Seq) : (s.modSeq f).pwr = s.pwr := rfl
@[simp] theorem State.modSeq_tap (s : State) (f : Seq → Seq) : (s.modSeq f).tap = s.tap := rfl
@[simp] theorem State.modSeq_hbm (s : State) (f : Seq → Seq) : (s.modSeq f).hbm = s.hbm := rfl
@[simp] theorem State.modSeq_lmem (s : State) (f : Seq → Seq) : (s.modSeq f).lmem = s.lmem := rfl
@[simp] theorem State.modSeq_host (s : State) (f : Seq → Seq) : (s.modSeq f).host = s.host := rfl
@[simp] theorem State.modSeq_cores (s : State) (f : Seq → Seq) : (s.modSeq f).cores = s.cores := rfl
@[simp] theorem State.modSeq_blot (s : State) (f : Seq → Seq) : (s.modSeq f).blot = s.blot := rfl
@[simp] theorem State.modSeq_mses (s : State) (f : Seq → Seq) : (s.modSeq f).mses = s.mses := rfl
@[simp] theorem State.modSeq_dmas (s : State) (f : Seq → Seq) : (s.modSeq f).dmas = s.dmas := rfl
@[simp] theorem State.modSeq_net (s : State) (f : Seq → Seq) : (s.modSeq f).net = s.net := rfl
@[simp] theorem State.modSeq_saf (s : State) (f : Seq → Seq) : (s.modSeq f).saf = s.saf := rfl
@[simp] theorem State.modSeq_ports (s : State) (f : Seq → Seq) : (s.modSeq f).ports = s.ports := rfl
@[simp] theorem State.modSeq_nd (s : State) (f : Seq → Seq) : (s.modSeq f).nd = s.nd := rfl
@[simp] theorem State.modSeq_out (s : State) (f : Seq → Seq) : (s.modSeq f).out = s.out := rfl
@[simp] theorem State.modSeq_free (s : State) (f : Seq → Seq) : (s.modSeq f).free = s.free := rfl
@[simp] theorem State.modSeq_pending (s : State) (f : Seq → Seq) : (s.modSeq f).pending = s.pending := rfl

/-! modSaf -/

@[simp] theorem State.modSaf_regs (s : State) (f : Saf → Saf) : (s.modSaf f).regs = s.regs := rfl
@[simp] theorem State.modSaf_fuses (s : State) (f : Saf → Saf) : (s.modSaf f).fuses = s.fuses := rfl
@[simp] theorem State.modSaf_pwr (s : State) (f : Saf → Saf) : (s.modSaf f).pwr = s.pwr := rfl
@[simp] theorem State.modSaf_tap (s : State) (f : Saf → Saf) : (s.modSaf f).tap = s.tap := rfl
@[simp] theorem State.modSaf_hbm (s : State) (f : Saf → Saf) : (s.modSaf f).hbm = s.hbm := rfl
@[simp] theorem State.modSaf_lmem (s : State) (f : Saf → Saf) : (s.modSaf f).lmem = s.lmem := rfl
@[simp] theorem State.modSaf_host (s : State) (f : Saf → Saf) : (s.modSaf f).host = s.host := rfl
@[simp] theorem State.modSaf_cores (s : State) (f : Saf → Saf) : (s.modSaf f).cores = s.cores := rfl
@[simp] theorem State.modSaf_blot (s : State) (f : Saf → Saf) : (s.modSaf f).blot = s.blot := rfl
@[simp] theorem State.modSaf_mses (s : State) (f : Saf → Saf) : (s.modSaf f).mses = s.mses := rfl
@[simp] theorem State.modSaf_dmas (s : State) (f : Saf → Saf) : (s.modSaf f).dmas = s.dmas := rfl
@[simp] theorem State.modSaf_net (s : State) (f : Saf → Saf) : (s.modSaf f).net = s.net := rfl
@[simp] theorem State.modSaf_seq (s : State) (f : Saf → Saf) : (s.modSaf f).seq = s.seq := rfl
@[simp] theorem State.modSaf_ports (s : State) (f : Saf → Saf) : (s.modSaf f).ports = s.ports := rfl
@[simp] theorem State.modSaf_nd (s : State) (f : Saf → Saf) : (s.modSaf f).nd = s.nd := rfl
@[simp] theorem State.modSaf_out (s : State) (f : Saf → Saf) : (s.modSaf f).out = s.out := rfl
@[simp] theorem State.modSaf_free (s : State) (f : Saf → Saf) : (s.modSaf f).free = s.free := rfl
@[simp] theorem State.modSaf_pending (s : State) (f : Saf → Saf) : (s.modSaf f).pending = s.pending := rfl

/-! modSlot -/

@[simp] theorem State.modSlot_regs (s : State) (p : Nat) (f : Slot → Slot) : (s.modSlot p f).regs = s.regs := rfl
@[simp] theorem State.modSlot_fuses (s : State) (p : Nat) (f : Slot → Slot) : (s.modSlot p f).fuses = s.fuses := rfl
@[simp] theorem State.modSlot_pwr (s : State) (p : Nat) (f : Slot → Slot) : (s.modSlot p f).pwr = s.pwr := rfl
@[simp] theorem State.modSlot_tap (s : State) (p : Nat) (f : Slot → Slot) : (s.modSlot p f).tap = s.tap := rfl
@[simp] theorem State.modSlot_hbm (s : State) (p : Nat) (f : Slot → Slot) : (s.modSlot p f).hbm = s.hbm := rfl
@[simp] theorem State.modSlot_lmem (s : State) (p : Nat) (f : Slot → Slot) : (s.modSlot p f).lmem = s.lmem := rfl
@[simp] theorem State.modSlot_host (s : State) (p : Nat) (f : Slot → Slot) : (s.modSlot p f).host = s.host := rfl
@[simp] theorem State.modSlot_cores (s : State) (p : Nat) (f : Slot → Slot) : (s.modSlot p f).cores = s.cores := rfl
@[simp] theorem State.modSlot_blot (s : State) (p : Nat) (f : Slot → Slot) : (s.modSlot p f).blot = s.blot := rfl
@[simp] theorem State.modSlot_mses (s : State) (p : Nat) (f : Slot → Slot) : (s.modSlot p f).mses = s.mses := rfl
@[simp] theorem State.modSlot_dmas (s : State) (p : Nat) (f : Slot → Slot) : (s.modSlot p f).dmas = s.dmas := rfl
@[simp] theorem State.modSlot_net (s : State) (p : Nat) (f : Slot → Slot) : (s.modSlot p f).net = s.net := rfl
@[simp] theorem State.modSlot_seq (s : State) (p : Nat) (f : Slot → Slot) : (s.modSlot p f).seq = s.seq := rfl
@[simp] theorem State.modSlot_ports (s : State) (p : Nat) (f : Slot → Slot) : (s.modSlot p f).ports = s.ports := rfl
@[simp] theorem State.modSlot_nd (s : State) (p : Nat) (f : Slot → Slot) : (s.modSlot p f).nd = s.nd := rfl
@[simp] theorem State.modSlot_out (s : State) (p : Nat) (f : Slot → Slot) : (s.modSlot p f).out = s.out := rfl
@[simp] theorem State.modSlot_free (s : State) (p : Nat) (f : Slot → Slot) : (s.modSlot p f).free = s.free := rfl
@[simp] theorem State.modSlot_pending (s : State) (p : Nat) (f : Slot → Slot) : (s.modSlot p f).pending = s.pending := rfl

/-! modPwr -/

@[simp] theorem State.modPwr_regs (s : State) (f : Pwr → Pwr) : (s.modPwr f).regs = s.regs := rfl
@[simp] theorem State.modPwr_fuses (s : State) (f : Pwr → Pwr) : (s.modPwr f).fuses = s.fuses := rfl
@[simp] theorem State.modPwr_tap (s : State) (f : Pwr → Pwr) : (s.modPwr f).tap = s.tap := rfl
@[simp] theorem State.modPwr_hbm (s : State) (f : Pwr → Pwr) : (s.modPwr f).hbm = s.hbm := rfl
@[simp] theorem State.modPwr_lmem (s : State) (f : Pwr → Pwr) : (s.modPwr f).lmem = s.lmem := rfl
@[simp] theorem State.modPwr_host (s : State) (f : Pwr → Pwr) : (s.modPwr f).host = s.host := rfl
@[simp] theorem State.modPwr_cores (s : State) (f : Pwr → Pwr) : (s.modPwr f).cores = s.cores := rfl
@[simp] theorem State.modPwr_blot (s : State) (f : Pwr → Pwr) : (s.modPwr f).blot = s.blot := rfl
@[simp] theorem State.modPwr_mses (s : State) (f : Pwr → Pwr) : (s.modPwr f).mses = s.mses := rfl
@[simp] theorem State.modPwr_dmas (s : State) (f : Pwr → Pwr) : (s.modPwr f).dmas = s.dmas := rfl
@[simp] theorem State.modPwr_net (s : State) (f : Pwr → Pwr) : (s.modPwr f).net = s.net := rfl
@[simp] theorem State.modPwr_seq (s : State) (f : Pwr → Pwr) : (s.modPwr f).seq = s.seq := rfl
@[simp] theorem State.modPwr_saf (s : State) (f : Pwr → Pwr) : (s.modPwr f).saf = s.saf := rfl
@[simp] theorem State.modPwr_ports (s : State) (f : Pwr → Pwr) : (s.modPwr f).ports = s.ports := rfl
@[simp] theorem State.modPwr_nd (s : State) (f : Pwr → Pwr) : (s.modPwr f).nd = s.nd := rfl
@[simp] theorem State.modPwr_out (s : State) (f : Pwr → Pwr) : (s.modPwr f).out = s.out := rfl
@[simp] theorem State.modPwr_free (s : State) (f : Pwr → Pwr) : (s.modPwr f).free = s.free := rfl
@[simp] theorem State.modPwr_pending (s : State) (f : Pwr → Pwr) : (s.modPwr f).pending = s.pending := rfl

/-! modNd -/

@[simp] theorem State.modNd_regs (s : State) (f : Ndomir → Ndomir) : (s.modNd f).regs = s.regs := rfl
@[simp] theorem State.modNd_fuses (s : State) (f : Ndomir → Ndomir) : (s.modNd f).fuses = s.fuses := rfl
@[simp] theorem State.modNd_pwr (s : State) (f : Ndomir → Ndomir) : (s.modNd f).pwr = s.pwr := rfl
@[simp] theorem State.modNd_tap (s : State) (f : Ndomir → Ndomir) : (s.modNd f).tap = s.tap := rfl
@[simp] theorem State.modNd_hbm (s : State) (f : Ndomir → Ndomir) : (s.modNd f).hbm = s.hbm := rfl
@[simp] theorem State.modNd_lmem (s : State) (f : Ndomir → Ndomir) : (s.modNd f).lmem = s.lmem := rfl
@[simp] theorem State.modNd_host (s : State) (f : Ndomir → Ndomir) : (s.modNd f).host = s.host := rfl
@[simp] theorem State.modNd_cores (s : State) (f : Ndomir → Ndomir) : (s.modNd f).cores = s.cores := rfl
@[simp] theorem State.modNd_blot (s : State) (f : Ndomir → Ndomir) : (s.modNd f).blot = s.blot := rfl
@[simp] theorem State.modNd_mses (s : State) (f : Ndomir → Ndomir) : (s.modNd f).mses = s.mses := rfl
@[simp] theorem State.modNd_dmas (s : State) (f : Ndomir → Ndomir) : (s.modNd f).dmas = s.dmas := rfl
@[simp] theorem State.modNd_net (s : State) (f : Ndomir → Ndomir) : (s.modNd f).net = s.net := rfl
@[simp] theorem State.modNd_seq (s : State) (f : Ndomir → Ndomir) : (s.modNd f).seq = s.seq := rfl
@[simp] theorem State.modNd_saf (s : State) (f : Ndomir → Ndomir) : (s.modNd f).saf = s.saf := rfl
@[simp] theorem State.modNd_ports (s : State) (f : Ndomir → Ndomir) : (s.modNd f).ports = s.ports := rfl
@[simp] theorem State.modNd_out (s : State) (f : Ndomir → Ndomir) : (s.modNd f).out = s.out := rfl
@[simp] theorem State.modNd_free (s : State) (f : Ndomir → Ndomir) : (s.modNd f).free = s.free := rfl
@[simp] theorem State.modNd_pending (s : State) (f : Ndomir → Ndomir) : (s.modNd f).pending = s.pending := rfl

/-! modHbm -/

@[simp] theorem State.modHbm_regs (s : State) (f : Hbm → Hbm) : (s.modHbm f).regs = s.regs := rfl
@[simp] theorem State.modHbm_fuses (s : State) (f : Hbm → Hbm) : (s.modHbm f).fuses = s.fuses := rfl
@[simp] theorem State.modHbm_pwr (s : State) (f : Hbm → Hbm) : (s.modHbm f).pwr = s.pwr := rfl
@[simp] theorem State.modHbm_tap (s : State) (f : Hbm → Hbm) : (s.modHbm f).tap = s.tap := rfl
@[simp] theorem State.modHbm_lmem (s : State) (f : Hbm → Hbm) : (s.modHbm f).lmem = s.lmem := rfl
@[simp] theorem State.modHbm_host (s : State) (f : Hbm → Hbm) : (s.modHbm f).host = s.host := rfl
@[simp] theorem State.modHbm_cores (s : State) (f : Hbm → Hbm) : (s.modHbm f).cores = s.cores := rfl
@[simp] theorem State.modHbm_blot (s : State) (f : Hbm → Hbm) : (s.modHbm f).blot = s.blot := rfl
@[simp] theorem State.modHbm_mses (s : State) (f : Hbm → Hbm) : (s.modHbm f).mses = s.mses := rfl
@[simp] theorem State.modHbm_dmas (s : State) (f : Hbm → Hbm) : (s.modHbm f).dmas = s.dmas := rfl
@[simp] theorem State.modHbm_net (s : State) (f : Hbm → Hbm) : (s.modHbm f).net = s.net := rfl
@[simp] theorem State.modHbm_seq (s : State) (f : Hbm → Hbm) : (s.modHbm f).seq = s.seq := rfl
@[simp] theorem State.modHbm_saf (s : State) (f : Hbm → Hbm) : (s.modHbm f).saf = s.saf := rfl
@[simp] theorem State.modHbm_ports (s : State) (f : Hbm → Hbm) : (s.modHbm f).ports = s.ports := rfl
@[simp] theorem State.modHbm_nd (s : State) (f : Hbm → Hbm) : (s.modHbm f).nd = s.nd := rfl
@[simp] theorem State.modHbm_out (s : State) (f : Hbm → Hbm) : (s.modHbm f).out = s.out := rfl
@[simp] theorem State.modHbm_free (s : State) (f : Hbm → Hbm) : (s.modHbm f).free = s.free := rfl
@[simp] theorem State.modHbm_pending (s : State) (f : Hbm → Hbm) : (s.modHbm f).pending = s.pending := rfl

/-! setGroup -/

@[simp] theorem State.setGroup_regs (s : State) (c g : Nat) (x : Group) : (s.setGroup c g x).regs = s.regs := rfl
@[simp] theorem State.setGroup_fuses (s : State) (c g : Nat) (x : Group) : (s.setGroup c g x).fuses = s.fuses := rfl
@[simp] theorem State.setGroup_pwr (s : State) (c g : Nat) (x : Group) : (s.setGroup c g x).pwr = s.pwr := rfl
@[simp] theorem State.setGroup_tap (s : State) (c g : Nat) (x : Group) : (s.setGroup c g x).tap = s.tap := rfl
@[simp] theorem State.setGroup_hbm (s : State) (c g : Nat) (x : Group) : (s.setGroup c g x).hbm = s.hbm := rfl
@[simp] theorem State.setGroup_lmem (s : State) (c g : Nat) (x : Group) : (s.setGroup c g x).lmem = s.lmem := rfl
@[simp] theorem State.setGroup_host (s : State) (c g : Nat) (x : Group) : (s.setGroup c g x).host = s.host := rfl
@[simp] theorem State.setGroup_blot (s : State) (c g : Nat) (x : Group) : (s.setGroup c g x).blot = s.blot := rfl
@[simp] theorem State.setGroup_mses (s : State) (c g : Nat) (x : Group) : (s.setGroup c g x).mses = s.mses := rfl
@[simp] theorem State.setGroup_dmas (s : State) (c g : Nat) (x : Group) : (s.setGroup c g x).dmas = s.dmas := rfl
@[simp] theorem State.setGroup_net (s : State) (c g : Nat) (x : Group) : (s.setGroup c g x).net = s.net := rfl
@[simp] theorem State.setGroup_seq (s : State) (c g : Nat) (x : Group) : (s.setGroup c g x).seq = s.seq := rfl
@[simp] theorem State.setGroup_saf (s : State) (c g : Nat) (x : Group) : (s.setGroup c g x).saf = s.saf := rfl
@[simp] theorem State.setGroup_ports (s : State) (c g : Nat) (x : Group) : (s.setGroup c g x).ports = s.ports := rfl
@[simp] theorem State.setGroup_nd (s : State) (c g : Nat) (x : Group) : (s.setGroup c g x).nd = s.nd := rfl
@[simp] theorem State.setGroup_out (s : State) (c g : Nat) (x : Group) : (s.setGroup c g x).out = s.out := rfl
@[simp] theorem State.setGroup_free (s : State) (c g : Nat) (x : Group) : (s.setGroup c g x).free = s.free := rfl
@[simp] theorem State.setGroup_pending (s : State) (c g : Nat) (x : Group) : (s.setGroup c g x).pending = s.pending := rfl

/-! setReg -/

@[simp] theorem State.setReg_fuses (s : State) (r : Reg) (i j : Nat) (v : Word) : (s.setReg r i j v).fuses = s.fuses := rfl
@[simp] theorem State.setReg_pwr (s : State) (r : Reg) (i j : Nat) (v : Word) : (s.setReg r i j v).pwr = s.pwr := rfl
@[simp] theorem State.setReg_tap (s : State) (r : Reg) (i j : Nat) (v : Word) : (s.setReg r i j v).tap = s.tap := rfl
@[simp] theorem State.setReg_hbm (s : State) (r : Reg) (i j : Nat) (v : Word) : (s.setReg r i j v).hbm = s.hbm := rfl
@[simp] theorem State.setReg_lmem (s : State) (r : Reg) (i j : Nat) (v : Word) : (s.setReg r i j v).lmem = s.lmem := rfl
@[simp] theorem State.setReg_host (s : State) (r : Reg) (i j : Nat) (v : Word) : (s.setReg r i j v).host = s.host := rfl
@[simp] theorem State.setReg_cores (s : State) (r : Reg) (i j : Nat) (v : Word) : (s.setReg r i j v).cores = s.cores := rfl
@[simp] theorem State.setReg_blot (s : State) (r : Reg) (i j : Nat) (v : Word) : (s.setReg r i j v).blot = s.blot := rfl
@[simp] theorem State.setReg_mses (s : State) (r : Reg) (i j : Nat) (v : Word) : (s.setReg r i j v).mses = s.mses := rfl
@[simp] theorem State.setReg_dmas (s : State) (r : Reg) (i j : Nat) (v : Word) : (s.setReg r i j v).dmas = s.dmas := rfl
@[simp] theorem State.setReg_net (s : State) (r : Reg) (i j : Nat) (v : Word) : (s.setReg r i j v).net = s.net := rfl
@[simp] theorem State.setReg_seq (s : State) (r : Reg) (i j : Nat) (v : Word) : (s.setReg r i j v).seq = s.seq := rfl
@[simp] theorem State.setReg_saf (s : State) (r : Reg) (i j : Nat) (v : Word) : (s.setReg r i j v).saf = s.saf := rfl
@[simp] theorem State.setReg_ports (s : State) (r : Reg) (i j : Nat) (v : Word) : (s.setReg r i j v).ports = s.ports := rfl
@[simp] theorem State.setReg_nd (s : State) (r : Reg) (i j : Nat) (v : Word) : (s.setReg r i j v).nd = s.nd := rfl
@[simp] theorem State.setReg_out (s : State) (r : Reg) (i j : Nat) (v : Word) : (s.setReg r i j v).out = s.out := rfl
@[simp] theorem State.setReg_free (s : State) (r : Reg) (i j : Nat) (v : Word) : (s.setReg r i j v).free = s.free := rfl
@[simp] theorem State.setReg_pending (s : State) (r : Reg) (i j : Nat) (v : Word) : (s.setReg r i j v).pending = s.pending := rfl

/-! setFld -/

@[simp] theorem State.setFld_fuses (s : State) (f : Field) (v i j : Nat) : (s.setFld f v i j).fuses = s.fuses := rfl
@[simp] theorem State.setFld_pwr (s : State) (f : Field) (v i j : Nat) : (s.setFld f v i j).pwr = s.pwr := rfl
@[simp] theorem State.setFld_tap (s : State) (f : Field) (v i j : Nat) : (s.setFld f v i j).tap = s.tap := rfl
@[simp] theorem State.setFld_hbm (s : State) (f : Field) (v i j : Nat) : (s.setFld f v i j).hbm = s.hbm := rfl
@[simp] theorem State.setFld_lmem (s : State) (f : Field) (v i j : Nat) : (s.setFld f v i j).lmem = s.lmem := rfl
@[simp] theorem State.setFld_host (s : State) (f : Field) (v i j : Nat) : (s.setFld f v i j).host = s.host := rfl
@[simp] theorem State.setFld_cores (s : State) (f : Field) (v i j : Nat) : (s.setFld f v i j).cores = s.cores := rfl
@[simp] theorem State.setFld_blot (s : State) (f : Field) (v i j : Nat) : (s.setFld f v i j).blot = s.blot := rfl
@[simp] theorem State.setFld_mses (s : State) (f : Field) (v i j : Nat) : (s.setFld f v i j).mses = s.mses := rfl
@[simp] theorem State.setFld_dmas (s : State) (f : Field) (v i j : Nat) : (s.setFld f v i j).dmas = s.dmas := rfl
@[simp] theorem State.setFld_net (s : State) (f : Field) (v i j : Nat) : (s.setFld f v i j).net = s.net := rfl
@[simp] theorem State.setFld_seq (s : State) (f : Field) (v i j : Nat) : (s.setFld f v i j).seq = s.seq := rfl
@[simp] theorem State.setFld_saf (s : State) (f : Field) (v i j : Nat) : (s.setFld f v i j).saf = s.saf := rfl
@[simp] theorem State.setFld_ports (s : State) (f : Field) (v i j : Nat) : (s.setFld f v i j).ports = s.ports := rfl
@[simp] theorem State.setFld_nd (s : State) (f : Field) (v i j : Nat) : (s.setFld f v i j).nd = s.nd := rfl
@[simp] theorem State.setFld_out (s : State) (f : Field) (v i j : Nat) : (s.setFld f v i j).out = s.out := rfl
@[simp] theorem State.setFld_free (s : State) (f : Field) (v i j : Nat) : (s.setFld f v i j).free = s.free := rfl
@[simp] theorem State.setFld_pending (s : State) (f : Field) (v i j : Nat) : (s.setFld f v i j).pending = s.pending := rfl

/-! drawn -/

@[simp] theorem State.drawn_regs (s : State) : (s.drawn).regs = s.regs := rfl
@[simp] theorem State.drawn_fuses (s : State) : (s.drawn).fuses = s.fuses := rfl
@[simp] theorem State.drawn_pwr (s : State) : (s.drawn).pwr = s.pwr := rfl
@[simp] theorem State.drawn_tap (s : State) : (s.drawn).tap = s.tap := rfl
@[simp] theorem State.drawn_hbm (s : State) : (s.drawn).hbm = s.hbm := rfl
@[simp] theorem State.drawn_lmem (s : State) : (s.drawn).lmem = s.lmem := rfl
@[simp] theorem State.drawn_host (s : State) : (s.drawn).host = s.host := rfl
@[simp] theorem State.drawn_cores (s : State) : (s.drawn).cores = s.cores := rfl
@[simp] theorem State.drawn_blot (s : State) : (s.drawn).blot = s.blot := rfl
@[simp] theorem State.drawn_mses (s : State) : (s.drawn).mses = s.mses := rfl
@[simp] theorem State.drawn_dmas (s : State) : (s.drawn).dmas = s.dmas := rfl
@[simp] theorem State.drawn_net (s : State) : (s.drawn).net = s.net := rfl
@[simp] theorem State.drawn_seq (s : State) : (s.drawn).seq = s.seq := rfl
@[simp] theorem State.drawn_saf (s : State) : (s.drawn).saf = s.saf := rfl
@[simp] theorem State.drawn_ports (s : State) : (s.drawn).ports = s.ports := rfl
@[simp] theorem State.drawn_nd (s : State) : (s.drawn).nd = s.nd := rfl
@[simp] theorem State.drawn_out (s : State) : (s.drawn).out = s.out := rfl
@[simp] theorem State.drawn_pending (s : State) : (s.drawn).pending = s.pending := rfl

/-! emit -/

@[simp] theorem State.emit_regs (s : State) (o : Out) : (s.emit o).regs = s.regs := rfl
@[simp] theorem State.emit_fuses (s : State) (o : Out) : (s.emit o).fuses = s.fuses := rfl
@[simp] theorem State.emit_pwr (s : State) (o : Out) : (s.emit o).pwr = s.pwr := rfl
@[simp] theorem State.emit_tap (s : State) (o : Out) : (s.emit o).tap = s.tap := rfl
@[simp] theorem State.emit_hbm (s : State) (o : Out) : (s.emit o).hbm = s.hbm := rfl
@[simp] theorem State.emit_lmem (s : State) (o : Out) : (s.emit o).lmem = s.lmem := rfl
@[simp] theorem State.emit_host (s : State) (o : Out) : (s.emit o).host = s.host := rfl
@[simp] theorem State.emit_cores (s : State) (o : Out) : (s.emit o).cores = s.cores := rfl
@[simp] theorem State.emit_blot (s : State) (o : Out) : (s.emit o).blot = s.blot := rfl
@[simp] theorem State.emit_mses (s : State) (o : Out) : (s.emit o).mses = s.mses := rfl
@[simp] theorem State.emit_dmas (s : State) (o : Out) : (s.emit o).dmas = s.dmas := rfl
@[simp] theorem State.emit_net (s : State) (o : Out) : (s.emit o).net = s.net := rfl
@[simp] theorem State.emit_seq (s : State) (o : Out) : (s.emit o).seq = s.seq := rfl
@[simp] theorem State.emit_saf (s : State) (o : Out) : (s.emit o).saf = s.saf := rfl
@[simp] theorem State.emit_ports (s : State) (o : Out) : (s.emit o).ports = s.ports := rfl
@[simp] theorem State.emit_nd (s : State) (o : Out) : (s.emit o).nd = s.nd := rfl
@[simp] theorem State.emit_free (s : State) (o : Out) : (s.emit o).free = s.free := rfl
@[simp] theorem State.emit_pending (s : State) (o : Out) : (s.emit o).pending = s.pending := rfl

/-! The field that an update writes -/

@[simp] theorem State.modSeq_seq (s : State) (f : Seq → Seq) : (s.modSeq f).seq = f s.seq := rfl
@[simp] theorem State.modSaf_saf (s : State) (f : Saf → Saf) : (s.modSaf f).saf = f s.saf := rfl
@[simp] theorem State.modPwr_pwr (s : State) (f : Pwr → Pwr) : (s.modPwr f).pwr = f s.pwr := rfl
@[simp] theorem State.modNd_nd (s : State) (f : Ndomir → Ndomir) : (s.modNd f).nd = f s.nd := rfl
@[simp] theorem State.modHbm_hbm (s : State) (f : Hbm → Hbm) : (s.modHbm f).hbm = f s.hbm := rfl
@[simp] theorem State.modNet_net (s : State) (f : LinkNet → LinkNet) : (s.modNet f).net = f s.net := rfl
@[simp] theorem State.drawn_free (s : State) : s.drawn.free = s.free + 1 := rfl
@[simp] theorem State.emit_out (s : State) (o : Out) : (s.emit o).out = s.out ++ [o] := rfl

/-! What keeps a command's answer from the parts no command but the test port's may change -/

@[simp] theorem keepFixed_pending (s t : State) : (keepFixed s t).pending = s.pending := rfl
@[simp] theorem keepFixed_tap (s t : State) : (keepFixed s t).tap = s.tap := rfl
@[simp] theorem keepFixed_rpRate (s t : State) : (keepFixed s t).fuses.rpRate = s.fuses.rpRate := rfl
@[simp] theorem keepFixed_binS2 (s t : State) : (keepFixed s t).fuses.binS2 = s.fuses.binS2 := rfl
@[simp] theorem keepFixed_serial (s t : State) : (keepFixed s t).fuses.serial = s.fuses.serial := rfl
@[simp] theorem keepFixed_keyHash (s t : State) : (keepFixed s t).fuses.keyHash = s.fuses.keyHash := rfl
@[simp] theorem keepFixed_regs (s t : State) : (keepFixed s t).regs = t.regs := rfl
@[simp] theorem keepFixed_pwr (s t : State) : (keepFixed s t).pwr = t.pwr := rfl
@[simp] theorem keepFixed_hbm (s t : State) : (keepFixed s t).hbm = t.hbm := rfl
@[simp] theorem keepFixed_lmem (s t : State) : (keepFixed s t).lmem = t.lmem := rfl
@[simp] theorem keepFixed_host (s t : State) : (keepFixed s t).host = t.host := rfl
@[simp] theorem keepFixed_cores (s t : State) : (keepFixed s t).cores = t.cores := rfl
@[simp] theorem keepFixed_blot (s t : State) : (keepFixed s t).blot = t.blot := rfl
@[simp] theorem keepFixed_mses (s t : State) : (keepFixed s t).mses = t.mses := rfl
@[simp] theorem keepFixed_dmas (s t : State) : (keepFixed s t).dmas = t.dmas := rfl
@[simp] theorem keepFixed_net (s t : State) : (keepFixed s t).net = t.net := rfl
@[simp] theorem keepFixed_seq (s t : State) : (keepFixed s t).seq = t.seq := rfl
@[simp] theorem keepFixed_saf (s t : State) : (keepFixed s t).saf = t.saf := rfl
@[simp] theorem keepFixed_ports (s t : State) : (keepFixed s t).ports = t.ports := rfl
@[simp] theorem keepFixed_nd (s t : State) : (keepFixed s t).nd = t.nd := rfl
@[simp] theorem keepFixed_out (s t : State) : (keepFixed s t).out = t.out := rfl
@[simp] theorem keepFixed_free (s t : State) : (keepFixed s t).free = t.free := rfl

/-- With nothing changed there is nothing to keep. -/
@[simp] theorem keepFixed_self (s : State) : keepFixed s s = s := rfl

end Sys2Proof.Machine
end

