-- ==== Sys2Proof/Laws/Memory.lean ====
section
/-! SUPPORT. Laws of the memories: a byte reads as it was written, a write leaves every other byte alone, and every write
keeps the canonical form. -/

namespace Sys2Proof.Machine

/-! ## Read after write -/

@[simp] theorem hbmByte_setHbmByte_same (s : State) (k : Nat) (v : Byte) : (s.setHbmByte k v).hbmByte k = v :=
  Sparse.get_set_same _ _ _ _

theorem hbmByte_setHbmByte_other (s : State) (k j : Nat) (v : Byte) (h : j ≠ k) :
    (s.setHbmByte k v).hbmByte j = s.hbmByte j := Sparse.get_set_other _ _ _ _ _ h

@[simp] theorem localByte_setLocalByte_same (s : State) (c off : Nat) (v : Byte) :
    (s.setLocalByte c off v).localByte c off = v := Sparse.get_set_same _ _ _ _

theorem localByte_setLocalByte_other (s : State) (c d off o : Nat) (v : Byte)
    (h : lmemKey (s.phys d) o ≠ lmemKey (s.phys c) off) : (s.setLocalByte c off v).localByte d o = s.localByte d o :=
  Sparse.get_set_other _ _ _ _ _ h

@[simp] theorem hostByte_setHostByte_same (s : State) (p bus : Nat) (v : Byte) :
    (s.setHostByte p bus v).hostByte p bus = v := by
  simp [State.hostByte, State.setHostByte, Sparse.find_put_same]

theorem hostByte_setHostByte_other (s : State) (p q bus b : Nat) (v : Byte) (h : hostKey q b ≠ hostKey p bus) :
    (s.setHostByte p bus v).hostByte q b = s.hostByte q b := by
  simp only [State.hostByte, State.setHostByte, Sparse.find_put_other _ _ _ _ h]

/-! ## The canonical form -/

/-- The form speaks of three fields only. -/
theorem Memory.wf_congr {s t : State} (hb : t.hbm.bytes = s.hbm.bytes) (hl : t.lmem = s.lmem) (hh : t.host = s.host) :
    Memory.wf t = Memory.wf s := by simp only [Memory.wf, hb, hl, hh]

theorem Memory.wf_iff (s : State) : Memory.wf s = true ↔
    Sparse.wf (0 : Byte) s.hbm.bytes = true ∧ Sparse.wf (0 : Byte) s.lmem = true ∧ Sparse.rising s.host = true := by
  simp only [Memory.wf, Bool.and_eq_true, and_assoc]

theorem Memory.wf_reset : Memory.wf State.reset = true := by decide

theorem setHbmByte_wf {s : State} (h : Memory.wf s = true) (k : Nat) (v : Byte) : Memory.wf (s.setHbmByte k v) = true := by
  rw [Memory.wf_iff] at *
  exact ⟨Sparse.wf_set 0 h.1 k v, h.2⟩

theorem setHbmBytes_wf {s : State} (h : Memory.wf s = true) (ks : List Nat) (bs : List Byte) :
    Memory.wf (s.setHbmBytes ks bs) = true := by
  induction ks generalizing s bs with
  | nil => exact h
  | cons k ks ih => cases bs with
    | nil => exact h
    | cons b bs => exact ih (setHbmByte_wf h k b) bs

theorem setLocalByte_wf {s : State} (h : Memory.wf s = true) (c off : Nat) (v : Byte) :
    Memory.wf (s.setLocalByte c off v) = true := by
  rw [Memory.wf_iff] at *
  exact ⟨h.1, Sparse.wf_set 0 h.2.1 _ v, h.2.2⟩

theorem setLocalBytes_wf {s : State} (h : Memory.wf s = true) (c off : Nat) (bs : List Byte) :
    Memory.wf (s.setLocalBytes c off bs) = true := by
  induction bs generalizing s off with
  | nil => exact h
  | cons b r ih => exact ih (setLocalByte_wf h c off b) (off + 1)

theorem setHostByte_wf {s : State} (h : Memory.wf s = true) (p bus : Nat) (v : Byte) :
    Memory.wf (s.setHostByte p bus v) = true := by
  rw [Memory.wf_iff] at *
  exact ⟨h.1, h.2.1, Sparse.rising_put h.2.2 _ v⟩

theorem setHostBytes_wf {s : State} (h : Memory.wf s = true) (p bus : Nat) (bs : List Byte) :
    Memory.wf (s.setHostBytes p bus bs) = true := by
  induction bs generalizing s bus with
  | nil => exact h
  | cons b r ih => exact ih (setHostByte_wf h p bus b) (bus + 1)

theorem hostWrote_wf {s : State} (h : Memory.wf s = true) (hw : List HostWrite) : Memory.wf (s.hostWrote hw) = true := by
  unfold State.hostWrote
  induction hw generalizing s with
  | nil => exact h
  | cons w r ih => exact ih (setHostByte_wf h w.port w.bus w.val)

theorem hold_wf {s : State} (h : Memory.wf s = true) (va : Nat) (o : Option (DWord × Nat)) : Memory.wf (s.hold va o) = true := by
  cases o <;> exact h

theorem logFault_wf {s : State} (h : Memory.wf s = true) (agent cause va : Nat) :
    Memory.wf (s.logFault agent cause va) = true := by
  unfold State.logFault
  split
  · exact h
  · extract_lets a b c d
    have e : ∀ (u : State) (r : Reg) (v : Word), Memory.wf (u.setReg r 0 0 v) = Memory.wf u := fun u r v =>
      Memory.wf_congr rfl rfl rfl
    exact (e d _ _).trans ((e c _ _).trans ((e b _ _).trans ((e a _ _).trans ((e s _ _).trans h))))

theorem writeHbm_wf {s : State} (h : Memory.wf s = true) (pa : Nat) (bytes : List Byte) :
    Memory.wf (s.writeHbm pa bytes).1 = true := by
  unfold State.writeHbm
  extract_lets ks part whole s1
  split
  · exact h
  · exact (Memory.wf_congr (s := s1) rfl rfl rfl).trans (setHbmBytes_wf h ks bytes)

/-- Dropping entries keeps the form. -/
theorem Sparse.rising_filter {α : Type} (p : Nat × α → Bool) {m : Sparse α} (h : Sparse.rising m = true) :
    Sparse.rising (m.filter p) = true := by
  induction m with
  | nil => rfl
  | cons e r ih =>
    obtain ⟨k, v⟩ := e
    have hr := ih (Sparse.rising_tail h)
    rw [List.filter_cons]
    split
    · exact Sparse.rising_cons hr fun e he => Sparse.rising_head_lt h e (List.mem_filter.mp he).1
    · exact hr

/-- A move of a core's local bytes keeps the form (R346). -/
theorem moveLocal_wf {l : Sparse Byte} (h : Sparse.wf (0 : Byte) l = true) (k : Core) (a b : Nat) :
    Sparse.wf (0 : Byte) (moveLocal l k a b) = true := by
  have hk : Sparse.wf (0 : Byte) (l.filter fun e => !(e.1 / 2 ^ 24 == b && k.carries (e.1 % 2 ^ 24))) = true := by
    simp only [Sparse.wf, Bool.and_eq_true, List.all_eq_true] at *
    exact ⟨Sparse.rising_filter _ h.1, fun e he => h.2 e (List.mem_filter.mp he).1⟩
  unfold moveLocal
  generalize (l.filter fun e => !(e.1 / 2 ^ 24 == b && k.carries (e.1 % 2 ^ 24))) = kept at *
  simp only
  generalize (l.filter fun e => e.1 / 2 ^ 24 == a && k.carries (e.1 % 2 ^ 24)) = moved
  induction moved generalizing kept with
  | nil => exact hk
  | cons e r ih => exact ih _ (Sparse.wf_set 0 hk _ _)

end Sys2Proof.Machine
end

