-- ==== Sys2Proof/Laws/Registers.lean ====
section
/-! SUPPORT. Laws of the registers: what a register or a field reads as after a write. -/

namespace Sys2Proof.Machine

@[simp] theorem State.reg_setReg_same (s : State) (r : Reg) (i j : Nat) (v : Word) : (s.setReg r i j v).reg r i j = v := by
  simp [State.reg, State.setReg]

theorem State.reg_setReg_other (s : State) (r q : Reg) (i j k l : Nat) (v : Word) (h : q.addr k l ≠ r.addr i j) :
    (s.setReg r i j v).reg q k l = s.reg q k l := by
  simp only [State.reg, State.setReg]
  exact Sparse.get_set_other' _ _ _ _ _ _ h

/-- The value of a field that was replaced in a word. -/
theorem Field.of_into (f : Field) (w : Word) (v : Nat) (hl : f.lo ≤ f.hi) (hh : f.hi < 32) :
    f.of (f.into w v) = v % 2 ^ (f.hi - f.lo + 1) := by
  obtain ⟨r, hi, lo⟩ := f
  simp only [Field.of, Field.into, bitsOf] at *
  set n := hi - lo + 1 with hn
  have hw := w.isLt
  set W := w.toNat with hW
  have hdec : W = (W / 2 ^ lo / 2 ^ n * 2 ^ n + W / 2 ^ lo % 2 ^ n) * 2 ^ lo + W % 2 ^ lo := by
    rw [Nat.div_add_mod' (W / 2 ^ lo) (2 ^ n), Nat.div_add_mod']
  set h := W / 2 ^ lo / 2 ^ n
  set m := W / 2 ^ lo % 2 ^ n
  set l := W % 2 ^ lo with hldef
  have hlt : l < 2 ^ lo := Nat.mod_lt _ (Nat.two_pow_pos lo)
  have hv : v % 2 ^ n < 2 ^ n := Nat.mod_lt _ (Nat.two_pow_pos n)
  have e : W - m * 2 ^ lo + v % 2 ^ n * 2 ^ lo = (h * 2 ^ n + v % 2 ^ n) * 2 ^ lo + l := by
    rw [hdec, Nat.add_mul, Nat.add_mul]; omega
  rw [e]
  have hpow : 2 ^ lo * 2 ^ n ≤ 2 ^ 32 := by
    rw [← Nat.pow_add]; exact Nat.pow_le_pow_right (by decide) (by omega)
  have hhb : h < 2 ^ (32 - (lo + n)) := by
    have : W / 2 ^ lo / 2 ^ n = W / 2 ^ (lo + n) := by rw [Nat.div_div_eq_div_mul, ← Nat.pow_add]
    show W / 2 ^ lo / 2 ^ n < _
    rw [this]
    apply Nat.div_lt_of_lt_mul
    rw [← Nat.pow_add]
    calc W < 2 ^ 32 := hw
      _ = 2 ^ (lo + n + (32 - (lo + n))) := by congr 1; omega
  have hlt2 : (h * 2 ^ n + v % 2 ^ n) * 2 ^ lo + l < 2 ^ 32 := by
    have h1 : h * 2 ^ n + v % 2 ^ n < 2 ^ (32 - lo) := by
      have : (h + 1) * 2 ^ n ≤ 2 ^ (32 - (lo + n)) * 2 ^ n := Nat.mul_le_mul_right _ hhb
      rw [← Nat.pow_add, show 32 - (lo + n) + n = 32 - lo by omega] at this
      rw [Nat.add_mul] at this; omega
    have h2 : (h * 2 ^ n + v % 2 ^ n + 1) * 2 ^ lo ≤ 2 ^ (32 - lo) * 2 ^ lo := Nat.mul_le_mul_right _ h1
    rw [← Nat.pow_add, show 32 - lo + lo = 32 by omega, Nat.add_mul] at h2
    omega
  rw [BitVec.toNat_ofNat, Nat.mod_eq_of_lt hlt2]
  rw [Nat.mul_comm, Nat.mul_add_div (Nat.two_pow_pos lo), Nat.div_eq_of_lt hlt, Nat.add_zero]
  rw [Nat.mul_comm, Nat.mul_add_mod, Nat.mod_eq_of_lt hv]

/-- A field reads as it was written. -/
theorem State.fld_setFld_same (s : State) (f : Field) (v i j : Nat) (hl : f.lo ≤ f.hi) (hh : f.hi < 32) :
    (s.setFld f v i j).fld f i j = v % 2 ^ (f.hi - f.lo + 1) := by
  simp [State.fld, State.setFld, Field.of_into f _ v hl hh]

end Sys2Proof.Machine
end

