-- ==== Sys2Proof/Laws/Step.lean ====
section
/-! SUPPORT. What a step and the answer of a command come to: the lemmas that a proof about one command begins with. -/

namespace Sys2Proof.Machine

/-! ## A step -/

theorem step_idle {s : State} (h : s.pending = []) : step s = .next s := by simp [step, h]

theorem step_front {s : State} {c : Instr} {r : List Instr} (h : s.pending = c :: r) :
    step s = exec c { s with pending := r } := by simp [step, h]

/-! ## The answer -/

theorem answer_next {ok : Bool} (s : State) (f : State → State) (h : ok = true) :
    answer ok s f = .next (keepFixed s (f s)) := if_pos h

theorem answer_fault {ok : Bool} (s : State) (f : State → State) (h : ok = false) :
    answer ok s f = .fault .noSuchUnit := by subst h; rfl

/-- All that an answer can be. -/
theorem answer_cases {ok : Bool} {s t : State} {f : State → State} (h : answer ok s f = .next t) :
    ok = true ∧ t = keepFixed s (f s) := by
  cases ok with
  | false => exact absurd h (by simp [answer])
  | true => exact ⟨rfl, (Host.Outcome.next.inj h).symm⟩

theorem answerTap_cases {s t : State} {f : State → State} (h : answerTap s f = .next t) :
    t = { keepFixed s (f s) with tap := (f s).tap } := (Host.Outcome.next.inj h).symm

/-! ## BAR0 writes -/

theorem bar0Write_reaches {s : State} {port : Nat} {r : Reg} {i j : Nat} (f : State → State)
    (h : s.writable port (r.addr i j) = true) : s.bar0Write port r i j f = f s := if_pos h

theorem bar0Write_ignored {s : State} {port : Nat} {r : Reg} {i j : Nat} (f : State → State)
    (h : s.writable port (r.addr i j) = false) : s.bar0Write port r i j f = s := by
  simp [State.bar0Write, h]

/-- A plain write changes one register. -/
theorem plainWrite_same (s : State) (r : Reg) (i j : Nat) (v : Word) :
    (s.plainWrite r i j v).reg r i j = r.written (s.reg r i j) v := State.reg_setReg_same s r i j _

theorem plainWrite_other (s : State) (r q : Reg) (i j k l : Nat) (v : Word) (h : q.addr k l ≠ r.addr i j) :
    (s.plainWrite r i j v).reg q k l = s.reg q k l := State.reg_setReg_other s r q i j k l _ h

/-- The register found at an offset lies there. -/
theorem RegDesc.find_addr {d : RegDesc} {off i j : Nat} (h : d.find off = some (i, j)) :
    d.base + i * d.s1 + j * d.s2 = off ∧ i < d.n1 ∧ j < d.n2 := by
  unfold RegDesc.find at h
  split at h
  · exact absurd h (by simp)
  · next hb =>
    extract_lets x i' y j' at h
    by_cases hc : (if d.s2 = 0 then y else y % d.s2) = 0 ∧ i' < d.n1 ∧ j' < d.n2
    · rw [if_pos hc] at h
      obtain ⟨hi, hj⟩ := Prod.mk.inj (Option.some.inj h)
      have e1 : i' * d.s1 + y = x := by
        by_cases h1 : d.s1 = 0
        · simp [i', y, h1]
        · simp only [i', y, h1, if_false]; exact Nat.div_add_mod' x d.s1
      have e2 : j' * d.s2 = y := by
        by_cases h2 : d.s2 = 0
        · have h3 := hc.1
          simp only [h2, if_true] at h3
          simp [j', h2, h3]
        · have h3 := hc.1
          simp only [h2, if_false] at h3
          simp only [j', h2, if_false]
          exact Nat.div_mul_cancel (Nat.dvd_of_mod_eq_zero h3)
      have e3 : d.base + x = off := by simp only [x]; omega
      rw [← hi, ← hj]
      exact ⟨by omega, hc.2⟩
    · rw [if_neg hc] at h
      exact absurd h (by simp)

end Sys2Proof.Machine
end

