-- ==== Sys2Proof/Laws/Units.lean ====
section
/-! SUPPORT. What memory accesses, packets, events and records leave alone: the cores, the MSE dies, the DMA channels and the
check units; and that they keep the canonical form of the memories. -/

namespace Sys2Proof.Machine

/-- What a step leaves of a state: the units are as they were, the memories keep their canonical form, and no word of core SRAM is in
error that was not. -/
structure Kept (t s : State) : Prop where
  units : t.units = s.units
  wf : Memory.wf s = true → Memory.wf t = true
  clean : s.saf.sram = [] → t.saf.sram = []

theorem Kept.refl (s : State) : Kept s s := ⟨rfl, id, id⟩

theorem Kept.trans {t u s : State} (h1 : Kept t u) (h2 : Kept u s) : Kept t s :=
  ⟨h1.units.trans h2.units, fun h => h1.wf (h2.wf h), fun h => h1.clean (h2.clean h)⟩

/-- Units and memories are those of `s`. -/
theorem Kept.same {t s : State} (hu : t.units = s.units) (hb : t.hbm.bytes = s.hbm.bytes) (hl : t.lmem = s.lmem)
    (hh : t.host = s.host) (hs : t.saf.sram = s.saf.sram) : Kept t s :=
  ⟨hu, fun h => (Memory.wf_congr hb hl hh).trans h, hs.trans⟩

theorem foldl_kept {α : Type} (l : List α) (f : State → α → State) (s : State) (h : ∀ s x, Kept (f s x) s) :
    Kept (l.foldl f s) s := by
  induction l generalizing s with
  | nil => exact Kept.refl s
  | cons x r ih => rw [List.foldl_cons]; exact (ih _).trans (h _ _)

theorem State.setReg_kept (s : State) (r : Reg) (i j : Nat) (v : Word) : Kept (s.setReg r i j v) s := ⟨rfl, id, id⟩
theorem State.setFld_kept (s : State) (f : Field) (v i j : Nat) : Kept (s.setFld f v i j) s := ⟨rfl, id, id⟩
theorem State.drawn_kept (s : State) : Kept s.drawn s := ⟨rfl, id, id⟩
theorem State.emit_kept (s : State) (o : Out) : Kept (s.emit o) s := ⟨rfl, id, id⟩
theorem State.modNet_kept (s : State) (f : LinkNet → LinkNet) : Kept (s.modNet f) s := ⟨rfl, id, id⟩
theorem State.modLink_kept (s : State) (l : Nat) (f : Link → Link) : Kept (s.modLink l f) s := ⟨rfl, id, id⟩
theorem State.modSeq_kept (s : State) (f : Seq → Seq) : Kept (s.modSeq f) s := ⟨rfl, id, id⟩
theorem State.modSaf_kept (s : State) (f : Saf → Saf) (h : ∀ x, x.sram = [] → (f x).sram = [] := by intros; assumption) :
    Kept (s.modSaf f) s := ⟨rfl, id, h _⟩
theorem State.modPort_kept (s : State) (p : Nat) (f : Port → Port) : Kept (s.modPort p f) s := ⟨rfl, id, id⟩
theorem State.modPair_kept (s : State) (p q : Nat) (f : Pair → Pair) : Kept (s.modPair p q f) s := ⟨rfl, id, id⟩
theorem State.modPwr_kept (s : State) (f : Pwr → Pwr) : Kept (s.modPwr f) s := ⟨rfl, id, id⟩
theorem State.modNd_kept (s : State) (f : Ndomir → Ndomir) : Kept (s.modNd f) s := ⟨rfl, id, id⟩
theorem State.modHbm_kept (s : State) (f : Hbm → Hbm) (h : ∀ x, (f x).bytes = x.bytes := by intro; rfl) : Kept (s.modHbm f) s :=
  Kept.same rfl (h _) rfl rfl rfl
theorem State.count_kept (s : State) (f : Field) (k : Nat) (i : Nat) (j : Nat) : Kept (s.count f k i j) s := by unfold State.count; exact State.setFld_kept _ _ _ _ _
theorem State.tickTimer_kept (s : State) : Kept s.tickTimer s := by unfold State.tickTimer; exact ⟨rfl, id, id⟩
theorem State.sendMsix_kept (s : State) (p cause : Nat) : Kept (s.sendMsix p cause) s := by
  unfold State.sendMsix
  dsimp only
  repeat' split
  all_goals first | exact Kept.refl _ | exact ⟨rfl, id, id⟩
theorem State.raiseAlert_kept (s : State) (p cause : Nat) : Kept (s.raiseAlert p cause) s := by
  unfold State.raiseAlert
  extract_lets old
  split
  · exact Kept.refl _
  · split
    · exact (State.sendMsix_kept _ _ _).trans (State.setFld_kept _ _ _ _ _)
    · exact State.setFld_kept _ _ _ _ _
theorem State.raiseBoth_kept (s : State) (cause : Nat) : Kept (s.raiseBoth cause) s := by
  unfold State.raiseBoth
  repeat' split
  exact (State.raiseAlert_kept _ _ _).trans (State.raiseAlert_kept _ _ _)
theorem State.setHbmByte_kept (s : State) (k : Nat) (v : Byte) : Kept (s.setHbmByte k v) s :=
  ⟨rfl, fun h => setHbmByte_wf h k v, id⟩
theorem State.hold_kept (s : State) (va : Nat) (o : Option (DWord × Nat)) : Kept (s.hold va o) s := by cases o <;> exact ⟨rfl, id, id⟩
theorem State.logFault_kept (s : State) (agent cause va : Nat) : Kept (s.logFault agent cause va) s := by
  unfold State.logFault
  split
  · exact Kept.refl _
  · exact (State.setFld_kept _ _ _ _ _).trans ((State.setFld_kept _ _ _ _ _).trans ((State.setFld_kept _ _ _ _ _).trans
      ((State.setReg_kept _ _ _ _ _).trans (State.setReg_kept _ _ _ _ _))))
theorem State.setLocalByte_kept (s : State) (c off : Nat) (v : Byte) : Kept (s.setLocalByte c off v) s :=
  ⟨rfl, fun h => setLocalByte_wf h c off v, id⟩
theorem State.setLocalBytes_kept (s : State) (c : Nat) (off : Nat) (bs : List Byte) : Kept (s.setLocalBytes c off bs) s := by
  induction bs generalizing s off with
  | nil => exact Kept.refl _
  | cons b r ih => exact (ih _ _).trans (State.setLocalByte_kept _ _ _ _)
theorem State.setHostByte_kept (s : State) (port bus : Nat) (v : Byte) : Kept (s.setHostByte port bus v) s :=
  ⟨rfl, fun h => setHostByte_wf h port bus v, id⟩
theorem State.setHostBytes_kept (s : State) (port : Nat) (off : Nat) (bs : List Byte) : Kept (s.setHostBytes port off bs) s := by
  induction bs generalizing s off with
  | nil => exact Kept.refl _
  | cons b r ih => exact (ih _ _).trans (State.setHostByte_kept _ _ _ _)
theorem State.hostWrote_kept (s : State) (hw : List HostWrite) : Kept (s.hostWrote hw) s := by
  unfold State.hostWrote
  exact foldl_kept _ _ _ fun s w => State.setHostByte_kept s _ _ _
theorem State.setHbmBytes_kept (s : State) (ks : List Nat) (bs : List Byte) : Kept (s.setHbmBytes ks bs) s := by
  induction ks generalizing s bs with
  | nil => cases bs <;> exact Kept.refl _
  | cons k r ih => cases bs with
    | nil => exact Kept.refl _
    | cons b r' => exact (ih _ _).trans (State.setHbmByte_kept _ _ _)
theorem State.orReg_kept (s : State) (r : Reg) (i : Nat) (v : Nat) : Kept (s.orReg r i v) s := by
  unfold State.orReg
  repeat' split
  all_goals first | exact Kept.refl _ | exact ⟨rfl, id, id⟩
theorem State.raiseVec_kept (s : State) (c : Nat) (f : Flags) : Kept (s.raiseVec c f) s := by
  unfold State.raiseVec
  repeat' split
  exact State.orReg_kept _ _ _ _
theorem State.raiseEng_kept (s : State) (c : Nat) (e : Eng) (f : Flags) : Kept (s.raiseEng c e f) s := by
  unfold State.raiseEng
  repeat' split
  all_goals exact State.orReg_kept _ _ _ _
theorem State.raiseMse_kept (s : State) (k : Nat) (f : Flags) : Kept (s.raiseMse k f) s := by
  unfold State.raiseMse
  repeat' split
  exact State.orReg_kept _ _ _ _
theorem State.sendFlit_kept (s : State) (l kind : Nat) (seq : BitVec 12) (sop : BitVec 15) (body : List Byte) :
    Kept (s.sendFlit l kind seq sop body) s := by
  unfold State.sendFlit
  extract_lets x v n ack w0
  exact (State.emit_kept _ _).trans (State.modLink_kept _ _ _)
theorem State.returns_kept (s : State) (l : Nat) : Kept (s.returns l) s := by
  unfold State.returns
  split
  · exact Kept.refl _
  · refine foldl_kept _ _ _ fun s w => ?_
    extract_lets x
    split
    · exact State.sendFlit_kept _ _ _ _ _ _
    · exact Kept.refl _
theorem State.flush_kept (s : State) (l : Nat) : Kept (s.flush l) s := by
  unfold State.flush
  split
  · exact Kept.refl _
  · extract_lets x y s1
    exact (State.returns_kept _ _).trans ((foldl_kept _ _ _ fun s w => State.sendFlit_kept s _ _ _ _ _).trans (State.modLink_kept _ _ _))
theorem State.leave_kept (s : State) (p : Packet) : Kept (s.leave p) s := by
  unfold State.leave
  split
  · exact Kept.refl _
  · split
    · exact (State.flush_kept _ _).trans (State.modLink_kept _ _ _)
    · exact State.count_kept _ _ _ _ _
theorem State.respond_kept (s : State) (p : Packet) : Kept (s.respond p) s := by
  unfold State.respond
  split
  · exact State.count_kept _ _ _ _ _
  · exact (State.drawn_kept _).trans (State.leave_kept _ _)
theorem State.lose_kept (s : State) (p : Packet) (l : Nat) : Kept (s.lose p l) s := by
  unfold State.lose
  extract_lets s1
  have h : Kept s1 s := State.count_kept _ _ _ _ _
  split
  · exact h
  · split
    · exact (State.modNet_kept _ _).trans h
    · exact (State.respond_kept _ _).trans h
theorem State.forward_kept (s : State) (p : Packet) : Kept (s.forward p) s := by
  unfold State.forward
  split
  · exact Kept.refl _
  · split
    · exact (State.flush_kept _ _).trans (State.modLink_kept _ _ _)
    · exact State.lose_kept _ _ _
theorem State.inject_kept (s : State) (p : Packet) (pin : Option Route) (pinned : Bool) (flow : Nat) :
    Kept (s.inject p pin pinned flow).1 s := by
  unfold State.inject
  split
  · exact State.forward_kept _ _
  · split
    · exact (State.drawn_kept _).trans (State.forward_kept _ _)
    · have h : ∀ (b : Bool) (l : Nat), Kept (if b then s else s.lose p l) s := by
        intro b l
        split
        · exact Kept.refl _
        · exact State.lose_kept _ _ _
      exact h _ _
theorem State.send_kept (s : State) (p : Packet) : Kept (s.send p) s := State.inject_kept _ _ _ _ _
theorem State.readResp_kept (s : State) (dst : Nat) (tag : BitVec 16) (status : Nat) (data : List Byte) : Kept (s.readResp dst tag status data) s := by unfold State.readResp; exact (State.respond_kept _ _).trans (State.modNet_kept _ _)
theorem State.tellPeers_kept (s : State) (es : List (List Byte)) : Kept (s.tellPeers es) s := by unfold State.tellPeers; exact foldl_kept _ _ _ (fun s w => by split <;> first | exact Kept.refl _ | exact State.send_kept _ _)
theorem State.tellLink_kept (s : State) (l : Nat) : Kept (s.tellLink l) s := State.tellPeers_kept _ _
theorem State.rouse_kept (s : State) (ks : List Nat) : Kept (s.rouse ks) s := State.modHbm_kept _ _
theorem State.stir_kept (s : State) (ks : List Nat) : Kept (s.stir ks) s := (State.modHbm_kept _ _).trans (State.rouse_kept _ _)
theorem State.writeHbm_kept (s : State) (pa : Nat) (bytes : List Byte) : Kept (s.writeHbm pa bytes).1 s := by
  unfold State.writeHbm
  extract_lets ks part whole s1
  split
  · exact State.stir_kept _ _
  · exact Kept.trans (by exact ⟨rfl, id, id⟩) (State.setHbmBytes_kept s ks bytes)
theorem State.storeAt_kept (s : State) (agent va : Nat) (x : Xlat) (bytes : List Byte) : Kept (s.storeAt agent va x bytes).1 s := by
  have h := State.hold_kept s va x.held
  unfold State.storeAt
  dsimp only
  split
  · exact (State.writeHbm_kept _ _ _).trans h
  · split
    · exact (State.setLocalBytes_kept _ _ _ _).trans h
    · exact (State.logFault_kept _ _ _ _).trans h
  · split
    · exact (State.setHostBytes_kept _ _ _ _).trans h
    · exact h
theorem State.aerError_kept (s : State) (p bit : Nat) (answered : Bool) : Kept (s.aerError p bit answered) s :=
  (State.drawn_kept _).trans (State.modPort_kept _ _ _)
theorem State.readFailed_kept (s : State) (p : Nat) : Kept (s.readFailed p) s := by
  unfold State.readFailed
  split
  · exact (State.aerError_kept _ _ _ _).trans (State.drawn_kept _)
  · exact State.drawn_kept _

/-! ## Alerts, events, log, ledger and store -/

theorem State.mgtAlert_kept (s : State) (bit : Nat) : Kept (s.mgtAlert bit) s := by
  unfold State.mgtAlert
  extract_lets w
  split
  · exact Kept.refl _
  · split
    · exact (State.raiseBoth_kept _ _).trans (State.setReg_kept _ _ _ _ _)
    · exact State.setReg_kept _ _ _ _ _
theorem State.raiseIbi_kept (s : State) : Kept s.raiseIbi s := by
  unfold State.raiseIbi
  split <;> exact ⟨rfl, id, id⟩
theorem State.announce_kept (s : State) (md : Medium) : Kept (s.announce md) s := by
  unfold State.announce
  split
  · exact State.raiseIbi_kept _
  · exact Kept.refl _
theorem State.tell_kept (s : State) (e : Event) : Kept (s.tell e) s :=
  (State.announce_kept _ _).trans (State.emit_kept _ _)
theorem State.sendEvent_kept (s : State) : Kept s.sendEvent s := by
  unfold State.sendEvent
  split
  · exact (State.tell_kept _ _).trans (State.modNd_kept _ _)
  · exact Kept.refl _
theorem State.setEvents_kept (s : State) (q : List Event) : Kept (s.setEvents q) s := by unfold State.setEvents; exact (State.setFld_kept _ _ _ _ _).trans (State.modNd_kept _ _)
theorem State.queueEvent_kept (s : State) (e : Event) : Kept (s.queueEvent e) s := by
  unfold State.queueEvent
  split
  · exact (State.sendEvent_kept _).trans (State.setEvents_kept _ _)
  · have hl : Kept ((s.count F.MGT_STAT_EVLOST 1).mgtAlert MA.evq) s :=
      (State.mgtAlert_kept _ _).trans (State.count_kept _ _ _ _ _)
    split
    · exact hl
    · split
      · exact (State.setEvents_kept _ _).trans hl
      · exact (State.sendEvent_kept _).trans ((State.modNd_kept _ _).trans ((State.setEvents_kept _ _).trans hl))
theorem State.setDevState_kept (s : State) (v : Nat) : Kept (s.setDevState v) s := by
  unfold State.setDevState
  repeat' split
  all_goals first | exact Kept.refl _ | exact (State.queueEvent_kept _ _).trans ⟨rfl, id, id⟩
theorem State.setThrottleState_kept (s : State) (v : Nat) : Kept (s.setThrottleState v) s := by
  unfold State.setThrottleState
  repeat' split
  all_goals first | exact Kept.refl _ | exact (State.queueEvent_kept _ _).trans ⟨rfl, id, id⟩
theorem State.logEntry_kept (s : State) (e : LogEntry) : Kept (s.logEntry e) s := by unfold State.logEntry; exact State.modNd_kept _ _
theorem State.writeLog_kept (s : State) : Kept s.writeLog s := by unfold State.writeLog; exact State.modNd_kept _ _
theorem State.led_kept (s : State) (f : Ledger → Ledger) : Kept (s.led f) s := by unfold State.led; exact State.modNd_kept _ _
theorem State.lifeRegs_kept (s : State) : Kept s.lifeRegs s := by
  unfold State.lifeRegs
  exact (State.setFld_kept _ _ _ _ _).trans ((State.setFld_kept _ _ _ _ _).trans ((State.setFld_kept _ _ _ _ _).trans
    (State.setFld_kept _ _ _ _ _)))
theorem State.writeLedger_kept (s : State) : Kept s.writeLedger s := by unfold State.writeLedger; exact (State.lifeRegs_kept _).trans ((State.setReg_kept _ _ _ _ _).trans (State.modNd_kept _ _))
theorem State.ledNow_kept (s : State) (f : Ledger → Ledger) : Kept (s.ledNow f) s := by unfold State.ledNow; exact (State.writeLedger_kept _).trans (State.led_kept _ _)
theorem State.writeConfigWith_kept (s : State) (wipe : Option Nat) : Kept (s.writeConfigWith wipe) s := by unfold State.writeConfigWith; exact (State.setFld_kept _ _ _ _ _).trans (State.modNd_kept _ _)
theorem State.writeConfig_kept (s : State) : Kept s.writeConfig s := by unfold State.writeConfig; exact State.writeConfigWith_kept _ _
theorem State.showCellar_kept (s : State) : Kept s.showCellar s := by
  unfold State.showCellar
  exact (State.drawn_kept _).trans ((State.setFld_kept _ _ _ _ _).trans ((State.drawn_kept _).trans
    ((State.setFld_kept _ _ _ _ _).trans ((State.setFld_kept _ _ _ _ _).trans (State.setFld_kept _ _ _ _ _)))))
theorem State.cellarChanged_kept (s : State) : Kept s.cellarChanged s := by unfold State.cellarChanged; exact (State.ledNow_kept _ _).trans ((State.writeConfig_kept _).trans (State.showCellar_kept _))
theorem State.putEntry_kept (s : State) (e : Nat) (bytes : List Byte) : Kept (s.putEntry e bytes) s := by
  unfold State.putEntry
  exact foldl_kept _ _ _ fun s w => State.setReg_kept s _ _ _ _
theorem State.putRecord_kept (s : State) (r : Rec) : Kept (s.putRecord r) s := by
  have h1 : ∀ (t : State) (e : Event), Kept (if r.cls = RC.program then t else t.queueEvent e) t := by
    intro t e; split
    · exact Kept.refl _
    · exact State.queueEvent_kept _ _
  have h2 : ∀ (t : State) (n : Nat) (p : Prop) [Decidable p],
      Kept (if p then ((t.logEntry (.errorRecord n)).writeLog).raiseBoth 1 else t) t := by
    intro t n p _; split
    · exact (State.raiseBoth_kept _ _).trans ⟨rfl, id, id⟩
    · exact Kept.refl _
  unfold State.putRecord
  exact (h2 _ _ _).trans ((h1 _ _).trans ((State.setReg_kept _ _ _ _ _).trans ((State.putEntry_kept _ _ _).trans
    (State.tickTimer_kept _))))
theorem State.putOverflow_kept (s : State) : Kept s.putOverflow s := by
  unfold State.putOverflow
  exact (State.putRecord_kept _ _).trans (State.modSaf_kept _ _)
theorem State.note_kept (s : State) (r : Rec) : Kept (s.note r) s := by
  unfold State.note
  extract_lets s1
  have h1 : Kept s1 s := State.modSaf_kept _ _
  have hn : Kept s1.tickTimer s := (State.tickTimer_kept _).trans h1
  split
  · exact (State.count_kept _ _ _ _ _).trans h1
  · split
    · split
      · exact (State.count_kept _ _ _ _ _).trans hn
      · exact (State.putRecord_kept _ _).trans ((State.modSaf_kept _ _).trans hn)
    · split
      · exact (State.count_kept _ _ _ _ _).trans ((State.putOverflow_kept _).trans h1)
      · exact (State.putRecord_kept _ _).trans h1

/-! ## Reads and writes that note what they meet -/

theorem State.noteRetire_kept (s : State) (blk : Nat) : Kept (s.noteRetire blk) s := by
  unfold State.noteRetire
  extract_lets st used
  split
  · exact Kept.refl _
  · split
    · exact (State.note_kept _ _).trans ((State.showCellar_kept _).trans ((State.modHbm_kept _ _).trans (State.setFld_kept _ _ _ _ _)))
    · exact (State.showCellar_kept _).trans ((State.modHbm_kept _ _).trans (State.setFld_kept _ _ _ _ _))
theorem State.noteCorrected_kept (s : State) (u : Nat) : Kept (s.noteCorrected u) s := by
  unfold State.noteCorrected
  extract_lets st blk s1 s2 n s3 thr
  have h : Kept s3 s := Kept.trans (by exact ⟨rfl, id, id⟩) ((State.drawn_kept _).trans ((State.note_kept _ _).trans
    ((State.led_kept _ _).trans (State.count_kept _ _ _ _ _))))
  split
  · exact (State.noteRetire_kept _ _).trans h
  · exact h
theorem State.noteUncorrectable_kept (s : State) (u : Nat) : Kept (s.noteUncorrectable u) s := by
  unfold State.noteUncorrectable
  split
  · exact Kept.refl _
  · exact (State.noteRetire_kept _ _).trans ((State.drawn_kept _).trans ((State.note_kept _ _).trans
      ((State.led_kept _ _).trans ((State.count_kept _ _ _ _ _).trans (by exact ⟨rfl, id, id⟩)))))
theorem State.noteMeet_kept (s : State) (u : Nat) (found : ScrubResult) : Kept (s.noteMeet u found) s := by
  unfold State.noteMeet
  split
  · exact Kept.refl _
  · split
    · exact Kept.refl _
    · exact State.noteCorrected_kept _ _
  · exact State.noteUncorrectable_kept _ _
theorem State.noteUnit_kept (s : State) (u : Nat) : Kept (s.noteUnit u) s := by
  unfold State.noteUnit
  split
  · exact Kept.refl _
  · exact (State.noteMeet_kept _ _ _).trans (by exact ⟨rfl, id, id⟩)
theorem noteAll_kept (s : State) (us : List Nat) : Kept (us.foldl State.noteUnit s) s := foldl_kept _ _ _ State.noteUnit_kept
theorem State.noteHbm_kept (s : State) (ks : List Nat) : Kept (s.noteHbm ks).1 s := by
  have h := (noteAll_kept (s.stir ks) (unitsOf ks)).trans (State.stir_kept s ks)
  unfold State.noteHbm
  dsimp only
  split <;> exact h
theorem State.noteWalk_kept (s : State) (reads : List Nat) : Kept (s.noteWalk reads).1 s :=
  (noteAll_kept _ _).trans (State.stir_kept s _)
theorem State.noteWord_kept (s : State) (p : Nat) (e : Nat × BadWord) (he : s.saf.sram ≠ []) : Kept (s.noteWord p e) s := by
  unfold State.noteWord
  dsimp only
  have h := fun r => (State.drawn_kept _).trans (State.note_kept s r)
  exact ⟨(h _).units, (h _).wf, fun e => absurd e he⟩
/-- The words that are met are in error, so a slot with none in error meets none. -/
theorem State.noteWords_kept (s : State) (c : Nat) (spans : List (Nat × Nat)) : Kept (s.noteWords c spans).1 s := by
  by_cases h0 : s.saf.sram = []
  · have : s.noteWords c spans = (s, true, false) := by simp [State.noteWords, h0]
    rw [this]
    exact Kept.refl s
  · unfold State.noteWords
    dsimp only
    generalize List.filter _ s.saf.sram = l
    have key : ∀ (l : List (Nat × BadWord)) (a : State × Bool × Bool),
        (a.1.units = s.units ∧ (Memory.wf s = true → Memory.wf a.1 = true)) →
        let r := (l.foldl (fun a e => (a.1.noteWord (s.phys c) e, a.2.1 && e.2.corrected, a.2.2 || e.2.again)) a).1
        r.units = s.units ∧ (Memory.wf s = true → Memory.wf r = true) := by
      intro l
      induction l with
      | nil => exact fun a h => h
      | cons e r ih =>
        intro a h
        refine ih _ ?_
        have hw : (a.1.noteWord (s.phys c) e).units = a.1.units ∧
            (Memory.wf a.1 = true → Memory.wf (a.1.noteWord (s.phys c) e) = true) := by
          unfold State.noteWord
          have k := fun r => (State.drawn_kept _).trans (State.note_kept a.1 r)
          exact ⟨(k _).units, (k _).wf⟩
        exact ⟨hw.1.trans h.1, fun x => hw.2 (h.2 x)⟩
    have k := key l (s, true, false) ⟨rfl, id⟩
    exact ⟨k.1, k.2, fun e => absurd e h0⟩
theorem State.readChunk_kept (s : State) (agent va n : Nat) : Kept (s.readChunk agent va n).1 s := by
  unfold State.readChunk
  split
  · extract_lets w
    have h : Kept w.1 s := State.noteWalk_kept _ _
    split
    · exact h
    · exact (State.logFault_kept _ _ _ _).trans h
  · extract_lets w
    have h : Kept w.1 s := State.noteWalk_kept _ _
    split
    · exact h
    · have h1 : ∀ o, Kept (w.1.hold va o) s := fun o => (State.hold_kept _ _ _).trans h
      split
      · exact (State.noteHbm_kept _ _).trans (h1 _)
      · split
        · exact (State.noteWords_kept _ _ _).trans (h1 _)
        · exact (State.logFault_kept _ _ _ _).trans (h1 _)
      · split
        · exact (State.drawn_kept _).trans (h1 _)
        · split
          · exact (State.readFailed_kept _ _).trans ((State.drawn_kept _).trans (h1 _))
          · exact (State.drawn_kept _).trans (h1 _)
theorem State.readChunks_kept (s : State) (agent : Nat) (ps : List (Nat × Nat)) : Kept (s.readChunks agent ps).1 s := by
  induction ps generalizing s with
  | nil => exact Kept.refl _
  | cons p r ih =>
    obtain ⟨va, n⟩ := p
    simp only [State.readChunks]
    have h := State.readChunk_kept s agent va n
    split
    · next h1 => rw [h1] at h; exact h
    · next s1 _ h1 =>
      rw [h1] at h
      have e := (ih s1).trans h
      split
      · next h2 => rw [h2] at e; exact e
      · next h2 => rw [h2] at e; exact e
theorem State.noteRead_kept (s : State) (agent va n : Nat) : Kept (s.noteRead agent va n).1 s := State.readChunks_kept _ _ _
theorem State.meetParts_kept (s : State) (p : Place) (n : Nat) : Kept (s.meetParts p n) s := by
  unfold State.meetParts
  split
  · exact noteAll_kept _ _
  · exact Kept.refl _
theorem State.probeChunk_kept (s : State) (agent : Nat) (upd : Bool) (va n : Nat) : Kept (s.probeChunk agent upd va n).1 s := by
  unfold State.probeChunk
  split
  · extract_lets w
    have h : Kept w.1 s := State.noteWalk_kept _ _
    split
    · exact h
    · exact (State.logFault_kept _ _ _ _).trans h
  · extract_lets w
    have h : Kept w.1 s := State.noteWalk_kept _ _
    split
    · exact h
    · have h1 := fun p n => (State.meetParts_kept w.1 p n).trans h
      split
      · exact (State.stir_kept _ _).trans (h1 _ _)
      · split
        · exact h1 _ _
        · exact (State.logFault_kept _ _ _ _).trans (h1 _ _)
      · exact h1 _ _
theorem State.probeChunks_kept (s : State) (agent : Nat) (upd : Bool) (ps : List (Nat × Nat)) :
    Kept (s.probeChunks agent upd ps).1 s := by
  induction ps generalizing s with
  | nil => exact Kept.refl _
  | cons p r ih =>
    obtain ⟨va, n⟩ := p
    simp only [State.probeChunks]
    have h := State.probeChunk_kept s agent upd va n
    split
    · next h1 => rw [h1] at h; exact h
    · next h1 => rw [h1] at h; exact (ih _).trans h
theorem State.writeChunk_kept (s : State) (agent : Nat) (upd : Bool) (va : Nat) (bytes : List Byte) : Kept (s.writeChunk agent upd va bytes).1 s := by
  unfold State.writeChunk
  split
  · extract_lets w
    have h : Kept w.1 s := State.noteWalk_kept _ _
    split
    · exact h
    · exact (State.logFault_kept _ _ _ _).trans h
  · extract_lets w
    have h : Kept w.1 s := State.noteWalk_kept _ _
    split
    · exact h
    · exact (State.storeAt_kept _ _ _ _ _).trans ((State.meetParts_kept _ _ _).trans h)
theorem State.writeChunks_kept (s : State) (agent : Nat) (upd : Bool) (ps : List (Nat × Nat)) (bs : List Byte) : Kept (s.writeChunks agent upd ps bs).1 s := by
  induction ps generalizing s bs with
  | nil => exact Kept.refl _
  | cons p r ih =>
    obtain ⟨va, n⟩ := p
    simp only [State.writeChunks]
    have h := State.writeChunk_kept s agent upd va (bs.take n)
    split
    · next h1 => rw [h1] at h; exact h
    · next h1 => rw [h1] at h; exact (ih _ _).trans h
theorem State.noteWrite_kept (s : State) (agent : Nat) (upd : Bool) (va : Nat) (bytes : List Byte) :
    Kept (s.noteWrite agent upd va bytes).1 s := State.writeChunks_kept _ _ _ _ _
theorem State.notePut_kept (s : State) (agent va : Nat) (bytes : List Byte) : Kept (s.notePut agent va bytes) s :=
  State.noteWrite_kept _ _ _ _ _

/-! ## SEQ's writes and the halt -/

theorem State.writeBlock_kept (s : State) (p q : Nat) : Kept (s.writeBlock p q) s := by
  unfold State.writeBlock
  extract_lets s1
  split
  · exact State.modPair_kept _ _ _ _
  · exact (State.setHostBytes_kept _ _ _ _).trans ((State.modPair_kept _ _ _ _).trans ((State.tickTimer_kept _).trans
      (State.modPair_kept _ _ _ _)))
theorem State.mirrorBlocks_kept (s : State) : Kept s.mirrorBlocks s := by
  unfold State.mirrorBlocks
  exact foldl_kept _ _ _ fun s i => State.writeBlock_kept _ _ _
theorem State.writeStatus_kept (s : State) : Kept s.writeStatus s := by
  unfold State.writeStatus
  split
  · exact Kept.refl _
  · exact (State.mirrorBlocks_kept _).trans ((State.notePut_kept _ _ _ _).trans ((State.notePut_kept _ _ _ _).trans
      ((State.notePut_kept _ _ _ _).trans (State.notePut_kept _ _ _ _))))
theorem State.event_kept (s : State) (code arg : Nat) : Kept (s.event code arg) s := by
  unfold State.event
  split
  · exact Kept.refl _
  · exact (State.modSeq_kept _ _).trans (State.notePut_kept _ _ _ _)
theorem State.setSeqState_kept (s : State) (st : Nat) : Kept (s.setSeqState st) s := by unfold State.setSeqState; exact State.setFld_kept _ _ _ _ _
theorem State.setBucket_kept (s : State) (id : Nat) (b : Bucket) : Kept (s.setBucket id b) s := by
  unfold State.setBucket
  extract_lets s1
  split
  · exact State.modSeq_kept _ _
  · exact (State.notePut_kept _ _ _ _).trans ((State.notePut_kept _ _ _ _).trans (State.modSeq_kept _ _))
theorem State.modBucket_kept (s : State) (id : Nat) (f : Bucket → Bucket) : Kept (s.modBucket id f) s := by
  unfold State.modBucket
  split
  · exact Kept.refl _
  · exact State.setBucket_kept _ _ _
theorem State.eachBucket_kept (s : State) (f : State → Nat → State) (h : ∀ s b, Kept (f s b) s) : Kept (s.eachBucket f) s :=
  foldl_kept _ _ _ h
theorem State.clearKstat_kept (s : State) (id : Nat) : Kept (s.clearKstat id) s := by
  unfold State.clearKstat
  split
  · exact Kept.refl _
  · exact State.notePut_kept _ _ _ _
theorem State.hmRecord_kept (s : State) (p : Prog) (w0 w1 : Nat) : Kept (s.hmRecord p w0 w1) s := by
  unfold State.hmRecord
  split
  · exact Kept.refl _
  · exact (State.setFld_kept _ _ _ _ _).trans (State.notePut_kept _ _ _ _)
theorem State.control_kept (s : State) (p : Prog) (ty : BitVec 4) (dst : BitVec 16) (tag : Nat) (arg : Nat) (payload : List Byte) (step : Nat) (arg1 : Nat) : Kept (s.control p ty dst tag arg payload step arg1) s := by
  unfold State.control
  split
  · exact State.hmRecord_kept _ _ _ _
  · exact State.send_kept _ _
theorem State.message_kept (s : State) (cls : Nat) (dst : BitVec 16) (arg : Nat) : Kept (s.message cls dst arg) s := by
  unfold State.message
  dsimp only
  repeat' split
  exact State.send_kept _ _
theorem State.messageDown_kept (s : State) (p : Prog) (cls arg : Nat) : Kept (s.messageDown p cls arg) s := by
  unfold State.messageDown
  exact foldl_kept _ _ _ fun s w => State.message_kept s _ _ _
theorem State.haltHere_kept (s : State) (cause : Nat) (node : BitVec 16) : Kept (s.haltHere cause node) s := by
  unfold State.haltHere
  split
  · refine (State.writeStatus_kept _).trans ((State.event_kept _ _ _).trans ?_)
    exact (State.eachBucket_kept _ _ fun s b => State.modBucket_kept _ _ _).trans ((State.modSeq_kept _ _).trans
      ((State.setFld_kept _ _ _ _ _).trans (State.setSeqState_kept _ _)))
  · exact Kept.refl _
theorem State.halt_kept (s : State) (cause : Nat) (node : BitVec 16) : Kept (s.halt cause node) s := by
  unfold State.halt
  split
  · dsimp only
    split
    · exact State.haltHere_kept _ _ _
    · split
      · exact (State.modSeq_kept _ _).trans ((State.messageDown_kept _ _ _ _).trans (State.haltHere_kept _ _ _))
      · exact (State.message_kept _ _ _ _).trans (State.haltHere_kept _ _ _)
  · exact Kept.refl _

/-! ## The safe state and records -/

theorem State.enterSafe_kept (s : State) (source : Nat) : Kept (s.enterSafe source) s := by
  unfold State.enterSafe
  split
  · exact Kept.refl _
  · exact (State.setDevState_kept _ _).trans ((State.ledNow_kept _ _).trans ((State.raiseBoth_kept _ _).trans
      ((State.halt_kept _ _ _).trans ((State.tellPeers_kept _ _).trans
      ((State.setFld_kept _ _ _ _ _).trans (State.setFld_kept _ _ _ _ _))))))
theorem State.overflows_kept {t s : State} (h : Kept t s) : Kept (t.overflows s) s := by
  unfold State.overflows
  split
  · exact (State.enterSafe_kept _ _).trans h
  · exact h
theorem State.record_kept (s : State) (r : Rec) : Kept (s.record r) s := State.overflows_kept (State.note_kept _ _)
theorem State.fatal_kept (s : State) (r : Rec) : Kept (s.fatal r) s := by
  unfold State.fatal
  repeat' split
  all_goals exact (State.enterSafe_kept _ _).trans (State.record_kept _ _)
theorem State.lateDetection_kept (s : State) (step : Word) (bucket : Option Nat) : Kept (s.lateDetection step bucket) s := by
  unfold State.lateDetection
  extract_lets s1 s2 s3 own s4
  have h : Kept s3 s := (State.modSeq_kept _ _).trans ((State.ledNow_kept _ _).trans (State.record_kept _ _))
  exact (State.halt_kept _ _ _).trans ((foldl_kept _ _ _ fun s b => (State.event_kept _ _ _).trans (State.modBucket_kept _ _ _)).trans h)

/-! ## The retirement of a slot keeps the form -/

theorem foldl_wf {α : Type} (l : List α) (f : State → α → State) {s : State} (hs : Memory.wf s = true)
    (h : ∀ s x, Memory.wf s = true → Memory.wf (f s x) = true) : Memory.wf (l.foldl f s) = true := by
  induction l generalizing s with
  | nil => exact hs
  | cons x r ih => exact ih (h _ _ hs)

@[simp] theorem setReg_wf (s : State) (r : Reg) (i j : Nat) (v : Word) : Memory.wf (s.setReg r i j v) = Memory.wf s :=
  Memory.wf_congr rfl rfl rfl

@[simp] theorem setFld_wf (s : State) (f : Field) (v i j : Nat) : Memory.wf (s.setFld f v i j) = Memory.wf s :=
  Memory.wf_congr rfl rfl rfl

@[simp] theorem modCore_wf (s : State) (c : Nat) (f : Core → Core) : Memory.wf (s.modCore c f) = Memory.wf s :=
  Memory.wf_congr rfl rfl rfl

@[simp] theorem modSlot_wf (s : State) (p : Nat) (f : Slot → Slot) : Memory.wf (s.modSlot p f) = Memory.wf s :=
  Memory.wf_congr rfl rfl rfl

@[simp] theorem modSaf_wf (s : State) (f : Saf → Saf) : Memory.wf (s.modSaf f) = Memory.wf s := Memory.wf_congr rfl rfl rfl

@[simp] theorem modSeq_wf (s : State) (f : Seq → Seq) : Memory.wf (s.modSeq f) = Memory.wf s := Memory.wf_congr rfl rfl rfl

@[simp] theorem owe_wf (s : State) (r : Nat) : Memory.wf (s.owe r) = Memory.wf s := by
  unfold State.owe
  split
  · exact modSeq_wf _ _
  · rfl

theorem ite_wf {p : Prop} [Decidable p] {a b : State} (ha : Memory.wf a = true) (hb : Memory.wf b = true) :
    Memory.wf (if p then a else b) = true := by split <;> assumption

theorem cellarChanged_wf {s : State} (h : Memory.wf s = true) : Memory.wf s.cellarChanged = true :=
  (State.cellarChanged_kept s).wf h

theorem endRotation_wf {s : State} (h : Memory.wf s = true) (q : Nat) : Memory.wf (s.endRotation q) = true := by
  unfold State.endRotation
  split
  · exact foldl_wf _ _ ((setFld_wf _ _ _ _ _).trans h) fun s i hs => (modCore_wf _ _ _).trans hs
  · exact h

theorem carryStreams_wf {s : State} (h : Memory.wf s = true) (p q : Nat) : Memory.wf (s.carryStreams p q) = true := by
  unfold State.carryStreams
  exact foldl_wf _ _ ((setReg_wf _ _ _ _ _).trans h) fun s i hs => foldl_wf _ _ hs fun s r hr => (setReg_wf _ _ _ _ _).trans hr

theorem placeCore_wf {s : State} (h : Memory.wf s = true) (c p : Nat) : Memory.wf (s.placeCore c p) = true := by
  unfold State.placeCore
  dsimp only
  rw [modSaf_wf, modCore_wf, modSlot_wf, State.setCoreSlot, setFld_wf]
  split
  · exact h
  · exact carryStreams_wf h _ _

theorem loseCore_wf {s : State} (h : Memory.wf s = true) (c p source : Nat) : Memory.wf (s.loseCore c p source) = true := by
  unfold State.loseCore
  extract_lets s1 s2 last s3 s4
  have h1 : Memory.wf s1 = true := (setFld_wf _ _ _ _ _).trans h
  have h2 : Memory.wf s2 = true := (modSaf_wf _ _).trans ((modCore_wf _ _ _).trans h1)
  have h3 : Memory.wf s3 = true := (State.record_kept s2 _).wf h2
  exact cellarChanged_wf (ite_wf ((State.halt_kept _ _ _).wf h3) h3)

theorem seekSlot_wf {s : State} (h : Memory.wf s = true) (c source : Nat) : Memory.wf (s.seekSlot c source) = true := by
  have hw : Memory.wf (if s.saf.waitingCores.contains c then s
      else s.modSaf fun x => { x with waitingCores := x.waitingCores ++ [c] }) = true := by
    split
    · exact h
    · exact (modSaf_wf _ _).trans h
  have hp : Memory.wf (s.placeCore c (s.phys c)).cellarChanged = true := cellarChanged_wf (placeCore_wf h _ _)
  have hs : ∀ (u : State) (q : Nat) (o : Option Nat), Memory.wf u = true → Memory.wf (u.setSpare q o) = true :=
    fun u q o hu => by unfold State.setSpare; exact (setFld_wf _ _ _ _ _).trans hu
  unfold State.seekSlot
  dsimp only
  split
  · split
    · exact cellarChanged_wf (hs _ _ _ (placeCore_wf (endRotation_wf h _) _ _))
    · split
      · exact hw
      · split
        · exact hp
        · exact loseCore_wf h _ _ _
  · split
    · exact hw
    · split
      · exact hp
      · exact loseCore_wf h _ _ _

theorem itemStatus_wf {s : State} (h : Memory.wf s = true) (c cnt st : Nat) : Memory.wf (s.itemStatus c cnt st) = true := by
  exact (modSeq_wf _ _).trans h

theorem stopCore_wf {s : State} (h : Memory.wf s = true) (c : Nat) : Memory.wf (s.stopCore c) = true := by
  unfold State.stopCore
  extract_lets items x s1 s2
  have h1 : Memory.wf s1 = true := (modCore_wf _ _ _).trans h
  exact foldl_wf _ _ (ite_wf ((owe_wf _ _).trans h1) h1) fun s i hs => itemStatus_wf hs _ _ _

theorem retire_wf {s : State} (h : Memory.wf s = true) (p source : Nat) : Memory.wf (s.retire p source) = true := by
  have h1 : Memory.wf (s.setRetired p) = true := (setFld_wf _ _ _ _ _).trans h
  exact (modSaf_wf _ _).trans h1

theorem coreOut_wf {s : State} (h : Memory.wf s = true) (c : Nat) (retire : Bool) (source : Nat) :
    Memory.wf (s.coreOut c retire source) = true := by
  unfold State.coreOut
  extract_lets own s1 s2 s3 s4
  have h1 : Memory.wf s1 = true := ite_wf (endRotation_wf h _) h
  have h2 : Memory.wf s2 = true := (modCore_wf _ _ _).trans (stopCore_wf h1 c)
  have h3 : Memory.wf s3 = true := (modSlot_wf _ _ _).trans h2
  exact seekSlot_wf (ite_wf (cellarChanged_wf (retire_wf h3 _ _)) h3) _ _

theorem retireSlot_wf {s : State} (h : Memory.wf s = true) (p source : Nat) : Memory.wf (s.retireSlot p source) = true := by
  unfold State.retireSlot
  split
  · exact h
  · split
    · split
      · exact seekSlot_wf (cellarChanged_wf (retire_wf h _ _)) _ _
      · exact coreOut_wf h _ _ _
    · have h1 := retire_wf h p source
      have h2 : Memory.wf ((s.retire p source).setSpare (p / 5) none) = true := (setFld_wf _ _ _ _ _).trans h1
      exact cellarChanged_wf (ite_wf h2 h1)

theorem clusterOut_wf {s : State} (h : Memory.wf s = true) (q : Nat) : Memory.wf (s.clusterOut q) = true := by
  unfold State.clusterOut
  extract_lets s1 s2 s3
  have h1 : Memory.wf s1 = true := foldl_wf _ _ h fun s i hs => (modCore_wf _ _ _).trans (stopCore_wf hs _)
  have h2 : Memory.wf s2 = true := foldl_wf _ _ h1 fun s i hs => (modSlot_wf _ _ _).trans hs
  have h3 : Memory.wf (s2.setSpare q none) = true := (setFld_wf _ _ _ _ _).trans h2
  have h4 : Memory.wf (s2.setSpare q none).showCellar = true := (State.showCellar_kept _).wf h3
  have h5 : Memory.wf s3 = true := (setFld_wf _ _ _ _ _).trans ((setFld_wf _ _ _ _ _).trans ((setFld_wf _ _ _ _ _).trans h4))
  exact (modSaf_wf _ _).trans h5

theorem coreError_wf {s : State} (h : Memory.wf s = true) (c source : Nat) : Memory.wf (s.coreError c source) = true := by
  unfold State.coreError
  split
  · exact (State.enterSafe_kept _ _).wf h
  · split
    · exact clusterOut_wf h _
    · exact coreOut_wf h _ _ _

theorem wordLost_wf {s : State} (h : Memory.wf s = true) (p : Nat) : Memory.wf (s.wordLost p) = true := by
  unfold State.wordLost
  split
  · split
    · exact retireSlot_wf h _ _
    · exact coreError_wf (cellarChanged_wf (retire_wf h _ _)) _ _
  · exact retireSlot_wf h _ _

/-! ## Reads and writes of an agent -/

/-- What a step leaves of a state that may retire slots: the memories keep their canonical form, and where no word of core SRAM is in
error, the units are as they were. -/
structure Tended (t s : State) : Prop where
  units : s.saf.sram = [] → t.units = s.units
  wf : Memory.wf s = true → Memory.wf t = true
  clean : s.saf.sram = [] → t.saf.sram = []

theorem Kept.tended {t s : State} (h : Kept t s) : Tended t s := ⟨fun _ => h.units, h.wf, h.clean⟩

theorem Tended.refl (s : State) : Tended s s := (Kept.refl s).tended

theorem Tended.trans {t u s : State} (h1 : Tended t u) (h2 : Tended u s) : Tended t s :=
  ⟨fun h => (h1.units (h2.clean h)).trans (h2.units h), fun h => h1.wf (h2.wf h), fun h => h1.clean (h2.clean h)⟩

/-- What reads have met takes effect: nothing of it where no word of core SRAM is in error. -/
theorem State.tended_tended {t s : State} (h : Kept t s) : Tended (t.tended s) s := by
  have hu := State.overflows_kept h
  unfold State.tended
  extract_lets u
  split
  · exact hu.tended
  · next hl =>
    have hne : s.saf.sram ≠ [] := fun e => hl (by simp [State.lostSlots, h.clean e])
    exact ⟨fun e => absurd e hne, fun hs => foldl_wf _ _ (hu.wf hs) fun s p hw => wordLost_wf hw p, fun e => absurd e hne⟩

theorem State.corrected_tended (s : State) (u : Nat) : Tended (s.corrected u) s := State.tended_tended (State.noteCorrected_kept _ _)
theorem State.uncorrectable_tended (s : State) (u : Nat) : Tended (s.uncorrectable u) s :=
  State.tended_tended (State.noteUncorrectable_kept _ _)
theorem State.meet_tended (s : State) (u : Nat) (found : ScrubResult) : Tended (s.meet u found) s :=
  State.tended_tended (State.noteMeet_kept _ _ _)
theorem State.meetUnit_tended (s : State) (u : Nat) : Tended (s.meetUnit u) s := State.tended_tended (State.noteUnit_kept _ _)
theorem State.readHbm_tended (s : State) (ks : List Nat) : Tended (s.readHbm ks).1 s := State.tended_tended (State.noteHbm_kept _ _)
theorem State.readWalk_tended (s : State) (reads : List Nat) : Tended (s.readWalk reads).1 s :=
  State.tended_tended (State.noteWalk_kept _ _)
theorem State.walkRanges_tended (s : State) (l : List (Acc × Nat × Nat)) : Tended (s.walkRanges l).1 s := State.readWalk_tended _ _
theorem State.meetWords_tended (s : State) (c : Nat) (spans : List (Nat × Nat)) : Tended (s.meetWords c spans).1 s :=
  State.tended_tended (State.noteWords_kept _ _ _)
theorem State.probe_tended (s : State) (agent : Nat) (upd : Bool) (va n : Nat) : Tended (s.probe agent upd va n).1 s :=
  State.tended_tended (State.probeChunks_kept _ _ _ _)
theorem State.write_tended (s : State) (agent : Nat) (upd : Bool) (va : Nat) (bytes : List Byte) :
    Tended (s.write agent upd va bytes).1 s := State.tended_tended (State.noteWrite_kept _ _ _ _ _)
theorem State.put_tended (s : State) (agent va : Nat) (bytes : List Byte) : Tended (s.put agent va bytes) s :=
  State.write_tended _ _ _ _ _
theorem State.read_tended (s : State) (agent va n : Nat) : Tended (s.read agent va n).1 s :=
  State.tended_tended (State.noteRead_kept _ _ _ _)
theorem State.readWords_tended (s : State) (agent va k : Nat) : Tended (s.readWords agent va k).1 s := by
  have h := State.read_tended s agent va (8 * k)
  unfold State.readWords
  split
  · next h1 => rw [h1] at h; exact h
  · next h1 => rw [h1] at h; exact h

/-- Reading local bytes changes nothing where none of their words is in error and no slot waits to leave service. -/
theorem meetWords_quiet {s : State} {c : Nat} {spans : List (Nat × Nat)}
    (h : (s.saf.sram.filter fun e => e.1 / 2 ^ 21 == s.phys c &&
      spans.any fun (o, n) => decide (e.1 % 2 ^ 21 * 8 < o + n ∧ o < e.1 % 2 ^ 21 * 8 + 8)) = []) (hl : s.lostSlots = []) :
    s.meetWords c spans = (s, true, false) := by
  have h1 : s.noteWords c spans = (s, true, false) := by unfold State.noteWords; dsimp only; rw [h]; rfl
  simp [State.meetWords, h1, State.tended, State.overflows, hl]

/-- With no word of core SRAM in error, reading local bytes changes nothing. -/
theorem meetWords_clean {s : State} (h : s.saf.sram = []) (c : Nat) (spans : List (Nat × Nat)) :
    s.meetWords c spans = (s, true, false) := by
  have h1 : s.noteWords c spans = (s, true, false) := by simp [State.noteWords, h]
  simp [State.meetWords, h1, State.tended, State.overflows, State.lostSlots, h]

/-! ## The units -/

@[simp] theorem State.setReg_units (s : State) (r : Reg) (i j : Nat) (v : Word) : (s.setReg r i j v).units = s.units := (State.setReg_kept s r i j v).units
@[simp] theorem State.setFld_units (s : State) (f : Field) (v i j : Nat) : (s.setFld f v i j).units = s.units := (State.setFld_kept s f v i j).units
@[simp] theorem State.drawn_units (s : State) : s.drawn.units = s.units := (State.drawn_kept s).units
@[simp] theorem State.emit_units (s : State) (o : Out) : (s.emit o).units = s.units := (State.emit_kept s o).units
@[simp] theorem State.modNet_units (s : State) (f : LinkNet → LinkNet) : (s.modNet f).units = s.units := (State.modNet_kept s f).units
@[simp] theorem State.modLink_units (s : State) (l : Nat) (f : Link → Link) : (s.modLink l f).units = s.units := (State.modLink_kept s l f).units
@[simp] theorem State.modSeq_units (s : State) (f : Seq → Seq) : (s.modSeq f).units = s.units := (State.modSeq_kept s f).units
@[simp] theorem State.modSaf_units (s : State) (f : Saf → Saf) : (s.modSaf f).units = s.units := by cases s; rfl
@[simp] theorem State.modPwr_units (s : State) (f : Pwr → Pwr) : (s.modPwr f).units = s.units := (State.modPwr_kept s f).units
@[simp] theorem State.modNd_units (s : State) (f : Ndomir → Ndomir) : (s.modNd f).units = s.units := (State.modNd_kept s f).units
@[simp] theorem State.modHbm_units (s : State) (f : Hbm → Hbm) : (s.modHbm f).units = s.units := by cases s; rfl
@[simp] theorem State.count_units (s : State) (f : Field) (k : Nat) (i : Nat) (j : Nat) : (s.count f k i j).units = s.units := (State.count_kept s f k i j).units
@[simp] theorem State.tickTimer_units (s : State) : s.tickTimer.units = s.units := (State.tickTimer_kept s).units
@[simp] theorem State.sendMsix_units (s : State) (p cause : Nat) : (s.sendMsix p cause).units = s.units := (State.sendMsix_kept s p cause).units
@[simp] theorem State.raiseAlert_units (s : State) (p cause : Nat) : (s.raiseAlert p cause).units = s.units := (State.raiseAlert_kept s p cause).units
@[simp] theorem State.raiseBoth_units (s : State) (cause : Nat) : (s.raiseBoth cause).units = s.units := (State.raiseBoth_kept s cause).units
@[simp] theorem State.setHbmByte_units (s : State) (k : Nat) (v : Byte) : (s.setHbmByte k v).units = s.units := (State.setHbmByte_kept s k v).units
@[simp] theorem State.hold_units (s : State) (va : Nat) (o : Option (DWord × Nat)) : (s.hold va o).units = s.units := (State.hold_kept s va o).units
@[simp] theorem State.logFault_units (s : State) (agent cause va : Nat) : (s.logFault agent cause va).units = s.units := (State.logFault_kept s agent cause va).units
@[simp] theorem State.setLocalByte_units (s : State) (c off : Nat) (v : Byte) : (s.setLocalByte c off v).units = s.units := (State.setLocalByte_kept s c off v).units
@[simp] theorem State.setLocalBytes_units (s : State) (c : Nat) (off : Nat) (bs : List Byte) : (s.setLocalBytes c off bs).units = s.units := (State.setLocalBytes_kept s c off bs).units
@[simp] theorem State.setHostByte_units (s : State) (port bus : Nat) (v : Byte) : (s.setHostByte port bus v).units = s.units := (State.setHostByte_kept s port bus v).units
@[simp] theorem State.setHostBytes_units (s : State) (port : Nat) (off : Nat) (bs : List Byte) : (s.setHostBytes port off bs).units = s.units := (State.setHostBytes_kept s port off bs).units
@[simp] theorem State.hostWrote_units (s : State) (hw : List HostWrite) : (s.hostWrote hw).units = s.units := (State.hostWrote_kept s hw).units
@[simp] theorem State.setHbmBytes_units (s : State) (ks : List Nat) (bs : List Byte) : (s.setHbmBytes ks bs).units = s.units := (State.setHbmBytes_kept s ks bs).units
@[simp] theorem State.orReg_units (s : State) (r : Reg) (i : Nat) (v : Nat) : (s.orReg r i v).units = s.units := (State.orReg_kept s r i v).units
@[simp] theorem State.raiseVec_units (s : State) (c : Nat) (f : Flags) : (s.raiseVec c f).units = s.units := (State.raiseVec_kept s c f).units
@[simp] theorem State.raiseEng_units (s : State) (c : Nat) (e : Eng) (f : Flags) : (s.raiseEng c e f).units = s.units := (State.raiseEng_kept s c e f).units
@[simp] theorem State.raiseMse_units (s : State) (k : Nat) (f : Flags) : (s.raiseMse k f).units = s.units := (State.raiseMse_kept s k f).units
@[simp] theorem State.flush_units (s : State) (l : Nat) : (s.flush l).units = s.units := (State.flush_kept s l).units
@[simp] theorem State.leave_units (s : State) (p : Packet) : (s.leave p).units = s.units := (State.leave_kept s p).units
@[simp] theorem State.respond_units (s : State) (p : Packet) : (s.respond p).units = s.units := (State.respond_kept s p).units
@[simp] theorem State.lose_units (s : State) (p : Packet) (l : Nat) : (s.lose p l).units = s.units := (State.lose_kept s p l).units
@[simp] theorem State.forward_units (s : State) (p : Packet) : (s.forward p).units = s.units := (State.forward_kept s p).units
@[simp] theorem State.inject_units (s : State) (p : Packet) (pin : Option Route) (pinned : Bool) (flow : Nat) :
    (s.inject p pin pinned flow).1.units = s.units := (State.inject_kept s p pin pinned flow).units
@[simp] theorem State.send_units (s : State) (p : Packet) : (s.send p).units = s.units := (State.send_kept s p).units
@[simp] theorem State.readResp_units (s : State) (dst : Nat) (tag : BitVec 16) (status : Nat) (data : List Byte) : (s.readResp dst tag status data).units = s.units := (State.readResp_kept s dst tag status data).units
@[simp] theorem State.tellPeers_units (s : State) (es : List (List Byte)) : (s.tellPeers es).units = s.units := (State.tellPeers_kept s es).units
@[simp] theorem State.tellLink_units (s : State) (l : Nat) : (s.tellLink l).units = s.units := (State.tellLink_kept s l).units
@[simp] theorem State.writeHbm_units (s : State) (pa : Nat) (bytes : List Byte) : (s.writeHbm pa bytes).1.units = s.units := (State.writeHbm_kept s pa bytes).units
@[simp] theorem State.writeChunk_units (s : State) (agent : Nat) (upd : Bool) (va : Nat) (bytes : List Byte) : (s.writeChunk agent upd va bytes).1.units = s.units := (State.writeChunk_kept s agent upd va bytes).units
@[simp] theorem State.writeChunks_units (s : State) (agent : Nat) (upd : Bool) (ps : List (Nat × Nat)) (bs : List Byte) : (s.writeChunks agent upd ps bs).1.units = s.units := (State.writeChunks_kept s agent upd ps bs).units
@[simp] theorem State.write_units {s : State} (h : s.saf.sram = []) (agent : Nat) (upd : Bool) (va : Nat) (bytes : List Byte) : (s.write agent upd va bytes).1.units = s.units := (State.write_tended s agent upd va bytes).units h
@[simp] theorem State.put_units {s : State} (h : s.saf.sram = []) (agent va : Nat) (bytes : List Byte) : (s.put agent va bytes).units = s.units := (State.put_tended s agent va bytes).units h
@[simp] theorem State.writeStatus_units (s : State) : s.writeStatus.units = s.units := (State.writeStatus_kept s).units
@[simp] theorem State.event_units (s : State) (code arg : Nat) : (s.event code arg).units = s.units := (State.event_kept s code arg).units
@[simp] theorem State.setSeqState_units (s : State) (st : Nat) : (s.setSeqState st).units = s.units := (State.setSeqState_kept s st).units
@[simp] theorem State.setBucket_units (s : State) (id : Nat) (b : Bucket) : (s.setBucket id b).units = s.units := (State.setBucket_kept s id b).units
@[simp] theorem State.modBucket_units (s : State) (id : Nat) (f : Bucket → Bucket) : (s.modBucket id f).units = s.units := (State.modBucket_kept s id f).units
@[simp] theorem State.clearKstat_units (s : State) (id : Nat) : (s.clearKstat id).units = s.units := (State.clearKstat_kept s id).units
@[simp] theorem State.hmRecord_units (s : State) (p : Prog) (w0 w1 : Nat) : (s.hmRecord p w0 w1).units = s.units := (State.hmRecord_kept s p w0 w1).units
@[simp] theorem State.control_units (s : State) (p : Prog) (ty : BitVec 4) (dst : BitVec 16) (tag : Nat) (arg : Nat) (payload : List Byte) (step : Nat) (arg1 : Nat) : (s.control p ty dst tag arg payload step arg1).units = s.units := (State.control_kept s p ty dst tag arg payload step arg1).units
@[simp] theorem State.message_units (s : State) (cls : Nat) (dst : BitVec 16) (arg : Nat) : (s.message cls dst arg).units = s.units := (State.message_kept s cls dst arg).units
@[simp] theorem State.messageDown_units (s : State) (p : Prog) (cls arg : Nat) : (s.messageDown p cls arg).units = s.units := (State.messageDown_kept s p cls arg).units
@[simp] theorem State.haltHere_units (s : State) (cause : Nat) (node : BitVec 16) : (s.haltHere cause node).units = s.units := (State.haltHere_kept s cause node).units
@[simp] theorem State.halt_units (s : State) (cause : Nat) (node : BitVec 16) : (s.halt cause node).units = s.units := (State.halt_kept s cause node).units
@[simp] theorem State.mgtAlert_units (s : State) (bit : Nat) : (s.mgtAlert bit).units = s.units := (State.mgtAlert_kept s bit).units
@[simp] theorem State.raiseIbi_units (s : State) : s.raiseIbi.units = s.units := (State.raiseIbi_kept s).units
@[simp] theorem State.sendEvent_units (s : State) : s.sendEvent.units = s.units := (State.sendEvent_kept s).units
@[simp] theorem State.setEvents_units (s : State) (q : List Event) : (s.setEvents q).units = s.units := (State.setEvents_kept s q).units
@[simp] theorem State.queueEvent_units (s : State) (e : Event) : (s.queueEvent e).units = s.units := (State.queueEvent_kept s e).units
@[simp] theorem State.setDevState_units (s : State) (v : Nat) : (s.setDevState v).units = s.units := (State.setDevState_kept s v).units
@[simp] theorem State.setThrottleState_units (s : State) (v : Nat) : (s.setThrottleState v).units = s.units := (State.setThrottleState_kept s v).units
@[simp] theorem State.logEntry_units (s : State) (e : LogEntry) : (s.logEntry e).units = s.units := (State.logEntry_kept s e).units
@[simp] theorem State.writeLog_units (s : State) : s.writeLog.units = s.units := (State.writeLog_kept s).units
@[simp] theorem State.led_units (s : State) (f : Ledger → Ledger) : (s.led f).units = s.units := (State.led_kept s f).units
@[simp] theorem State.lifeRegs_units (s : State) : s.lifeRegs.units = s.units := (State.lifeRegs_kept s).units
@[simp] theorem State.writeLedger_units (s : State) : s.writeLedger.units = s.units := (State.writeLedger_kept s).units
@[simp] theorem State.ledNow_units (s : State) (f : Ledger → Ledger) : (s.ledNow f).units = s.units := (State.ledNow_kept s f).units
@[simp] theorem State.writeConfigWith_units (s : State) (wipe : Option Nat) : (s.writeConfigWith wipe).units = s.units := (State.writeConfigWith_kept s wipe).units
@[simp] theorem State.writeConfig_units (s : State) : s.writeConfig.units = s.units := (State.writeConfig_kept s).units
@[simp] theorem State.showCellar_units (s : State) : s.showCellar.units = s.units := (State.showCellar_kept s).units
@[simp] theorem State.cellarChanged_units (s : State) : s.cellarChanged.units = s.units := (State.cellarChanged_kept s).units
@[simp] theorem State.enterSafe_units (s : State) (source : Nat) : (s.enterSafe source).units = s.units := (State.enterSafe_kept s source).units
@[simp] theorem State.putEntry_units (s : State) (e : Nat) (bytes : List Byte) : (s.putEntry e bytes).units = s.units := (State.putEntry_kept s e bytes).units
@[simp] theorem State.putRecord_units (s : State) (r : Rec) : (s.putRecord r).units = s.units := (State.putRecord_kept s r).units
@[simp] theorem State.putOverflow_units (s : State) : s.putOverflow.units = s.units := (State.putOverflow_kept s).units
@[simp] theorem State.record_units (s : State) (r : Rec) : (s.record r).units = s.units := (State.record_kept s r).units
@[simp] theorem State.fatal_units (s : State) (r : Rec) : (s.fatal r).units = s.units := (State.fatal_kept s r).units
@[simp] theorem State.lateDetection_units (s : State) (step : Word) (bucket : Option Nat) : (s.lateDetection step bucket).units = s.units := (State.lateDetection_kept s step bucket).units
@[simp] theorem State.corrected_units {s : State} (h : s.saf.sram = []) (u : Nat) : (s.corrected u).units = s.units := (State.corrected_tended s u).units h
@[simp] theorem State.uncorrectable_units {s : State} (h : s.saf.sram = []) (u : Nat) : (s.uncorrectable u).units = s.units := (State.uncorrectable_tended s u).units h
@[simp] theorem State.meet_units {s : State} (h : s.saf.sram = []) (u : Nat) (found : ScrubResult) : (s.meet u found).units = s.units := (State.meet_tended s u found).units h
@[simp] theorem State.meetUnit_units {s : State} (h : s.saf.sram = []) (u : Nat) : (s.meetUnit u).units = s.units := (State.meetUnit_tended s u).units h
@[simp] theorem State.readHbm_units {s : State} (h : s.saf.sram = []) (ks : List Nat) : (s.readHbm ks).1.units = s.units := (State.readHbm_tended s ks).units h
@[simp] theorem State.readWalk_units {s : State} (h : s.saf.sram = []) (reads : List Nat) : (s.readWalk reads).1.units = s.units := (State.readWalk_tended s reads).units h
@[simp] theorem State.readChunk_units (s : State) (agent va n : Nat) : (s.readChunk agent va n).1.units = s.units := (State.readChunk_kept s agent va n).units
@[simp] theorem State.readChunks_units (s : State) (agent : Nat) (ps : List (Nat × Nat)) : (s.readChunks agent ps).1.units = s.units := (State.readChunks_kept s agent ps).units
@[simp] theorem State.read_units {s : State} (h : s.saf.sram = []) (agent va n : Nat) : (s.read agent va n).1.units = s.units := (State.read_tended s agent va n).units h
@[simp] theorem State.readWords_units {s : State} (h : s.saf.sram = []) (agent va k : Nat) : (s.readWords agent va k).1.units = s.units := (State.readWords_tended s agent va k).units h
@[simp] theorem State.notePut_units (s : State) (agent va : Nat) (bytes : List Byte) : (s.notePut agent va bytes).units = s.units := (State.notePut_kept s agent va bytes).units
@[simp] theorem State.mirrorBlocks_units (s : State) : (s.mirrorBlocks).units = s.units := (State.mirrorBlocks_kept s).units
@[simp] theorem State.note_units (s : State) (r : Rec) : (s.note r).units = s.units := (State.note_kept s r).units
@[simp] theorem State.announce_units (s : State) (md : Medium) : (s.announce md).units = s.units := (State.announce_kept s md).units
@[simp] theorem State.tell_units (s : State) (e : Event) : (s.tell e).units = s.units := (State.tell_kept s e).units
@[simp] theorem State.stir_units (s : State) (ks : List Nat) : (s.stir ks).units = s.units := (State.stir_kept s ks).units
@[simp] theorem State.aerError_units (s : State) (p bit : Nat) (answered : Bool) : (s.aerError p bit answered).units = s.units := (State.aerError_kept s p bit answered).units
@[simp] theorem State.readFailed_units (s : State) (p : Nat) : (s.readFailed p).units = s.units := (State.readFailed_kept s p).units
@[simp] theorem State.meetWords_units {s : State} (h : s.saf.sram = []) (c : Nat) (spans : List (Nat × Nat)) : (s.meetWords c spans).1.units = s.units := (State.meetWords_tended s c spans).units h

/-! ## The canonical form -/

/-- A write at a VA keeps the form. -/
theorem write_wf {s : State} (h : Memory.wf s = true) (agent : Nat) (upd : Bool) (va : Nat) (bytes : List Byte) :
    Memory.wf (s.write agent upd va bytes).1 = true := (State.write_tended s agent upd va bytes).wf h

theorem put_wf {s : State} (h : Memory.wf s = true) (agent va : Nat) (bytes : List Byte) :
    Memory.wf (s.put agent va bytes) = true := (State.put_tended s agent va bytes).wf h

/-- A read at a VA keeps the form. -/
theorem read_wf {s : State} (h : Memory.wf s = true) (agent va n : Nat) : Memory.wf (s.read agent va n).1 = true :=
  (State.read_tended s agent va n).wf h

/-- A group is what it was where the cores are. -/
theorem group_of_units {s t : State} (h : t.units = s.units) (c g : Nat) : t.group c g = s.group c g := by
  have : t.cores = s.cores := congrArg Prod.fst h
  simp only [State.group, State.core, this]

/-- An update of a core that keeps its groups. -/
theorem group_modCore (s : State) (c : Nat) (f : Core → Core) (hf : ∀ k, (f k).groups = k.groups) (c' g' : Nat) :
    (s.modCore c f).group c' g' = s.group c' g' := by
  by_cases hc : c' = c
  · subst hc
    by_cases hl : c' < s.cores.length
    · simp [State.group, State.core, State.modCore, nth, List.getD_eq_getElem?_getD, hl, hf]
    · simp only [State.modCore]; rw [List.modify_eq_self (by omega)]
  · simp [State.group, State.core, State.modCore, nth, List.getD_eq_getElem?_getD, Ne.symm hc]

theorem cacheCode_group (s : State) (c pc : Nat) (v : DWord) (c' g' : Nat) :
    (s.cacheCode c pc v).group c' g' = s.group c' g' := by
  unfold State.cacheCode
  dsimp only
  split
  · exact (group_of_units (State.drawn_units _) c' g').trans (group_modCore _ _ _ (by simp) _ _)
  · exact group_modCore _ _ _ (by simp) _ _

theorem fetchHbm_group {s : State} (hs : s.saf.sram = []) (c pc c' g' : Nat) :
    (s.fetchHbm c pc).1.group c' g' = s.group c' g' := by
  have e := group_of_units ((State.read_tended s c pc 8).units hs) c' g'
  unfold State.fetchHbm
  split
  · exact group_of_units (State.logFault_units _ _ _ _) c' g'
  · split
    · rfl
    · split
      · next h => rw [h] at e; exact e
      · next _ h => rw [h] at e; exact e
      · next h => rw [h] at e; exact (cacheCode_group _ _ _ _ _ _).trans e

theorem cacheRead_clean {s : State} (hs : s.saf.sram = []) (c pc : Nat) (v : DWord) : s.cacheRead c pc v = (s, .ok v) := by
  simp [State.cacheRead, meetWords_clean hs]

/-- A fetch changes no group where no word of core SRAM is in error. -/
theorem fetch_group {s : State} (hs : s.saf.sram = []) (c : Nat) (pc : BitVec 48) (w : DWord) (c' g' : Nat) :
    (s.fetch c pc w).1.group c' g' = s.group c' g' := by
  have hd : s.drawn.saf.sram = [] := hs
  have e : (s.fetchWord c pc.toNat).1.group c' g' = s.group c' g' := by
    unfold State.fetchWord
    split
    · exact fetchHbm_group hs _ _ _ _
    · split
      · rw [cacheRead_clean hs]
      · split
        · rw [cacheRead_clean hd]; exact group_of_units (State.drawn_units _) c' g'
        · exact (fetchHbm_group hd _ _ _ _).trans (group_of_units (State.drawn_units _) c' g')
  unfold State.fetch
  split
  · next h => rw [h] at e; exact e
  · next h =>
    rw [h] at e
    split
    · exact e
    · split
      · rfl
      · exact e

/-- A word that the cache and the code in HBM agree on is fetched, and nothing changes, where the cache word is not in error
(R204). -/
theorem fetch_cached {s : State} {c : Nat} {pc : BitVec 48} {w : DWord}
    (hs : s.meetWords c [(8 * cacheWord pc.toNat, 8)] = (s, true, false))
    (h1 : Sparse.find (s.core c).icache (pc.toNat / 8) = some w) (h2 : s.codeWord pc.toNat = some w) :
    s.fetch c pc w = (s, none) := by
  simp [State.fetch, State.fetchWord, h1, h2, State.cacheRead, hs]

/-- A stream that alone asks for the slot is picked, whatever its weight (R211). -/
theorem pickStream_alone (w : Stream → Nat) (st : Stream) (cr : List Int) :
    pickStream w ([Stream.b, .f, .u].filter (· == st)) cr = some st := by
  cases st
  · by_cases h : w .b = 0 <;> simp [pickStream, h]
  · by_cases h : w .f = 0 <;> simp [pickStream, h]
  · by_cases h : w .u = 0 <;> simp [pickStream, h]

/-- The oldest of the groups that can run, all of one stream, takes the slot; nothing changes but the free values that say which of
the others were ready, where it has run before and its stream's credit is even (R211). -/
theorem grant_first {s : State} {c g opc : Nat} {x : Group}
    (hr : ∀ e ∈ (s.core c).groups, e.1 ≠ g → e.2.state = .running → e.2.killed = false → e.2.stream = x.stream ∧ x.older e.2 = true)
    (hc : (s.core c).credit = charged (s.weight c) ([Stream.b, .f, .u].filter (· == x.stream)) x.stream (s.core c).credit)
    (hl : (s.core c).lastIssue = if endsStep.contains opc then none else some g) (hn : c < s.cores.length) :
    ∃ s0, s.grant c g opc x = some s0 ∧ (s0 = s ∨ s0 = s.drawn) := by
  have hv : ∀ e ∈ s.rivals c g, e.2.stream = x.stream ∧ x.older e.2 = true := by
    intro e he
    simp only [State.rivals, List.mem_filter, Bool.and_eq_true, bne_iff_ne, ne_eq, beq_iff_eq, Bool.not_eq_true'] at he
    exact hr e he.1 he.2.1.1.1 he.2.1.1.2 he.2.1.2
  have hs : [Stream.b, .f, .u].filter (fun p => p == x.stream || (s.rivals c g).any fun e => e.2.stream == p) =
      [Stream.b, .f, .u].filter (· == x.stream) := by
    apply List.filter_congr
    intro p _
    by_cases hp : p = x.stream
    · simp [hp]
    · have : ((s.rivals c g).any fun e => e.2.stream == p) = false := by
        rw [List.any_eq_false]
        intro e he h
        exact hp ((beq_iff_eq.mp h).symm.trans (hv e he).1)
      simp [this]
  have e : s.takeSlot c g opc ([Stream.b, .f, .u].filter (· == x.stream)) x.stream = s := by
    have hk : s.core c = s.cores[c] := by simp [State.core, nth, hn]
    have hm : s.cores.modify c (fun k => { k with
        credit := charged (s.weight c) ([Stream.b, .f, .u].filter (· == x.stream)) x.stream k.credit
        lastIssue := if endsStep.contains opc then none else some g }) = s.cores := by
      apply List.ext_getElem (by simp)
      intro i h1 h2
      rw [List.getElem_modify]
      split
      · next h => subst h; rw [← hk, ← hc, ← hl]
      · rfl
    unfold State.takeSlot State.modCore
    rw [hm]
  have hf : (s.rivals c g).all (fun e => e.2.stream != x.stream || x.older e.2) = true := by
    rw [List.all_eq_true]
    intro e he
    simp [(hv e he).2]
  unfold State.grant
  dsimp only
  rw [hs, e, pickStream_alone, hf]
  by_cases h : (s.rivals c g).isEmpty = true
  · exact ⟨s, by simp [h], .inl rfl⟩
  · exact ⟨s.drawn, by simp [h], .inr rfl⟩

end Sys2Proof.Machine
end

