-- ==== Sys2Proof/Laws/Threads.lean ====
section
/-! SUPPORT. Laws of thread groups: what a group's registers and predicates read as after writes, what the end of an
instruction does, and what an issued instruction with a register or predicate result does. -/

namespace Sys2Proof.Machine

/-! ## One group of a core -/

theorem core_lt_of_group {s : State} {c g : Nat} {x : Group} (h : s.group c g = some x) : c < s.cores.length := by
  by_contra hc
  have : s.core c = Core.reset := by simp [State.core, nth, List.getD_eq_getElem?_getD, not_lt.mp hc]
  rw [State.group, this] at h
  exact absurd h (by simp [Core.reset, Sparse.find])

theorem core_modCore_same {s : State} {c : Nat} (f : Core → Core) (h : c < s.cores.length) :
    (s.modCore c f).core c = f (s.core c) := by
  simp [State.core, State.modCore, nth, List.getD_eq_getElem?_getD, h]

theorem core_modCore_other {s : State} {c d : Nat} (f : Core → Core) (h : d ≠ c) : (s.modCore c f).core d = s.core d := by
  simp [State.core, State.modCore, nth, List.getD_eq_getElem?_getD, Ne.symm h]

theorem group_setGroup_same {s : State} {c : Nat} (g : Nat) (x : Group) (h : c < s.cores.length) :
    (s.setGroup c g x).group c g = some x := by
  simp [State.group, State.setGroup, core_modCore_same _ h, Sparse.find_put_same]

theorem group_setGroup_other {s : State} {c g c' g' : Nat} (x : Group) (h : c' ≠ c ∨ g' ≠ g) :
    (s.setGroup c g x).group c' g' = s.group c' g' := by
  by_cases hc : c' = c
  · subst hc
    have hg : g' ≠ g := by simpa using h
    by_cases hl : c' < s.cores.length
    · simp [State.group, State.setGroup, core_modCore_same _ hl, Sparse.find_put_other _ _ _ _ hg]
    · have : s.setGroup c' g x = s := by
        simp only [State.setGroup, State.modCore]
        rw [List.modify_eq_self (by omega)]
      rw [this]
  · simp [State.group, State.setGroup, core_modCore_other _ hc]

theorem setGroup_setGroup {s : State} {c : Nat} (g : Nat) (x y : Group) :
    (s.setGroup c g x).setGroup c g y = s.setGroup c g y := by
  have hput : ∀ m : Sparse Group, Sparse.put (Sparse.put m g x) g y = Sparse.put m g y := by
    intro m
    induction m with
    | nil => simp [Sparse.put]
    | cons e r ih =>
      obtain ⟨k, w⟩ := e
      by_cases h1 : g < k
      · simp [Sparse.put, h1]
      · by_cases h2 : g = k
        · subst h2; simp [Sparse.put]
        · simp [Sparse.put, h1, h2, ih]
  simp [State.setGroup, State.modCore, List.modify_modify_eq, Function.comp_def, hput]

@[simp] theorem setGroup_cores_length (s : State) (c g : Nat) (x : Group) : (s.setGroup c g x).cores.length = s.cores.length := by
  simp [State.setGroup, State.modCore]

theorem core_setGroup (s : State) (c g : Nat) (x : Group) (c' : Nat) :
    (s.setGroup c g x).core c' = { s.core c' with groups := ((s.setGroup c g x).core c').groups } := by
  by_cases hc : c' = c
  · subst hc
    by_cases hl : c' < s.cores.length
    · simp [State.setGroup, core_modCore_same _ hl]
    · have : s.setGroup c' g x = s := by
        simp only [State.setGroup, State.modCore]; rw [List.modify_eq_self (by omega)]
      rw [this]
  · simp [State.setGroup, core_modCore_other _ hc]

/-! ## Registers and predicates of a group -/

theorem Group.reg_setReg {x : Group} {l n l' n' : Nat} (v : Word) (hn : n < 256) (hn' : n' < 256) :
    (x.setReg l n v).reg l' n' = if l' = l ∧ n' = n then v else x.reg l' n' := by
  by_cases h : l' = l ∧ n' = n
  · obtain ⟨rfl, rfl⟩ := h
    simp [Group.reg, Group.setReg]
  · rw [if_neg h]
    simp only [Group.reg, Group.setReg]
    exact Sparse.get_set_other _ _ _ _ _ (by omega)

theorem bit_set : ∀ o : Fin 256, ∀ k : Fin 8, ∀ j : Fin 8,
    ((BitVec.ofNat 8 (o.val ||| 2 ^ k.val)).toNat.testBit j.val = (o.val.testBit j.val || decide (j = k))) ∧
    ((BitVec.ofNat 8 (o.val - (o.val &&& 2 ^ k.val))).toNat.testBit j.val = (o.val.testBit j.val && decide (j ≠ k))) := by
  decide +kernel

theorem Group.pred_setPred {x : Group} {l k l' k' : Nat} (v : Bool) (hk : k < 8) (hk' : k' < 8) :
    (x.setPred l k v).pred l' k' = if l' = l ∧ k' = k ∧ k' ≠ 0 then v else x.pred l' k' := by
  by_cases h0 : k = 0
  · subst h0; simp [Group.setPred]
  by_cases h0' : k' = 0
  · subst h0'; simp [Group.pred]
  rw [Group.setPred, if_neg (by omega : ¬k % 8 = 0)]
  simp only [Group.pred, Nat.mod_eq_of_lt hk, Nat.mod_eq_of_lt hk', beq_false_of_ne h0', Bool.false_or, h0', ne_eq,
    not_false_eq_true, and_true]
  by_cases hl : l' = l
  · subst hl
    simp only [Sparse.get_set_same, true_and]
    have hb := bit_set ⟨(Sparse.get 0 x.preds l').toNat, (Sparse.get (0 : Byte) x.preds l').isLt⟩ ⟨k, hk⟩ ⟨k', hk'⟩
    simp only [Fin.ext_iff, ne_eq] at hb
    by_cases hkk : k' = k
    · rw [if_pos hkk]
      cases v
      · exact hb.2.trans (by simp [hkk])
      · exact hb.1.trans (by simp [hkk])
    · rw [if_neg hkk]
      cases v
      · exact hb.2.trans (by simp [hkk])
      · exact hb.1.trans (by simp [hkk])
  · rw [Sparse.get_set_other _ _ _ _ _ hl]; simp [hl]

/-- The write-back of a register result. -/
theorem writeLanes_spec (x : Group) (d : Nat) (hd : d < 256) (lanes : List Nat) (f : Nat → LaneRes) :
    (writeLanes x d lanes f).1 = { x with regs := (writeLanes x d lanes f).1.regs } ∧
    (writeLanes x d lanes f).2 = orFlags lanes f ∧
    ∀ l n, n < 256 → (writeLanes x d lanes f).1.reg l n = if l ∈ lanes ∧ n = d then (f l).1 else x.reg l n := by
  have key : ∀ (lanes : List Nat) (y : Group) (fl : Flags), y = { x with regs := y.regs } →
      let r := lanes.foldl (fun (a : Group × Flags) l => let r := f l; (a.1.setReg l d r.1, a.2 ||| r.2)) (y, fl)
      r.1 = { x with regs := r.1.regs } ∧ r.2 = lanes.foldl (fun a l => a ||| (f l).2) fl ∧
        ∀ l n, n < 256 → r.1.reg l n = if l ∈ lanes ∧ n = d then (f l).1 else y.reg l n := by
    intro lanes
    induction lanes with
    | nil => intro y fl hy; simpa using hy
    | cons a r ih =>
      intro y fl hy
      have h1 : y.setReg a d (f a).1 = { x with regs := (y.setReg a d (f a).1).regs } := by
        rw [hy]; rfl
      obtain ⟨i1, i2, i3⟩ := ih (y.setReg a d (f a).1) (fl ||| (f a).2) h1
      refine ⟨i1, i2, fun l n hn => ?_⟩
      rw [List.foldl_cons]
      rw [i3 l n hn, Group.reg_setReg _ hd hn]
      by_cases hla : l = a
      · subst hla; by_cases hnd : n = d <;> simp [hnd]
      · by_cases hlr : l ∈ r <;> by_cases hnd : n = d <;> simp [hla, hlr, hnd]
  obtain ⟨h1, h2, h3⟩ := key lanes x 0 rfl
  exact ⟨h1, h2, h3⟩

/-- The write-back of a predicate result. -/
theorem writePreds_spec (x : Group) (d : Nat) (hd : d < 8) (lanes : List Nat) (f : Nat → Bool × Flags) :
    let r := lanes.foldl (fun (a : Group × Flags) l => let v := f l; (a.1.setPred l d v.1, a.2 ||| v.2)) (x, 0)
    r.1 = { x with preds := r.1.preds } ∧ r.2 = lanes.foldl (fun a l => a ||| (f l).2) 0 ∧
    ∀ l k, k < 8 → r.1.pred l k = if l ∈ lanes ∧ k = d ∧ k ≠ 0 then (f l).1 else x.pred l k := by
  have key : ∀ (lanes : List Nat) (y : Group) (fl : Flags), y = { x with preds := y.preds } →
      let r := lanes.foldl (fun (a : Group × Flags) l => let v := f l; (a.1.setPred l d v.1, a.2 ||| v.2)) (y, fl)
      r.1 = { x with preds := r.1.preds } ∧ r.2 = lanes.foldl (fun a l => a ||| (f l).2) fl ∧
        ∀ l k, k < 8 → r.1.pred l k = if l ∈ lanes ∧ k = d ∧ k ≠ 0 then (f l).1 else y.pred l k := by
    intro lanes
    induction lanes with
    | nil => intro y fl hy; simpa using hy
    | cons a r ih =>
      intro y fl hy
      have h1 : y.setPred a d (f a).1 = { x with preds := (y.setPred a d (f a).1).preds } := by
        rw [hy]; unfold Group.setPred; split <;> rfl
      obtain ⟨i1, i2, i3⟩ := ih (y.setPred a d (f a).1) (fl ||| (f a).2) h1
      refine ⟨i1, i2, fun l k hk => ?_⟩
      rw [List.foldl_cons]
      rw [i3 l k hk, Group.pred_setPred _ hd hk]
      by_cases hla : l = a
      · subst hla
        by_cases hkd : k = d <;> by_cases hk0 : k = 0 <;> simp [hkd, hk0]
        all_goals (intro _ h0 h1; exact absurd h1 h0)
      · by_cases hlr : l ∈ r <;> by_cases hkd : k = d <;> simp [hla, hlr, hkd]
  exact key lanes x 0 rfl

/-! ## The end of an instruction -/

theorem pop_regs (x : Group) (r : Sparse Word) : ({ x with regs := r } : Group).pop = { x.pop with regs := r } := by
  obtain ⟨_, _, _, _, _, _, _, _, _, _, stack⟩ := x
  cases stack <;> rfl

theorem pop_preds (x : Group) (p : Sparse Byte) : ({ x with preds := p } : Group).pop = { x.pop with preds := p } := by
  obtain ⟨_, _, _, _, _, _, _, _, _, _, stack⟩ := x
  cases stack <;> rfl

theorem settleN_regs (k : Nat) (x : Group) (r : Sparse Word) :
    Group.settleN k { x with regs := r } = { Group.settleN k x with regs := r } := by
  induction k generalizing x with
  | zero => rfl
  | succ k ih =>
    simp only [Group.settleN, pop_regs, ih]
    repeat' split
    all_goals rfl

theorem settleN_preds (k : Nat) (x : Group) (p : Sparse Byte) :
    Group.settleN k { x with preds := p } = { Group.settleN k x with preds := p } := by
  induction k generalizing x with
  | zero => rfl
  | succ k ih =>
    simp only [Group.settleN, pop_preds, ih]
    repeat' split
    all_goals rfl

theorem ended_regs (x : Group) (r : Sparse Word) (h : Bool) : ({ x with regs := r } : Group).ended h = { x.ended h with regs := r } := by
  unfold Group.ended; simp only; split <;> rfl

theorem ended_preds (x : Group) (p : Sparse Byte) (h : Bool) : ({ x with preds := p } : Group).ended h = { x.ended h with preds := p } := by
  unfold Group.ended; simp only; split <;> rfl

theorem at_regs (x : Group) (r : Sparse Word) (pc : BitVec 48) (h : Bool) :
    ({ x with regs := r } : Group).at_ pc h = { x.at_ pc h with regs := r } := by
  unfold Group.at_ Group.settle
  rw [← ended_regs, ← settleN_regs]

theorem at_preds (x : Group) (p : Sparse Byte) (pc : BitVec 48) (h : Bool) :
    ({ x with preds := p } : Group).at_ pc h = { x.at_ pc h with preds := p } := by
  unfold Group.at_ Group.settle
  rw [← ended_preds, ← settleN_preds]

/-- The next instruction of a group that has just been put back. -/
theorem advance_of_group {s : State} {c g : Nat} {x : Group} (h : s.group c g = some x) :
    s.advance c g = (s.setGroup c g (x.at_ (x.pc + 8) (s.haltBit c g))).pathEnds c g := by
  simp only [State.advance, h, State.goTo, State.modGroup, Group.at_]

theorem goTo_of_group {s : State} {c g : Nat} {x : Group} (pc : BitVec 48) (h : s.group c g = some x) :
    s.goTo c g pc = (s.setGroup c g (x.at_ pc (s.haltBit c g))).pathEnds c g := by
  simp only [State.goTo, h, State.modGroup, Group.at_]

theorem reg_orReg_same (s : State) (r : Reg) (i v : Nat) :
    (s.orReg r i v).reg r i 0 = s.reg r i 0 ||| BitVec.ofNat 32 v := by
  unfold State.orReg
  split
  · next h => subst h; simp
  · simp

theorem reg_orReg_other (s : State) (r q : Reg) (i v j k : Nat) (h : q.addr j k ≠ r.addr i 0) :
    (s.orReg r i v).reg q j k = s.reg q j k := by
  unfold State.orReg
  split
  · rfl
  · exact State.reg_setReg_other _ _ _ _ _ _ _ _ h

/-- The registers that tell whether a group halts lie apart from a core's flag register. -/
theorem haltBit_raiseVec (s : State) (c g : Nat) (fl : Flags) (hc : c < 64) : (s.raiseVec c fl).haltBit c g = s.haltBit c g := by
  have hn : Reg.addr .NUM_CFLAGS c 0 = 0x900000 + c * 4 + 0 * 0 := rfl
  have hm : Reg.addr .SAF_CMAP (c / 4) 0 = 0x800100 + c / 4 * 4 + 0 * 0 := rfl
  have far : ∀ (r : Reg) (i j : Nat), 0x900100 ≤ r.addr i j ∨ r.addr i j < 0x900000 →
      (s.orReg .NUM_CFLAGS c (fl.toNat * 256)).reg r i j = s.reg r i j :=
    fun r i j h => reg_orReg_other _ _ _ _ _ _ _ (by omega)
  have hp : (s.orReg .NUM_CFLAGS c (fl.toNat * 256)).phys c = s.phys c := by
    simp only [State.phys, State.coreSlot]
    rw [far _ _ _ (.inr (by omega))]
  have hf : 0x900100 ≤ Reg.addr .CORE_FAULTCTL (s.phys c) 0 := by
    show _ ≤ 0x1000100 + s.phys c * 0x10000 + 0 * 0
    omega
  have hg : 0x900100 ≤ Reg.addr .CORE_GCTL (s.phys c) g := by
    show _ ≤ 0x1001100 + s.phys c * 0x10000 + g * 4
    omega
  simp only [State.raiseVec, State.haltBit, State.flag, State.fld, hp]
  rw [show F.CORE_FAULTCTL_MODE.reg = .CORE_FAULTCTL from rfl, show F.CORE_GCTL_HALT.reg = .CORE_GCTL from rfl,
    far _ _ _ (.inl hf), far _ _ _ (.inl hg)]

/-! ## Issue -/

/-- An instruction that issues runs its body on the state that its fetch leaves. -/
theorem Issuing.issue {s s1 : State} {c g opc : Nat} {w : IFields} {f : Form} {x : Group} (h : Issuing s s1 c g opc w f x)
    (body : State → Group → State) : s.issue c g opc w f body = body s1 x := by
  have h1 : (!s.coreRuns c || x.state != .running || x.killed) = false := by simp [h.runs, h.running, h.alive]
  have h2 : (!x.stepping && s.haltBit c g) = false := by rcases h.noHalt with h | h <;> simp [h]
  have h3 : (!x.stepping && s.debugMode c && s.breakpoint c x.pc) = false := by
    rcases h.noHalt with h | ⟨-, h | h⟩ <;> simp [h]
  obtain ⟨s0, hg, hf⟩ := h.fetched
  simp [State.issue, h.held, h1, h2, h3, h.aligned, hg, hf, h.still, h.legal, State.readRegs, h.sources]

/-- A word that is reached and is not legal traps ILLEGAL. -/
theorem Reaches.illegal {s s1 : State} {c g opc : Nat} {w : IFields} {f : Form} {x : Group} (h : Reaches s s1 c g opc w x)
    (hf : f.legal x.nregs w = false) (body : State → Group → State) :
    s.issue c g opc w f body = s1.trap c g TC.illegal opc x.pc.toNat false := by
  have h1 : (!s.coreRuns c || x.state != .running || x.killed) = false := by simp [h.runs, h.running, h.alive]
  have h2 : (!x.stepping && s.haltBit c g) = false := by rcases h.noHalt with h | h <;> simp [h]
  have h3 : (!x.stepping && s.debugMode c && s.breakpoint c x.pc) = false := by
    rcases h.noHalt with h | ⟨-, h | h⟩ <;> simp [h]
  obtain ⟨s0, hg, hf0⟩ := h.fetched
  simp [State.issue, h.held, h1, h2, h3, h.aligned, hg, hf0, h.still, hf]

/-- Bytes of a number depend only on the number modulo what they hold. -/
theorem toBytes_congr : ∀ (n u v : Nat), u % 2 ^ (8 * n) = v % 2 ^ (8 * n) → toBytes n u = toBytes n v
  | 0, _, _, _ => rfl
  | n + 1, u, v, h => by
    have e : 2 ^ (8 * (n + 1)) = 256 * 2 ^ (8 * n) := by rw [show 8 * (n + 1) = 8 + 8 * n by omega, Nat.pow_add]
    rw [e, Nat.mod_mul, Nat.mod_mul] at h
    have h1 := Nat.mod_lt u (show 256 > 0 by decide)
    have h2 := Nat.mod_lt v (show 256 > 0 by decide)
    have hlo : u % 256 = v % 256 := by omega
    have hhi : u / 256 % 2 ^ (8 * n) = v / 256 % 2 ^ (8 * n) := by omega
    rw [toBytes, toBytes, toBytes_congr n _ _ hhi]
    congr 1
    apply BitVec.eq_of_toNat_eq
    simpa using hlo

/-- A read-modify-write depends on its operation only modulo what the location holds. -/
theorem rmw_congr (s : State) (c : Nat) (x : Group) (va n : Nat) (host : Bool) {f g : Nat → Nat}
    (h : ∀ v, f v % 2 ^ (8 * n) = g v % 2 ^ (8 * n)) : s.rmw c x va n host f = s.rmw c x va n host g := by
  have e : ∀ v, toBytes n (f v) = toBytes n (g v) := fun v => toBytes_congr n _ _ (h v)
  simp only [State.rmw, e]

theorem Issuing.units {s s1 : State} {c g opc : Nat} {w : IFields} {f : Form} {x : Group} (h : Issuing s s1 c g opc w f x) :
    (isCore c && isGroup g) = true := by simp [isCore, isGroup, h.core, h.slot]

/-- The group is put back with new registers or predicates, flags are raised, and it goes on. -/
theorem putBack_effect {s1 : State} {c g : Nat} {x y : Group} (fl : Flags) (hc : c < 64) (hs : s1.group c g = some x) :
    ∃ u, ((s1.setGroup c g y).raiseVec c fl).advance c g = u.pathEnds c g ∧ OnlyGroup s1 u c g fl ∧
      u.group c g = some (y.at_ (y.pc + 8) (s1.haltBit c g)) := by
  have hl := core_lt_of_group hs
  have hgr : ((s1.setGroup c g y).raiseVec c fl).group c g = some y := by
    have : ((s1.setGroup c g y).raiseVec c fl).group c g = (s1.setGroup c g y).group c g := by
      unfold State.raiseVec State.orReg; split <;> rfl
    rw [this, group_setGroup_same g y hl]
  have hh : ((s1.setGroup c g y).raiseVec c fl).haltBit c g = s1.haltBit c g := haltBit_raiseVec (s1.setGroup c g y) c g fl hc
  have hsw : ∀ z, ((s1.setGroup c g y).raiseVec c fl).setGroup c g z = (s1.raiseVec c fl).setGroup c g z := by
    intro z
    have : (s1.setGroup c g y).raiseVec c fl = (s1.raiseVec c fl).setGroup c g y := by
      unfold State.raiseVec State.orReg; split <;> rfl
    rw [this, setGroup_setGroup g y z]
  set z := y.at_ (y.pc + 8) (s1.haltBit c g) with hz
  have hcores : (s1.raiseVec c fl).cores = s1.cores := by unfold State.raiseVec State.orReg; split <;> rfl
  have hgroup : ∀ c' g', (s1.raiseVec c fl).group c' g' = s1.group c' g' := by
    intro c' g'; simp only [State.group, State.core, hcores]
  have hcore : ∀ c', (s1.raiseVec c fl).core c' = s1.core c' := by intro c'; simp only [State.core, hcores]
  refine ⟨(s1.raiseVec c fl).setGroup c g z, by rw [advance_of_group hgr, hh, hsw], ⟨?_, ?_, ?_, ?_, ?_⟩, ?_⟩
  · unfold State.raiseVec State.orReg; split <;> rfl
  · intro c' g' h
    exact (group_setGroup_other z h).trans (hgroup c' g')
  · intro c'
    have := core_setGroup (s1.raiseVec c fl) c g z c'
    rw [hcore] at this
    exact this
  · exact reg_orReg_same s1 .NUM_CFLAGS c (fl.toNat * 256)
  · intro r i j h
    exact reg_orReg_other s1 .NUM_CFLAGS r c (fl.toNat * 256) i j h
  · exact group_setGroup_same g z (by rw [hcores]; exact hl)

/-- On sound lanes the residue check passes, and changes nothing. -/
theorem checkLanes_sound {s : State} {c : Nat} (h : s.lanesBad c = []) (opc : Nat) (f : Nat → Nat) (lanes : List Nat) :
    s.checkLanes c opc f lanes = (s, true) := by simp [State.checkLanes, h]

/-- An issued instruction with a register result. -/
theorem Issues.perLane {s s1 : State} {c g opc : Nat} {w : IFields} {f : Form} {x : Group} (h : Issues s s1 c g opc w f x)
    (op : State → Group → Nat → LaneRes) :
    ∃ u, s.perLane c g opc w f op = u.pathEnds c g ∧ LaneEffect s1 u c g w x (op s1 x) := by
  unfold State.perLane
  rw [h.issue]
  simp only [checkLanes_sound h.lanes, if_true]
  obtain ⟨w1, w2, w3⟩ := writeLanes_spec x w.d.toNat w.d.isLt (lanesOf (x.exec w)) (op s1 x)
  obtain ⟨u, e0, e1, e2⟩ := putBack_effect (y := (writeLanes x w.d.toNat (lanesOf (x.exec w)) (op s1 x)).1)
    (writeLanes x w.d.toNat (lanesOf (x.exec w)) (op s1 x)).2 h.core h.still
  set y := (writeLanes x w.d.toNat (lanesOf (x.exec w)) (op s1 x)).1 with hy
  have hpc : y.pc = x.pc := by rw [w1]
  refine ⟨u, e0, by rw [← Group.lanes] at w2; rw [← w2]; exact e1, _, e2, ?_, ?_⟩
  · rw [hpc, w1, at_regs]
  · intro l _ n hn
    rw [hpc, w1, at_regs]
    exact w3 l n hn

/-- An issued instruction with a predicate result. -/
theorem Issues.perLanePred {s s1 : State} {c g opc : Nat} {w : IFields} {f : Form} {x : Group}
    (h : Issues s s1 c g opc w f x) (hd : w.d.toNat < 8) (op : Group → Nat → Bool × Flags) :
    ∃ u, s.perLanePred c g opc w f op = u.pathEnds c g ∧ PredEffect s1 u c g w x (op x) := by
  unfold State.perLanePred
  rw [h.issue]
  simp only [checkLanes_sound h.lanes, if_true]
  obtain ⟨w1, w2, w3⟩ := writePreds_spec x w.d.toNat hd (lanesOf (x.exec w)) (op x)
  set r := (lanesOf (x.exec w)).foldl
    (fun (a : Group × Flags) l => let v := op x l; (a.1.setPred l w.d.toNat v.1, a.2 ||| v.2)) (x, 0) with hr
  obtain ⟨u, e0, e1, e2⟩ := putBack_effect (y := r.1) r.2 h.core h.still
  have hpc : r.1.pc = x.pc := by rw [w1]
  refine ⟨u, e0, by rw [Group.lanes, ← w2]; exact e1, _, e2, ?_, ?_⟩
  · rw [hpc, w1, at_preds]
  · intro l _ k hk
    rw [hpc, w1, at_preds]
    exact w3 l k hk

end Sys2Proof.Machine
end

