-- ==== Sys2Proof/Tests/Slice0.lean ====
section
/-! SUPPORT. Witnesses for the hypotheses of the statements, the smoke test of WellFormed, and the spec's worked examples. -/

namespace Sys2Proof.Tests
open Sys2Proof.Machine
set_option Elab.async false

/-! ## States to start from -/

/-- A page table at PA 0x10000 that maps the first GiB to itself for reads and writes: two entries and a leaf (R177). -/
def mapped (s : State) : State :=
  let put (t : State) (pa v : Nat) : State := t.setHbmBytes ((List.range 8).map fun i => t.paKey (pa + i)) (toBytes 8 v)
  ((put (put s 0x10000 0x11001) 0x11000 0x1D).setFld F.MEM_PTBASELO_BASELO 0x10).setFld F.MEM_MMUCTL_EN 1

/-- A device that has reached READY, with port 0 up and configured, its memory space enabled, and memory mapped. -/
def ready : State :=
  let s := State.reset
  let s := s.modPwr fun p => { p with supply := .on, step := 10, hold := none }
  let s := s.modPort 0 fun x => { x with configured := true, memSpace := true }
  mapped ((s.setFld F.HIF_PSTAT_UP 1 0).setFld F.DBG_DEVSTATE_PHASE 5)

/-- A work item of one block with one group. -/
def item : Item :=
  { id := 0, stream := .f, mark := false, entry := 0, blocks := 1, started := 1, doneBlocks := 0, groups := 1, regs8 := 4
    lmem := 256, arg := 0, itemId := 7, cnt := 0, faulted := false, frozen := false }

/-- Its block, with groups in the given slots. -/
def blk (slots : List Nat) : Block :=
  { id := 0, item := 0, index := 0, lmemBase := 0, lmemBytes := 256, slots := slots
    barriers := List.replicate 16 { arrived := [] } }

/-- Its group, which has just started. -/
def grp : Group := Group.start item 0 0

/-- Group `x` in slot 0 of core 0. -/
def at_ (s : State) (x : Group) : State :=
  (s.setGroup 0 0 x).modCore 0 fun k => { k with blocks := [blk [0]], items := [item] }

/-- The instruction stands at VA 0, in HBM and in the instruction cache of core 0, whose group has run before. -/
def code (s : State) (opc : Nat) (w : IFields) : State :=
  (s.setHbmBytes ((List.range 8).map s.paKey) (toBytes 8 (w.word opc).toNat)).modCore 0 fun k => { k with
    icache := [(0, w.word opc)], lastIssue := if endsStep.contains opc then none else some 0 }

/-- Field values that a form allows: what it does not use is zero. -/
def fits (f : Form) : IFields :=
  let u (k : Use) (n : Nat) : BitVec 8 := if k = .no then 0 else BitVec.ofNat 8 n
  { pn := false, ps := 0, md := BitVec.ofNat 4 (((List.range 16).find? f.mods.testBit).getD 0), d := u f.d 2, a := u f.a 4
    b := u f.b 6, c := u f.c 0, imm := 0 }

/-- No word of the spans of local bytes is in error, and no slot waits to leave service. -/
def quiet (s : State) (spans : List (Nat × Nat)) : Bool :=
  (s.saf.sram.filter fun e => e.1 / 2 ^ 21 == s.phys 0 &&
    spans.any fun (o, n) => decide (e.1 % 2 ^ 21 * 8 < o + n ∧ o < e.1 % 2 ^ 21 * 8 + 8)).isEmpty && s.lostSlots.isEmpty

/-- The group is the oldest of those that can run, all of one stream, and has run before. -/
def oldest (s : State) (opc : Nat) (x : Group) : Bool :=
  ((s.core 0).groups.all fun e => e.1 == 0 || e.2.state != .running || e.2.killed || (e.2.stream == x.stream && x.older e.2)) &&
  decide (0 < s.cores.length) &&
  decide ((s.core 0).credit = charged (s.weight 0) ([Stream.b, .f, .u].filter (· == x.stream)) x.stream (s.core 0).credit) &&
  decide ((s.core 0).lastIssue = if endsStep.contains opc then none else some 0)

/-- All that a group needs to reach a word in the instruction cache, as a test. -/
def reaching (s : State) (opc : Nat) (w : IFields) (x : Group) : Bool :=
  oldest s opc x && quiet s [(8 * cacheWord x.pc.toNat, 8)] && decide (s.group 0 0 = some x) && s.coreRuns 0 && decide (x.state = .running) && !x.killed && !s.haltBit 0 0 &&
    (!s.debugMode 0 || !s.breakpoint 0 x.pc)
    && x.pc.toNat % 8 == 0 && decide (Sparse.find (s.core 0).icache (x.pc.toNat / 8) = some (w.word opc)) &&
    decide (s.codeWord x.pc.toNat = some (w.word opc)) && decide (s.drawn.codeWord x.pc.toNat = some (w.word opc))

/-- The word is legal, too. -/
def issuing (s : State) (opc : Nat) (w : IFields) (f : Form) (x : Group) : Bool :=
  reaching s opc w x && f.legal x.nregs w && quiet s (x.regSpans 0 w f)

/-- It issues on a sound core. -/
def issues (s : State) (opc : Nat) (w : IFields) (f : Form) (x : Group) : Bool :=
  issuing s opc w f x && s.saf.sram.isEmpty && (s.lanesBad 0).isEmpty

/-- The state in which the instruction stands at VA 0, and that it issues there. -/
def runs (s : State) (opc : Nat) (w : IFields) (f : Form) (x : Group) : Bool := issues (code s opc w) opc w f x

theorem quiet_sound {s : State} {l : List (Nat × Nat)} (h : quiet s l = true) : s.meetWords 0 l = (s, true, false) := by
  simp only [quiet, Bool.and_eq_true, List.isEmpty_iff] at h
  exact meetWords_quiet h.1 h.2

theorem quiet_drawn (s : State) (l : List (Nat × Nat)) : quiet s.drawn l = quiet s l := rfl

theorem oldest_sound {s : State} {opc : Nat} {x : Group} (h : oldest s opc x = true) :
    ∃ s0, s.grant 0 0 opc x = some s0 ∧ (s0 = s ∨ s0 = s.drawn) := by
  simp only [oldest, Bool.and_eq_true, List.all_eq_true, Bool.or_eq_true, beq_iff_eq, bne_iff_ne, decide_eq_true_eq] at h
  refine grant_first (fun e he h1 h2 h3 => ?_) h.1.2 h.2 h.1.1.2
  rcases h.1.1.1 e he with ((h4 | h4) | h4) | h4
  · exact absurd h4 h1
  · exact absurd h2 h4
  · rw [h3] at h4; cases h4
  · exact h4

/-- A state that passes the test lets the group reach the word, and nothing changes but the free values that say which other group
was ready. -/
theorem reaching_sound {s : State} {opc : Nat} {w : IFields} {x : Group} (h : reaching s opc w x = true) :
    ∃ s1, (s1 = s ∨ s1 = s.drawn) ∧ Reaches s s1 0 0 opc w x := by
  simp only [reaching, Bool.and_eq_true, Bool.or_eq_true, decide_eq_true_eq, Bool.not_eq_true', beq_iff_eq] at h
  obtain ⟨⟨⟨⟨⟨⟨⟨⟨⟨⟨⟨ha, hq⟩, h1⟩, h2⟩, h3⟩, h4⟩, h5⟩, h6⟩, h7⟩, h8⟩, h9⟩, h10⟩ := h
  obtain ⟨s0, hg, h0⟩ := oldest_sound ha
  refine ⟨s0, h0, ⟨by decide, by decide, h1, h2, h3, h4, .inr ⟨h5, h6⟩, h7, ⟨s0, hg, ?_⟩, ?_⟩⟩
  · rcases h0 with rfl | rfl
    · exact fetch_cached (quiet_sound hq) h8 h9
    · exact fetch_cached (quiet_sound ((quiet_drawn s _).trans hq)) h8 h10
  · rcases h0 with rfl | rfl <;> exact h1

theorem issuing_sound {s : State} {opc : Nat} {w : IFields} {f : Form} {x : Group} (h : issuing s opc w f x = true) :
    ∃ s1, (s1 = s ∨ s1 = s.drawn) ∧ Issuing s s1 0 0 opc w f x := by
  simp only [issuing, Bool.and_eq_true] at h
  obtain ⟨s1, h1, hr⟩ := reaching_sound h.1.1
  refine ⟨s1, h1, hr, h.1.2, ?_⟩
  rcases h1 with rfl | rfl
  · exact quiet_sound h.2
  · exact quiet_sound ((quiet_drawn s _).trans h.2)

theorem issues_sound {s : State} {opc : Nat} {w : IFields} {f : Form} {x : Group} (h : issues s opc w f x = true) :
    ∃ s1, (s1 = s ∨ s1 = s.drawn) ∧ Issues s s1 0 0 opc w f x := by
  simp only [issues, Bool.and_eq_true, List.isEmpty_iff] at h
  obtain ⟨s1, h1, hr⟩ := issuing_sound h.1.1
  rcases h1 with rfl | rfl
  · exact ⟨_, .inl rfl, hr, h.1.2, h.2⟩
  · exact ⟨_, .inr rfl, hr, h.1.2, h.2⟩

/-- What a command's next state satisfies, as a test. -/
def after (c : Instr) (s : State) (f : State → Bool) : Bool :=
  match exec c s with
  | .next t => f t
  | _ => false

def regIs (l n : Nat) (v : Word) (t : State) : Bool :=
  match t.group 0 0 with
  | some x => x.reg l n == v
  | none => false

/-- Group whose lane 0 alone is active, with the pair v4:v5 of that lane at an address. -/
def one (va : Nat) : Group :=
  let x := (grp.setReg 0 4 (BitVec.ofNat 32 va)).setReg 0 5 (BitVec.ofNat 32 (va / 2 ^ 32))
  { x with active := 1, live := 1 }

/-- The instruction issues where it stands, and the ring of error records has room: it can trap. -/
def canTrap (s : State) (opc : Nat) (w : IFields) (f : Form) (x : Group) : Bool :=
  let s := code s opc w
  issues s opc w f x && !s.saf.overflow && decide (2 ≤ s.erFree)

/-- A VA in the local memory window of cluster 0. -/
def win : Nat := 0x100000000000

def okRead {ε α : Type} (r : State × Except ε α) : Bool := match r.2 with | .ok _ => true | .error _ => false

/-- Words of an MMA descriptor of one B16 element, drained to B16: A at 0, B at 0x2000, D at 0x4000, record at 0x8000. -/
def mmaWords : List DWord :=
  [BitVec.ofNat 64 (0x01222248 * 2 ^ 32 + 0), BitVec.ofNat 64 (2 ^ 48 + 2 ^ 32 + 2 ^ 16), 0, 0x3F80000000000000, 0x3F8000003F800000,
   BitVec.ofNat 64 (16 * 2 ^ 34 + 32 * 2 ^ 4), BitVec.ofNat 64 (0x800 * 2 ^ 12), 0x1122334455667788]

def desc (ws : List DWord) : QDesc := { words := ws, group := 0, taken := false, status := 0, flags := 0, recomp := 0, skipped := 0, blocks := [] }

/-- The F-engine of core 0 holds the descriptors. -/
def engine (s : State) (l : List QDesc) : State := s.modEng 0 .f fun x => { x with queue := l }

/-- Ring registers with 16 entries from VA 0 on, head 0, and the tail. -/
def ring (s : State) (r : RingRegs) (i j tail : Nat) : State :=
  (s.setReg r.hi i j (BitVec.ofNat 32 (4 * 2 ^ 16))).setReg r.tl i j (BitVec.ofNat 32 tail)

def two (s : State) (x y : Group) : State :=
  ((at_ s x).setGroup 0 1 y).modCore 0 fun k => { k with blocks := [blk [0, 1]] }

def runsB (s : State) (c g : Nat) (b : Block) : Bool :=
  b.slots.any fun k => k != g && match s.group c k with
    | some x => x.state == .running && x.live != 0 && b.barriers.all fun y => arrivedOf y k == 0
    | none => false

def itemRing (w : List DWord) : State := (ring ready passRing 0 0 1).put 0 0 (ofWords w)

def markBehind : State := (itemRing [BitVec.ofNat 64 (2 * 2 ^ 56)]).modCore 0 fun k => { k with items := [item], nextItem := 1 }

/-- A packet of a type for node 0, without a payload. -/
def packet (t : BitVec 4) : Packet :=
  { ptype := t, hops := 0, rsvd := 0, len := 0, upd := false, pf := false, dst := 0, src := 0, tag := 0, x := 0, via := 0
    nm := false, gsel := 0, addr := 0, payload := [] }

/-- The device at a step of Table 14.1, in a phase. -/
def atStep (n ph : Nat) : State :=
  (State.reset.modPwr fun p => { p with supply := .on, step := n, hold := none, lrefclk := true }).setFld F.DBG_DEVSTATE_PHASE ph

/-- The first 31 words of a step program header with one member, node 0, and one bucket of 4 MiB, and no other table. -/
def headWords : List DWord :=
  [BitVec.ofNat 64 (0x53504733 * 2 ^ 32 + 3 * 2 ^ 16), 4, 0x101000, 0x101040, 0, 0, 0, 0x102000, 0x103000, 0, 0, 0x104000,
   BitVec.ofNat 64 (0x300000 * 2 ^ 32), 0x105000, BitVec.ofNat 64 (24 * 2 ^ 40 + 24 * 2 ^ 24)] ++ List.replicate 16 0

/-- A step program header of 256 bytes with its CRC. -/
def header : List Byte := ofWords headWords ++ toBytes 8 (crc32c (ofWords headWords))

/-- The program of the header. -/
def prog : Prog :=
  { progOf (toWords 32 header) with members := [memberOf 0], buckets := [bucketOf (List.replicate 8 0)] }

/-- SEQ with that program in a state of SEQ.STATE. -/
def seqIn (st : Nat) : State := (ready.modSeq fun q => q.withProg (some prog)).setSeqState st

/-! ## Thread instructions (spec/07) -/

theorem witness_IntegerInstructions : (intOps.all fun e => runs (at_ ready grp) e.opcode (fits e.form) e.form grp) = true := by
  decide +kernel

theorem witness_FloatInstructions : (floatOps.all fun e => runs (at_ ready grp) e.opcode (fits e.form) e.form grp) = true := by
  decide +kernel

theorem witness_PredicatesAndPolls :
    (let f (d : Use) : Form := { d := d, c := .pred, mods := 7 }
     (predOps.all fun e => runs (at_ ready grp) e.opcode (fits e.form) e.form grp) &&
       runs (at_ ready grp) 0x71 (fits (f .pred)) (f .pred) grp &&
       runs (at_ ready grp) 0x71 { fits (f .pair) with md := 2 } (f .pair) grp) = true := by decide +kernel

theorem witness_CodesAndSystemValues :
    (let s := at_ ready grp
     let f : Form := { d := .pred, a := .reg, b := .reg, mods := 0x3F }
     let h : Form := { d := .reg, imm := true }
     runs s 0x25 (fits f) f grp && runs s 0x3A (fits (dabc 0xD)) (dabc 0xD) grp && runs s 0x3B (fits (dab 0x1111)) (dab 0x1111) grp &&
       [0, 10].all fun n =>
         let w := { fits h with imm := n }
         let t := code s 0x15 w
         issues t 0x15 w h grp && decide (t.blockOf 0 grp.block = some (blk [0])) &&
           decide (((t.core 0).items.find? fun j => j.id == 0) = some item)) = true := by decide +kernel

theorem witness_PlainControl :
    (let s := at_ ready grp
     let f : Form := { a := .reg, mods := 0xF, plain := true }
     let x := grp.setReg 0 4 0x3F800000
     let w := { fits f with md := 3 }
     let t : Form := { imm := true, plain := true }
     let fence : Form := { mods := 0xFFF0 }
     let v := { fits fence with md := 7 }
     runs s 0x00 (fits {}) {} grp && runs s 0x9C (fits { plain := true }) { plain := true } grp &&
       runs (at_ ready x) 0x89 w f x && (lanesOf x.active).head? == some 0 && coarseOk (x.av w 0) &&
       runs s 0x81 (fits t) t grp && !grp.badDesc && runs s 0x7A v fence grp && sysRelease v &&
       (grp.owed (grp.exec v)).isEmpty) = true := by decide +kernel

theorem witness_JumpsAndCalls :
    (let f : Form := { b := .bits, c := .bits, imm := true }
     let w := { fits f with ps := 1 }
     let x := grp.setPred 3 1 true
     let r : Form := { a := .pair, plain := true }
     let c : Form := { d := .pair, imm := true, plain := true }
     let s := at_ ready grp
     runs s 0x90 (fits f) f grp && grp.exec (fits f) == grp.active &&
       runs s 0x90 w f grp && grp.exec w == 0 && grp.active != 0 &&
       runs (at_ ready x) 0x90 w f x && x.exec w != 0 && x.exec w != x.active && decide (x.stack.length ≤ 30) &&
       runs s 0x91 (fits r) r grp && ((lanesOf grp.active).all fun k => (grp.pair k (fits r).a.toNat).setWidth 48 == (0 : BitVec 48)) &&
       runs s 0x92 (fits c) c grp) = true := by decide +kernel

theorem witness_LocalLoadsAndStores :
    ([false, true].all fun wide =>
      let fl : Form := { d := if wide then .pair else .reg, a := .reg, imm := true, mods := 0xFF }
      let fs : Form := { a := .reg, b := if wide then .pair else .reg, imm := true, mods := 0xF }
      let md : BitVec 4 := if wide then 3 else 0
      let wl := { fits fl with md := md }
      let ws := { fits fs with md := md }
      runs (at_ ready grp) 0x50 wl fl grp && runs (at_ ready grp) 0x51 ws fs grp && (grp.lanes wl).all fun l =>
        localCause (grp.localAddr wl l) (2 ^ (md.toNat % 4)) == none &&
          localCause (grp.localAddr ws l) (2 ^ (md.toNat % 4)) == none) = true := by decide +kernel

theorem witness_GlobalLoads :
    (let x := one win
     let f : Form := { d := regOrPair false, a := .pair, imm := true, mods := 0xF }
     let f2 : Form := { f with mods := 0xFFFF }
     let w := fits f
     let lanes := (x.lanes w).map (fun l => (l, x.globalAddr w l w.imm.toInt))
     let o : LoadOp := { d := 2, size := 2, opc := 0x52, lanes := [(0, 0)], ids := [], got := [(0, 5)] }
     let y := { grp with state := .blocked, wait := .load, load := some o }
     let t := at_ ready y
     ([(0x52, f), (0x54, f2)].all fun (opc, f) =>
       let s := code (at_ ready x) opc w
       issues s opc w f x && lanes != [] &&
         (lanes.all fun e => gNode e.2 == s.node && s.globalCause 0 e.2 1 == none) && decide (s.net.reads.length ≤ 2048) &&
         okRead (s.loadOwn 0 1 lanes []) && decide ((s.loadOwn 0 1 lanes []).1.group 0 0 = some x)) &&
       decide (t.group 0 0 = some y) && t.coreRuns 0) = true := by decide +kernel

theorem witness_GlobalStores :
    (let x := one win
     let w := fits { a := .pair, b := .reg, imm := true, mods := 0xF }
     [(0x53, 0xF), (0x55, 0xFFFF)].all fun (opc, mods) =>
       let s := code (at_ ready x) opc w
       issues s opc w (storeForm w mods) x && (x.lanes w).all fun l =>
       let a := x.globalAddr w l w.imm.toInt
       gNode a == s.node && s.globalCause 0 a 1 == none && decide (gVa a < 0x800000000000) &&
         (s.write 0 x.upd (gVa a) [0]).2 == none) = true := by decide +kernel

theorem witness_LocalAtomics :
    (let x := one win
     let y := { (x.setReg 1 4 (BitVec.ofNat 32 win)).setReg 1 5 (BitVec.ofNat 32 (win / 2 ^ 32)) with active := 3, live := 3 }
     let f : Form := { d := .reg, a := .pair, b := .reg, imm := true, mods := 0xFFFF }
     (atomOps.all fun e => [false, true].all fun wide =>
       let w : IFields := { fits {} with imm := if wide then 0x8000 else 0, d := 2, a := 4, b := 6, c := if e.useC then 8 else 0 }
       let ga := x.globalAddr w 0 (signed 14 w.imm.toNat)
       let s := code (at_ ready x) e.opcode w
       issues s e.opcode w (atForm w e.useC) x && x.lanes w == [0] && gNode ga == s.node && gVa ga == win &&
         w.imm.getLsbD 15 == wide && !sysRelease w && runs (at_ ready y) e.opcode w (atForm w e.useC) y && y.lanes w == [0, 1] &&
         y.globalAddr w 1 (signed 14 w.imm.toNat) == ga) &&
       runs (at_ ready x) 0x66 (fits f) f x && x.lanes (fits f) == [0]) = true := by decide +kernel

theorem witness_DescriptorsAreHandedOver :
    (let f : Form := { a := .reg, imm := true, plain := true }
     let w := fits f
     let s := at_ ready grp
     let full := engine s (List.replicate 16 (desc mmaWords))
     runs s 0x80 w f grp && runs full 0x80 w f grp && decide (Stream.engine grp.stream = some .f) &&
       localCause (grp.localAddr w 0) 64 == none && decide ((s.eng 0 .f).queue.length < 16) &&
       decide (16 ≤ (full.eng 0 .f).queue.length) &&
       [(true, mseRing, 0, 1), (false, dmaRing, 0, 0)].all fun (mse, r, i, j) =>
         let f : Form := { d := .reg, a := .reg, imm := true, plain := true }
         let w := { fits f with imm := if mse then 16 else 0 }
         let opc := if mse then 0x84 else 0x85
         let s := code s opc w
         let on := ring s r i j 0
         let full := ring s r i j 15
         let p := on.ringPush r i j 0 false (toWords 8 (on.localBytes 0 0 64))
         issues s opc w f grp && issues on opc w f grp && issues full opc w f grp && !s.ringOn r i j && on.ringOn r i j &&
           !on.ringFull r i j && full.ringOn r i j && full.ringFull r i j && localCause ((grp.av w 0).toNat : Int) 64 == none &&
           p.2.isNone && decide (p.1.group 0 0 = some grp)) = true := by decide +kernel

theorem witness_NamedBarriers :
    (let f : Form := { imm := true, plain := true }
     let w := { fits f with imm := 15 }
     ([0x78, 0x79].all fun opc =>
       let s := code (two ready grp { grp with index := 1 }) opc w
       let t := code (at_ ready grp) opc w
       issues s opc w f grp && runsB s 0 0 (blk [0, 1]) && issues t opc w f grp &&
         decide (s.blockOf 0 grp.block = some (blk [0, 1])) && decide (t.blockOf 0 grp.block = some (blk [0]))) &&
       grp.stack.isEmpty && grp.active == grp.live && grp.live != 0 && decide (grp.wait = .none)) = true := by decide +kernel

theorem witness_GroupsLeaveTheirSlots :
    (let s := code (at_ ready grp) 0x9E (fits {})
     let p := { grp with state := .parked }
     let h := { grp with state := .halted }
     let t := two ready p { grp with index := 1 }
     let u := two ready h { grp with index := 1 }
     issues s 0x9E (fits {}) {} grp && grp.exec (fits {}) == grp.live && grp.live != 0 && grp.stack.isEmpty && !grp.badDesc && grp.outstanding == 0 &&
       decide (s.blockOf 0 grp.block = some (blk [0])) &&
       t.logicalOf 0 == some 0 && t.phys 0 == 0 && decide (t.group 0 0 = some p) && runsB t 0 0 (blk [0, 1]) &&
       t.writable 0 (Reg.addr .CORE_GCTL 0 0) && decide (u.group 0 0 = some h) && t.coreRuns 0 && !t.debugMode 0 &&
       t.fld F.CORE_FAULTCTL_PARKTO 0 != 0 &&
       decide (((t.core 0).items.find? fun j => j.id == 0) = some item)) = true := by decide +kernel

theorem witness_ProbeAndTrap :
    ([(0x9D, false), (0x9F, true)].all fun (opc, imm) =>
       let f : Form := { imm := imm }
       let off := { fits f with ps := 1 }
       let s := code (at_ ready grp) opc (fits f)
       issues s opc (fits f) f grp && grp.exec (fits f) != 0 && !s.saf.overflow && decide (2 ≤ s.erFree) && !s.inStep &&
         runs (at_ ready grp) opc off f grp && grp.exec off == 0) = true := by decide +kernel

/-- Beside the first GiB, one page of it that is frozen, at VA 2^30, and the first GiB of host memory behind port 0. -/
def mappedMore (s : State) : State :=
  let put (t : State) (pa v : Nat) : State := t.setHbmBytes ((List.range 8).map fun i => t.paKey (pa + i)) (toBytes 8 v)
  put (put s 0x10800 0x11001) 0x11008 0x3D

theorem witness_GlobalLoads_peers :
    ([(0x52, 0xF), (0x54, 0xFFFF)].all fun (opc, mods) =>
      let f : Form := { d := .reg, a := .pair, imm := true, mods := mods }
      let x := one (5 * 2 ^ 48)
      let w := fits f
      let s := code (at_ ready x) opc w
      let full := code ((at_ ready x).modNet fun n => { n with reads := List.replicate 2048 (0, 5, 0) }) opc w
      let y := one (2 ^ 40)
      let bad := code (at_ ready y) opc w
      let sent := s.loadPeers 0 0 [(0, 5 * 2 ^ 48)] []
      issues s opc w f x && x.lanes w == [0] && x.globalAddr w 0 w.imm.toInt == 5 * 2 ^ 48 && gNode (5 * 2 ^ 48) != s.node &&
        s.globalCause 0 (5 * 2 ^ 48) 1 == none && decide (s.net.reads.length + 1 ≤ 2048) && decide (sent.1.group 0 0 = some x) &&
        sent.2.length == 1 && issues full opc w f x && full.node == s.node && decide (2048 < full.net.reads.length + 1) &&
        issues bad opc w f y && y.globalAddr w 0 w.imm.toInt == 2 ^ 40 && bad.globalCause 0 (2 ^ 40) 1 == none &&
        !okRead (bad.loadOwn 0 1 [(0, 2 ^ 40)] []) && decide ((bad.loadOwn 0 1 [(0, 2 ^ 40)] []).1.group 0 0 = some y) &&
        !(bad.loadOwn 0 1 [(0, 2 ^ 40)] []).1.saf.overflow && decide (2 ≤ (bad.loadOwn 0 1 [(0, 2 ^ 40)] []).1.erFree))
      = true := by decide +kernel

theorem witness_GlobalStores_places :
    ([(0x53, 0xF), (0x55, 0xFFFF)].all fun (opc, mods) =>
      let w := fits { a := .pair, b := .reg, imm := true, mods := mods }
      let at1 (va : Nat) (u : Bool) : State × Group :=
        let x := { one va with stream := if u then .u else .f }
        (code (at_ (mappedMore ready) x) opc w, x)
      let good (p : State × Group) (va : Nat) : Bool :=
        issues p.1 opc w (storeForm w mods) p.2 && p.2.lanes w == [0] && p.2.globalAddr w 0 w.imm.toInt == va &&
          p.1.globalCause 0 va 1 == none
      let wr (p : State × Group) (va : Nat) : State × Option MErr := p.1.write 0 p.2.upd va [0]
      let peer := at1 (5 * 2 ^ 48) false
      let host := at1 (2 ^ 47) false
      let frozen := at1 (2 ^ 30) true
      let bad := at1 (2 ^ 40) false
      good peer (5 * 2 ^ 48) && gNode (5 * 2 ^ 48) != peer.1.node &&
        good host (2 ^ 47) && (wr host (2 ^ 47)).2 == none && decide ((wr host (2 ^ 47)).1.group 0 0 = some host.2) &&
        good frozen (2 ^ 30) && (wr frozen (2 ^ 30)).2 == some (.mmu 5) &&
        good bad (2 ^ 40) && (wr bad (2 ^ 40)).2 == some (.mmu 1) && decide ((wr bad (2 ^ 40)).1.group 0 0 = some bad.2))
      = true := by decide +kernel

theorem witness_LocalAtomics_places :
    (atomOps.all fun e => [false, true].all fun wide =>
      let w : IFields := { fits {} with imm := if wide then 0x8000 else 0, d := 2, a := 4, b := 6, c := if e.useC then 8 else 0 }
      [(2 ^ 13, true), (2 ^ 47, false), (2 ^ 40, false)].all fun (va, ok) =>
        let x := one va
        let s := code (at_ (mappedMore ready) x) e.opcode w
        let r := s.rmw 0 x va (if wide then 8 else 4) false fun old => old + 1
        issues s e.opcode w (atForm w e.useC) x && x.lanes w == [0] && !sysRelease w && w.imm.getLsbD 15 == wide &&
          x.globalAddr w 0 (signed 14 w.imm.toNat) == va && va % 8 == 0 && otherCluster 0 va == false && gNode va == s.node &&
          okRead r == ok && decide (r.1.group 0 0 = some x)) = true := by decide +kernel

/-! ### Where the instructions trap -/

theorem witness_IntegerInstructions_illegal :
    (let bad (opc : Nat) (f : Form) : Bool :=
       let w := { fits f with d := 200 }
       let s := code (at_ ready grp) opc w
       reaching s opc w grp && !f.legal grp.nregs w && !s.saf.overflow && decide (2 ≤ s.erFree)
     ((intOps ++ floatOps).all fun e => bad e.opcode e.form) && (predOps.all fun e => bad e.opcode { e.form with d := .reg }) &&
       atomOps.all fun e =>
         let w : IFields := { fits {} with d := 200, a := 4, b := 6 }
         let s := code (at_ ready grp) e.opcode w
         reaching s e.opcode w grp && !(atForm w e.useC).legal grp.nregs w && !s.saf.overflow && decide (2 ≤ s.erFree)) = true := by
  decide +kernel

theorem witness_PlainControl_trap :
    (let f : Form := { a := .reg, mods := 0xF, plain := true }
     let w := { fits f with md := 3 }
     let t : Form := { imm := true, plain := true }
     let y := { grp with badDesc := true }
     let h : Form := { d := .reg, imm := true }
     canTrap (at_ ready grp) 0x89 w f grp && (lanesOf grp.active).head? == some 0 && !coarseOk (grp.av w 0) &&
       canTrap (at_ ready y) 0x81 (fits t) t y && canTrap (at_ ready grp) 0x15 { fits h with imm := 11 } h grp) = true := by
  decide +kernel

theorem witness_JumpsAndCalls_trap :
    (let f : Form := { b := .bits, c := .bits, imm := true }
     let w := { fits f with ps := 1 }
     let e : StackEntry := { kind := .merge, pc := 0, mask := 0, bar := none }
     let x := { grp.setPred 3 1 true with stack := List.replicate 31 e }
     let r : Form := { a := .pair, plain := true }
     let y := { grp.setReg 0 4 4 with active := 1, live := 1 }
     let z := grp.setReg 0 4 8
     canTrap (at_ ready x) 0x90 w f x && x.exec w != x.active && x.exec w != 0 &&
       canTrap (at_ ready y) 0x91 (fits r) r y && (y.pair 0 4).toNat == 4 && (lanesOf y.active) == [0] &&
       canTrap (at_ ready z) 0x91 (fits r) r z && z.pair 0 4 != z.pair 1 4) = true := by decide +kernel

theorem witness_LocalLoadsAndStores_trap :
    ([(3, 1, 2), (0, 0xA00000, 3)].all fun (l, a, cause) =>
      let x := grp.setReg l 4 (BitVec.ofNat 32 a)
      let fl : Form := { d := .reg, a := .reg, imm := true, mods := 0xFF }
      let fs : Form := { a := .reg, b := .reg, imm := true, mods := 0xF }
      let w := { fits fl with md := 1 }
      let v := { fits fs with md := 1 }
      canTrap (at_ ready x) 0x50 w fl x && canTrap (at_ ready x) 0x51 v fs x && (x.lanes v).head? == some 0 &&
        ((x.lanes w).findSome? fun l => localCause (x.localAddr w l) 2) == some cause &&
        ((x.lanes v).findSome? fun l => localCause (x.localAddr v l) 2) == some cause) = true := by decide +kernel

theorem witness_GlobalLoads_trap :
    ([(win + 1, 2), (win + 2 ^ 26, 3)].all fun (va, cause) =>
      let x := one va
      let f : Form := { d := .reg, a := .pair, imm := true, mods := 0xF }
      let w := { fits f with md := 1 }
      [(0x52, 0xF), (0x54, 0xFFFF)].all fun (opc, mods) =>
        canTrap (at_ ready x) opc w { f with mods := mods } x && x.lanes w == [0] &&
          ready.globalCause 0 (x.globalAddr w 0 w.imm.toInt) 2 == some cause) = true := by decide +kernel

theorem witness_GlobalStores_trap :
    ([(win + 1, 2), (2 ^ 48 + win, 3)].all fun (va, cause) =>
      let x := one va
      let w := { fits { a := .pair, b := .reg, imm := true, mods := 0xF } with md := 1 }
      [(0x53, 0xF), (0x55, 0xFFFF)].all fun (opc, mods) =>
        canTrap (at_ ready x) opc w (storeForm w mods) x && x.lanes w == [0] &&
          ready.globalCause 0 (x.globalAddr w 0 w.imm.toInt) 2 == some cause) = true := by decide +kernel

theorem witness_LocalAtomics_trap :
    (let f : Form := { d := .reg, a := .pair, b := .reg, imm := true, mods := 0xFFFF }
     ([win + 2, 5 * 2 ^ 48, win + 2 ^ 26].all fun va =>
       let x := one va
       (atomOps.all fun e => [false, true].all fun wide =>
         let w : IFields := { fits {} with imm := if wide then 0x8000 else 0, d := 2, a := 4, b := 6, c := if e.useC then 8 else 0 }
         canTrap (at_ ready x) e.opcode w (atForm w e.useC) x && x.lanes w == [0] && !sysRelease w &&
           x.globalAddr w 0 (signed 14 w.imm.toNat) == va) &&
         canTrap (at_ ready x) 0x66 (fits f) f x) &&
       canTrap (at_ ready grp) 0x66 { fits f with imm := 0x8000 } f grp) = true := by decide +kernel

theorem witness_DescriptorsAndRequests_trap :
    (let t : Form := { a := .reg, imm := true, plain := true }
     let r : Form := { d := .reg, a := .reg, imm := true, plain := true }
     let u := { grp with stream := .u }
     let x := grp.setReg 0 4 1
     canTrap (at_ ready u) 0x80 (fits t) t u && canTrap (at_ ready x) 0x80 (fits t) t x && (lanesOf x.active).head? == some 0 &&
       localCause (x.localAddr (fits t) 0) 64 == some 2 &&
       ([0, 22].all fun n => canTrap (at_ ready grp) 0x84 { fits r with imm := n } r grp) &&
       canTrap (at_ ready x) 0x84 { fits r with imm := 21 } r x && canTrap (at_ ready x) 0x85 (fits r) r x &&
       localCause ((x.av (fits r) 0).toNat : Int) 64 == some 2) = true := by decide +kernel

theorem witness_NamedBarriers_trap :
    (let f : Form := { imm := true, plain := true }
     let w := { fits f with imm := 15 }
     let x := { grp with stack := [{ kind := .pending, pc := 0, mask := 2, bar := some 0 }] }
     let s := two ready x { grp with index := 1 }
     canTrap s 0x78 w f x && runsB s 0 0 (blk [0, 1]) && !s.blockStopped 0 (blk [0, 1]) &&
       decide (s.blockOf 0 x.block = some (blk [0, 1]))) = true := by decide +kernel

theorem witness_GroupsLeaveTheirSlots_waits :
    (let x := { grp with badDesc := true }
     let y := { grp with outstanding := 1 }
     let off : IFields := { fits {} with ps := 1 }
     runs (at_ ready grp) 0x9E off {} grp && grp.exec off == 0 && canTrap (at_ ready x) 0x9E (fits {}) {} x &&
       x.exec (fits {}) != 0 && runs (at_ ready y) 0x9E (fits {}) {} y && y.exec (fits {}) != 0 && !y.badDesc) = true := by
  decide +kernel

theorem witness_PlainControl_owed :
    ([(0x7A, { mods := 0xFFF0 : Form }, (7 : BitVec 4)), (0x55, storeForm { fits {} with md := 12 } 0xFFFF, 12)].all fun (opc, f, md) =>
       let w := { fits f with md := md }
       let x := { one win with peerLast := [(5, 5 * 2 ^ 48)], peerRoute := [(5, (0, false, 0))] }
       let y := { x with peerRoute := [] }
       let s := code (at_ ready x) opc w
       let full := code ((at_ ready x).modNet fun n => { n with reads := List.replicate 2048 (0, 5, 0) }) opc w
       let back := s.readBacks 0 0 x (x.owed (x.exec w)) []
       issues s opc w f x && decide (x.owed (x.exec w) = [(5, 5 * 2 ^ 48)]) && (opc != 0x7A || sysRelease w) &&
         decide (s.net.reads.length + 1 ≤ 2048) && decide (back.1.group 0 0 = some x) && back.2.length == 1 &&
         issues full opc w f x && decide (2048 < full.net.reads.length + 1) &&
         canTrap (at_ ready y) opc w f y && decide (y.owed (y.exec w) = [(5, 5 * 2 ^ 48)])) = true := by decide +kernel

/-- What a failed read of a host leaves as it was. -/
theorem readFailed_saf (s : State) (p : Nat) : (s.readFailed p).saf = s.saf ∧ (s.readFailed p).regs = s.regs := by
  unfold State.readFailed
  split <;> exact ⟨rfl, rfl⟩

theorem witness_GlobalLoads_more :
    (let o : LoadOp := { d := 2, size := 2, opc := 0x52, lanes := [(0, 0x800000000000)], ids := [], got := [(0, 5)] }
     let y := { grp with state := .blocked, wait := .load, load := some o }
     let t := at_ ready y
     o.fromHost && decide (t.group 0 0 = some y) && t.coreRuns 0 && !t.saf.overflow && decide (2 ≤ t.erFree) && [(0x52, 0xF), (0x54, 0xFFFF)].all fun (opc, mods) =>
         let f : Form := { d := .reg, a := .pair, imm := true, mods := mods }
         let w := { fits f with ps := 1 }
         runs (at_ ready grp) opc w f grp && grp.exec w == 0) = true := by decide +kernel

theorem witness_LocalLoadsAndStores_partly :
    (let x := grp.setReg 3 4 1
     let f : Form := { a := .reg, b := .reg, imm := true, mods := 0xF }
     let w := { fits f with md := 1 }
     let s := code (at_ ready x) 0x51 w
     issues s 0x51 w f x && ((x.lanes w).find? fun l => (localCause (x.localAddr w l) 2).isSome) == some 3 && !s.inStep &&
       !s.saf.overflow && decide (2 ≤ s.erFree)) = true := by decide +kernel

theorem witness_GlobalStores_partly :
    ([(0x53, 0xF), (0x55, 0xFFFF)].all fun (opc, mods) =>
      let x := { ((one win).setReg 1 4 (BitVec.ofNat 32 (win + 1))).setReg 1 5 (BitVec.ofNat 32 (win / 2 ^ 32)) with
        active := 3, live := 3 }
      let w := { fits { a := .pair, b := .reg, imm := true, mods := 0xF } with md := 1 }
      let s := code (at_ ready x) opc w
      let r := s.write 0 x.upd win [0, 0]
      issues s opc w (storeForm w mods) x && x.lanes w == [0, 1] && x.globalAddr w 0 w.imm.toInt == win &&
        s.globalCause 0 win 2 == none && s.globalCause 0 (x.globalAddr w 1 w.imm.toInt) 2 == some 2 && r.2.isNone &&
        decide (r.1.group 0 0 = some x) && r.1.node == s.node && !r.1.saf.overflow && decide (2 ≤ r.1.erFree)) = true := by
  decide +kernel

theorem witness_NamedBarriers_paths :
    (let f : Form := { imm := true, plain := true }
     let w := { fits f with imm := 15 }
     let pending : StackEntry := { kind := .pending, pc := 64, mask := 2, bar := none }
     let merge : StackEntry := { kind := .merge, pc := 128, mask := 3, bar := none }
     let x := { grp with stack := [pending, merge] }
     let s := two ready x { grp with index := 1 }
     let y := { grp with index := 1, state := .blocked, wait := .barrier 0 }
     let d := two ready grp y
     let c := code d 0x78 w
     runs s 0x78 w f x && runsB s 0 0 (blk [0, 1]) && topMerge [merge] != some pending.pc &&
       runs d 0x78 w f grp && decide (c.group 0 1 = some y) && decide (c.blockOf 0 0 = some (blk [0, 1])) && y.live != 0 &&
       !c.saf.overflow && decide (4 ≤ c.erFree)) = true := by decide +kernel

/-! ## The front end of a core (spec/07) -/

theorem witness_WorkItemsAndTails :
    (let item (w : List DWord) : State := (ring ready passRing 0 0 1).put 0 0 (ofWords w)
     let l : DWord := BitVec.ofNat 64 (2 ^ 56)
     let s := ring ready passRing 79 2 0
     ([([0], 0, false), ([l, BitVec.ofNat 64 (2 ^ 48 + 4 * 2 ^ 40)], 1, false), ([l, 0], 1, true),
        ([BitVec.ofNat 64 (2 * 2 ^ 56)], 2, true)].all fun e =>
       match (item e.1).ringRead passRing 0 0 0 with
       | (s1, .ok r) => (item e.1).takesItems 0 .f && s1.avail 0 && s1.phys 0 == 0 && itemKind r == e.2.1 &&
           (itemKind r != 1 || launchBad r == e.2.2)
       | _ => false) &&
       (let t := (item [BitVec.ofNat 64 (2 * 2 ^ 56)]).modCore 0 fun k => { k with items := [Tests.item], nextItem := 1 }
        t.takesItems 0 .f && (t.core 0).items.all fun j => !j.mark && j.id < 1) &&
       s.writable 0 (Reg.addr .CORE_PSTAIL 79 2) && !s.progLoaded && s.ringSize passRing 79 2 == 16 &&
       s.ringSize passRing 79 2 ≤ (4095 : Word).toNat % 4096 &&
       (s.logicalOf 78).isSome) = true := by decide +kernel

theorem witness_BlocksStart :
    (let i := { item with started := 0 }
     let s := ready.modCore 0 fun k => { k with items := [i] }
     s.coreRuns 0 && decide ((s.core 0).waiting .f = some i) && (s.core 0).fits i && (s.core 0).lmemFit 256 == some 0 &&
       ((turnBefore (s.core 0).lastFreed .f).all fun t => ((s.core 0).waiting t).isNone) &&
       (s.core 0).freeSlots[0]? == some 0) = true := by decide +kernel

theorem witness_GroupsAreDebugged :
    (let p := { grp with state := .parked }
     let h := { grp with state := .halted }
     let d := at_ (ready.setFld F.CORE_FAULTCTL_MODE 1 0) h
     let s := (at_ ready p).setReg .CORE_DBGSEL 0 0 0
     let t := (at_ ready p).setReg .CORE_DBGSEL 0 0 0xC0000400
     decide ((at_ ready p).group 0 0 = some p) && p.live == p.lanesLeft && h.live == h.lanesLeft && d.flag F.CORE_FAULTCTL_MODE 0 && decide (d.group 0 0 = some h) &&
       !grp.stepping && ready.writable 0 (Reg.addr .CORE_FECTL 0 0) && ready.writable 0 (Reg.addr .CORE_GCTL 0 0) &&
       s.writable 0 (Reg.addr .CORE_DBGDATA 0 0) && F.CORE_DBGSEL_CLASS.of (s.reg .CORE_DBGSEL 0 0) == 0 &&
       decide (F.CORE_DBGSEL_INDEX.of (s.reg .CORE_DBGSEL 0 0) < p.nregs) && F.CORE_DBGSEL_GROUP.of (s.reg .CORE_DBGSEL 0 0) == 0 &&
       F.CORE_DBGSEL_CLASS.of (t.reg .CORE_DBGSEL 0 0) == 3 && F.CORE_DBGSEL_INDEX.of (t.reg .CORE_DBGSEL 0 0) == 1 &&
       F.CORE_DBGSEL_GROUP.of (t.reg .CORE_DBGSEL 0 0) == 0) = true := by decide +kernel

/-- A parked group whose masks were written: its live mask differs from its lanes, and its block is held. -/
theorem witness_GroupsAreDebugged_masks :
    ([GState.parked, .halted].all fun st =>
       let x := { grp with state := st, active := 3 }
       let s := two ready x { grp with index := 1 }
       let d := (at_ ready x).setFld F.CORE_FAULTCTL_MODE 1 0
       x.lanesLeft != 0 && x.lanesLeft != x.live && decide (s.group 0 0 = some x) && decide (s.blockOf 0 x.block = some (blk [0, 1])) &&
         runsB s 0 0 (blk [0, 1]) && decide (d.group 0 0 = some x) && decide (d.blockOf 0 x.block = some (blk [0])) &&
         d.flag F.CORE_FAULTCTL_MODE 0 && [false, true].all fun b =>
           (Group.settle { x with state := .running, stepping := b, live := x.lanesLeft }).state == .running) = true := by
  decide +kernel

/-! ## Matrix engines (spec/03, spec/04) -/

theorem witness_DescriptorsAreTaken :
    ([([0, 0, 0, 0, 0, 0, 0, 0], 0, 0), (mmaWords, 1, 0), (mmaWords.set 1 0, 1, 1),
      ((mmaWords.set 0 (nth 0 mmaWords 0 - BitVec.ofNat 64 (2 ^ 35))).set 1 (BitVec.ofNat 64 (2 ^ 48 + 2 ^ 32 + 32 * 2 ^ 16)), 1, 0)
      ].all fun (ws, op, st) =>
      let s := engine ready [desc ws]
      let d := readDesc ws
      decide (s.takes 0 .f = some (desc ws)) && d.cplOk && d.op == op && (op == 0 || d.check ((s.eng 0 .f).bank d.bank) == st) &&
        (st != 0 || op == 0 || d.k != 0) && (s.blotSources d.tensor).isNone) = true := by decide +kernel

/-- Fresh drained products of B16 operands into W32 and of F8 operands into B16, and an MMA that neither accumulates nor drains. -/
theorem witness_DescriptorsAreTaken_forms :
    (let w32 := mmaWords.set 0 (BitVec.ofNat 64 (0x01222308 * 2 ^ 32))
     let f8 := (mmaWords.set 0 (BitVec.ofNat 64 (0x01002308 * 2 ^ 32))).set 6
       (BitVec.ofNat 64 (0x800 * 2 ^ 12 + 0x600 * 2 ^ 32 + 0x700 * 2 ^ 48))
     let noK := (mmaWords.set 0 (BitVec.ofNat 64 (0x01222300 * 2 ^ 32))).set 1 (BitVec.ofNat 64 (2 ^ 48 + 2 ^ 32))
     let withSources (s : State) : State := (s.modSeq fun q => q.withProg (some { prog with
       tensors := [{ id := 0, pickle := 0, spill := 0, area := 0, srcA := 0x40000, srcB := 0x50000 }] })).setFld F.NUM_BLCTL_ENABLE 1
     let takes (s : State) (ws : List DWord) : Bool :=
       decide (s.takes 0 .f = some (desc ws)) && (readDesc ws).cplOk && (readDesc ws).op == 1 &&
         (readDesc ws).check ((s.eng 0 .f).bank (readDesc ws).bank) == 0 && s.saf.sram.isEmpty
     let d := readDesc w32
     let s := withSources (engine ready [desc f8])
     takes (engine ready [desc w32]) w32 && d.afmt == 2 && d.bfmt == 2 && d.dfmt == 3 && d.noC && !d.accm && d.drain && d.k == 1 &&
       d.m == 1 && d.n == 1 && d.batch == 1 && takes (engine ready [desc noK]) noK && (readDesc noK).k == 0 && !(readDesc noK).drain &&
       takes s f8 && s.eligible (readDesc f8) && s.blotSources (readDesc f8).tensor == some (0x40000, 0x50000)) = true := by
  decide +kernel

theorem witness_DescriptorsComplete :
    (let q := { desc mmaWords with taken := true }
     let x := { grp with outstanding := 1 }
     let s := engine (at_ ready x) [q]
     s.diesUp && (s.core 0).moving.isNone && decide ((s.eng 0 .f).queue = [q]) && (s.eng 0 .f).recomp.isEmpty &&
       !(s.eng 0 .f).failing && (readDesc q.words).cplOk && decide (s.group 0 0 = some x) && !x.killed &&
       decide (x.wait = .none) && (s.core 0).groups.all fun k => k.2.wait != .tissue) = true := by decide +kernel

theorem witness_EnginesAreChecked :
    (let q := { desc mmaWords with taken := true }
     let s := engine (at_ ready grp) [q]
     let m : NibMismatch := { row := 0, col := 0, block := 0, chunk := 0, rowMask := 1, colMask := 1, residue := false }
     let d := readDesc q.words
     let y : Recomp := ⟨m, 0, 0⟩
     let s2 := s.modEng 0 .f fun x => { x with recomp := [y] }
     let top : BlotSample := ⟨7, 31, false⟩
     let nan : BlotSample := ⟨0, 0, true⟩
     (ready.eng 0 .f).queue.isEmpty && ready.fld F.CORE_MXCTL_IDLE 0 != 0 && m.ok .f &&
       (s.slot 0).logicalCol .f 0 0 == some 0 && (d.nibOrigin .f 0 0 0).isSome && decide (m.chunk < tilesOf d.k) && d.op == 1 &&
       decide ((s2.eng 0 .f).recomp = [y]) && !(s.slot 0).spareUsed .f 0 &&
       decide (nth [] (ready.blot.set 15 [top]) 15 = [top]) && decide (nth [] (ready.blot.set 0 [nan]) 0 = [nan])) = true := by
  decide +kernel

/-! ## Memory-side engines (spec/05) -/

/-- Words of an MSE command: opcode, formats, mode, source, destination, scale planes, tiles; without a record. -/
def mseWords (op sf df mode src dst ssp dsp tiles : Nat) : List DWord :=
  [BitVec.ofNat 64 (op * 2 ^ 56 + sf * 2 ^ 52 + df * 2 ^ 48 + mode * 2 ^ 32 + tiles), BitVec.ofNat 64 src, BitVec.ofNat 64 dst,
   BitVec.ofNat 64 ssp, BitVec.ofNat 64 dsp, 0x3F80000000000000, 0, BitVec.ofNat 64 noAddr]

/-- The command alone in ring 0 of die 0. -/
def mseState (w : List DWord) : State := (ring ready mseRing 0 0 1).put 0 0 (ofWords w)

/-- The state in which the die runs the command at the head of its ring: fetched, its record's address and its ranges walked. -/
def mseHead (s : State) (w : List DWord) : Option State :=
  match s.mseFetch 0 0 with
  | (s0, some (v, .ring)) =>
    if v != w then none
    else match s0.cplCheck 0 (readMseCmd v).cpl with
      | (s2, none) => let y := s2.mseWalks 0 (readMseCmd v); if y.2 then none else some y.1
      | _ => none
  | _ => none

/-- The die takes the command next. -/
def mseTakes (s : State) (w : List DWord) : Bool := s.mseTurn 0 0 && (mseHead s w).isSome

/-- It takes it and its checks give the answer. -/
def mseChecks (w : List DWord) (st : Option (Nat × Option (Nat × Nat))) : Bool :=
  (mseState w).mseTurn 0 0 && decide ((mseHead (mseState w) w).map (·.mseCheck 0 (readMseCmd w)) = some st)

/-- AMAX, ENCODE, WIDEN, FILL and COPY of one tile. -/
def tensorWords : List (List DWord) :=
  [mseWords 1 2 0 0 0x30000 0 0 0 1, mseWords 2 2 0 0 0x30000 0x60000 0 0x90000 1, mseWords 3 0 2 0 0x30000 0x60000 0x90000 0 1,
   mseWords 4 0 2 0 0 0x60000 0 0 1, mseWords 5 2 2 0 0x30000 0x60000 0 0 1]

/-- A range at DSTADDR 0x60000 with no contributions. -/
def range : ARange := ⟨0x60000, 1, 2, [0], 0, 0, [], none, [], false, []⟩

/-- A result that awaits its record. -/
def mseDone (is : Issuer) : MseDone :=
  { op := 0, cpl := 0x4000, value := 0, count := 0, status := 0, flags := 0, nonfin := false, node := 0, offset := 0, issuer := is, noRecord := false }

theorem witness_MseChecksAndRecords :
    (mseTakes (mseState (mseWords 0 0 0 0 0 0 0 0 0)) (mseWords 0 0 0 0 0 0 0 0 0) &&
      mseTakes (mseState (mseWords 7 0 0 0 0 0 0 0 0)) (mseWords 7 0 0 0 0 0 0 0 0) &&
      ([1, 2, 3, 4, 5, 6, 0x10].all fun op =>
        let w := mseWords op 15 15 15 0 0 0 0 0
        (mseState w).mseTurn 0 0 && match (mseHead (mseState w) w).map (·.mseCheck 0 (readMseCmd w)) with
          | some (some (st, none)) => st != 0
          | _ => false) &&
      ready.mseRuns && ready.writable 0 (Reg.addr .MSE_RTAIL 5 3) &&
      ([.ring, .seq (.zero 0), .queue 0 0 0].all fun is => decide (((ready.modMse 5 fun m => { m with done := [(3, mseDone is)] }).mse 5).done =
        [(3, mseDone is)])) &&
      (let p := packet PT.contrib
       decide (((ready.modMse 0 fun m => { m with held := [(0, p)] }).mse 0).held = [(0, p)]))) = true := by decide +kernel

theorem witness_TensorCommands : (tensorWords.all fun w => mseChecks w none) = true := by decide +kernel

theorem witness_TensorCommands_hist :
    (mseChecks (mseWords 6 2 0 0 0x30000 0 0 0 1) none && mseChecks (mseWords 6 2 0 1 0x30000 0x60000 0 0 1) none) = true := by
  decide +kernel

theorem witness_TensorCommands_tiles :
    (((tensorOps.zip tensorWords).filter fun e => e.1.op == 1 || e.1.op == 4).all fun (e, w) =>
        let c := readMseCmd w
        c.op == e.op && match e.fetch 0 c (mseState w) 0 with
        | (s1, .ok (b, x)) => (e.puts c s1 0 b x).all fun p => ((s1.write (agentMse 0) c.upd p.1 p.2).2).isNone
        | _ => false) = true := by decide +kernel

theorem witness_RangeCommands :
    (let o := mseWords 0x10 0 2 0 0 0x60000 0 0 1
     let s := mseState o
     let s1 := (mseHead s o).getD s
     let full := s.setFld F.MSE_SRAM_FREE 3 0
     let w := s.modMse 0 fun m => { m with openWait := [0] }
     let s0 := w.modMse 0 fun m => { m with openWait := m.openWait.filter (· != 0) }
     let withRange (t : State) : State := t.modMse 0 fun m => { m with ranges := [range] }
     let f := mseWords 0x12 0 0 0 0 0x60000 0 0x30000 0
     let u := withRange (mseState f)
     let u1 := (mseHead u f).getD u
     let b := u1.read (agentMse 0) 0x30000 4
     mseChecks o none && (s1.tilesFor 0 (readMseCmd o)).length == 1 && decide (4 ≤ s1.sramFree 0) && (readMseCmd o).mode == 0 &&
       (s1.mse 0).held.isEmpty && mseTakes full o && decide (full.sramFree 0 < 4) && (w.mse 0).openWait.contains 0 &&
       (w.mse 0).done.isEmpty && s0.ringReady 0 0 && mseTakes s0 o && mseTakes u f && !(readMseCmd f).malformed &&
       decide ((u1.mse 0).rangeNamed 0x60000 = some range) && (u1.extentBad ⟨0x30000, 4, 4, .atomic, true⟩).isNone &&
       ((u1.write (agentMse 0) false 0x60000 (range.tileOut 0).1).2).isNone && okRead b && ((b.1.write (agentMse 0) false 0x30000 (toBytes 4 (withBit 0 0 false))).2).isNone &&
       [mseWords 0x11 0 0 0 0 0x60000 0 0 0, mseWords 0x13 0 0 0 0 0x60000 0 0 0].all fun c =>
         mseTakes (withRange (mseState c)) c && mseTakes (mseState c) c && !(readMseCmd c).malformed) = true := by
  decide +kernel

/-! ## DMA channels (spec/05) -/

/-- Words of a DMA descriptor: opcode, format, tile rows and columns, source, destination, length. -/
def dmaWords (op fmt tr tc src dst len : Nat) : List DWord :=
  [BitVec.ofNat 64 (op * 2 ^ 56 + fmt * 2 ^ 52 + tr * 2 ^ 32 + tc * 2 ^ 16), BitVec.ofNat 64 src, BitVec.ofNat 64 dst,
   BitVec.ofNat 64 (len * 2 ^ 32), BitVec.ofNat 64 (2 ^ 64 - 1), BitVec.ofNat 64 (2 ^ 64 - 1), 0x8000, 7]

/-- The descriptor alone in the ring of channel 15, which is on die 0. -/
def dmaState (w : List DWord) : State := (ring ready dmaRing 15 0 1).put 0 0 (ofWords w)

/-- The channel takes the descriptor, and its checks give the answer. -/
def dmaTakes (w : List DWord) (st : Option Nat) : Bool :=
  let s := dmaState w
  match s.ringRead dmaRing 15 0 (agentDma 15) with
  | (s0, .ok v) =>
    let s2 := (s0.ringPop dmaRing 15 0).modDma 15 fun d => { d with turn := 1 }
    s.dmaIdle 15 && s.dmaNext 15 == some 0 && (s.dma 15).seqQ.isEmpty && !(s.dma 15).stopped && s.ringHas dmaRing 15 0 && v == w &&
      (match s2.dmaCplCheck (readDmaCmd v).cpl with
       | (s3, none) =>
         let y := (s3.setFld F.DMA_CHSTAT_BUSY 1 15).dmaWalks (readDmaCmd v)
         !y.2 && decide (y.1.dmaCheck 15 (readDmaCmd v) = st.map fun n => (n, none))
       | _ => false)
  | _ => false

theorem witness_DmaTransfers :
    (let w := dmaWords 1 0 0 0 0x30000 0x60000 256
     let far := dmaWords 1 0 0 0 (2 ^ 48) 0x60000 256
     let moves (w : List DWord) := (dmaState w).dmaMoves 15 (readDmaCmd w)
     let b := { DmaBusy.fresh (readDmaCmd w) with moved := true, last := [(0x60000, 256)] }
     let s := ready.modDma 15 fun d => { d with busy := some b }
     dmaTakes (dmaWords 0 0 0 0 0 0 0) none && dmaTakes (dmaWords 5 0 0 0 0 0 0) (some 2) && dmaTakes w none &&
       dmaTakes (dmaWords 1 0 0 0 0x30001 0x60000 256) (some 4) && dmaTakes (dmaWords 2 2 1 1 0x30000 0x60000 0) none &&
       dmaTakes (dmaWords 3 2 1 1 0x30000 win 0) none && dmaTakes (dmaWords 4 2 1 1 win 0x60000 0) none && dmaTakes far none &&
       ((moves w).all fun m => m.src.all fun p => !(dmaState w).farGa p.1) &&
       okRead ((dmaState w).fetchPieces 15 [] [(0x30000, 256)]) &&
       (((dmaState w).gaWrite 15 false 0x60000 (List.replicate 256 0)).2).isNone &&
       (((moves far).flatMap (·.src)).any fun p => (dmaState far).farGa p.1) &&
       ready.writable 0 (Reg.addr .DMA_CHTAIL 31 0) && decide ((s.dma 15).busy = some b) &&
       !(s.readBack 15 ((lastBytes 256 b.last).filter fun p => !s.farGa p.1)).2) = true := by decide +kernel

/-! ## Memory (spec/06) -/

theorem witness_TranslationsAndBar4 :
    (let mmu (r : State × Except MErr (List Byte)) : Bool := match r.2 with | .error (.mmu _) => true | _ => false
     let ecc (r : State × Except MErr (List Byte)) : Bool := match r.2 with | .error .ecc => true | _ => false
     let bad := ready.modHbm fun h => { h with poison := [(ready.paKey 0x30000) / 32] }
     ready.writable 1 (Reg.addr .MEM_TLBINV 0 0) == false && ready.writable 0 (Reg.addr .MEM_TLBINV 0 0) &&
       (let t := ready.modHbm fun h => { h with tlbInv := [(5, 0)] }
        t.hbm.tlbInv == [(5, 0)] && !t.underOld) &&
       (let o : LoadOp := { d := 2, size := 2, opc := 0x52, lanes := [(0, 0x5000)], ids := [(3, 0)], got := [] }
        let t := at_ (ready.modHbm fun h => { h with tlbInv := [(5, 1)] }) { grp with state := .blocked, wait := .load, load := some o }
        !t.hbm.tlbInv.isEmpty && t.underOld) &&
       ready.diesUp && decide (7 ≤ ready.pwr.step) && !ready.isRunning && ready.pwr.idleMs != 0 && ready.barLive 0 &&
       decide (0 + 4096 ≤ 2 ^ (ready.port 0).bar4Log) && ready.bar4Ready && okRead (ready.read (agentBar4 0) 0x30000 4) &&
       mmu (ready.read (agentBar4 0) 0x40000000 1) && ecc (bad.read (agentBar4 0) 0x30000 4) && !ready.isStandby 0 &&
       (ready.setFld F.HIF_MODE_FAILOVER 1).isStandby 1 == true &&
       !(ready.modPwr fun p => { p with step := 6 }).bar4Ready) = true := by decide +kernel

theorem witness_ScrubbingAndRetirement :
    (let s := ready.modHbm fun h => { h with retiring := [(11 * 2 ^ 24 + 3, 5)] }
     let bad := ready.modHbm fun h => { h with poison := [11 * 2 ^ 31 + 7] }
     ready.hbmReady && Memory.wf s && (s.hbm.retiring.find? fun x => x.1 == 11 * 2 ^ 24 + 3).isSome && s.hbm.latent.isEmpty &&
       !ready.isPoisoned (3 * 2 ^ 29 - 1) &&
       (Sparse.find ready.hbm.latent (3 * 2 ^ 29 - 1)).isNone && bad.isPoisoned (11 * 2 ^ 31 + 7)) = true := by decide +kernel

/-! ## Morov Links (spec/08) -/

/-- The device at a node, with LNK.NODE latched. -/
def atNode (s : State) (n : Nat) : State :=
  ((s.setFld F.LNK_NODE_CHASSIS (n / 64)).setFld F.LNK_NODE_POS (n % 64)).setFld F.LNK_NODE_POSV 1

/-- A link in a state of Table 8.3, version 2.0. -/
def linked (s : State) (l st : Nat) : State := (s.setFld F.LNK_STAT_STATE st l).setFld F.LNK_STAT_VER 1 l

/-- A flit of a type with a sequence number and otherwise empty, with its CRC. -/
def flitOf (ty seq : Nat) : BitVec 2048 :=
  let w := ty * 2 ^ 60 + seq * 2 ^ 48
  BitVec.ofNat 2048 (w + 2 ^ 64 * crc32 (toBytes 8 w ++ List.replicate 244 0))

theorem witness_LinksTrain :
    (let s := atNode ready 0
     let blk := (atNode ready 1).capBlock 62
     let t := (linked s 0 1).modLink 0 fun x => { x with offered := (linked s 0 1).capBlock 0 }
     let on (n : Nat) := (linked s 94 n).setFld F.LNK_CTL_EN 1 94
     let cap (b : BitVec 128) (f : Cap → Bool) : Bool := match readCap b with | some c => !c.fenced && f c | none => false
     let old := (atNode ready 1).setFld F.LNK_CTL_V12ONLY 1 62
     ready.writable 0 (Reg.addr .LNK_CTL 95 0) && !ready.flag F.LNK_CTL_EN 95 && ready.canTrain 95 && ready.seq.prog.isNone &&
       t.seq.prog.isNone && (linked s 0 1).linkSt 0 != 3 && (linked s 0 2).linkSt 0 == LS.up && s.flag F.LNK_NODE_POSV &&
       ([2, 3, 4].all fun n => (on n).flag F.LNK_CTL_EN 94 && (on n).canTrain 94 && (on n).linkSt 94 == n) &&
       t.inAttempt 0 && t.pwr.lrefclk && (linked s 0 5).inAttempt 0 && (t.link 0).cap.isNone && cap blk (t.capExpected 0) &&
       cap blk (fun c => c.vers &&& (t.link 0).offers.vers != 0) && cap ((atNode ready 2).capBlock 62) (fun c => !t.capExpected 0 c) &&
       cap (old.capBlock 62) (fun c => c.vers &&& (t.link 0).offers.vers == 1) &&
       cap (old.capBlock 62) (fun c => c.vers &&& (Link.offers { t.link 0 with offered := 0 }).vers == 0) && !t.net.leftSafe.contains 0 &&
       ((t.modLink 0 fun x => { x with cap := some blk }).link 0).cap == some blk &&
       ((t.modLink 0 fun x => { x with attempts := 3 }).link 0).attempts == 3 && decide ((t.link 0).attempts < 3) &&
       ((t.modLink 0 fun x => { x with waiting := true }).link 0).waiting && t.linkSt 0 == 1) = true := by decide +kernel

theorem witness_LanesAndFlits :
    (let s := linked ready 95 2
     let spare := s.setFld F.LNK_CTL_SPAREEN 1 95
     let lost (n : Nat) := s.modLink 95 fun x => { x with degraded := List.range n }
     let o := s.modLink 95 fun x => { x with rxLast := some 5, owed := x.owed.set 12 3 }
     let r (n : Nat) := s.modLink 95 fun x => { x with retry := [⟨5, 0, [], []⟩], replayFrom := some 5, replays := n }
     s.linkUp 95 && s.linkV2 95 && s.saf.logicBad.isEmpty && !s.fuses.unwired.contains 47 && s.diesUp && (o.link 95).rxLast == some 5 && (o.link 95).owed[12]? == some 3 &&
       ((List.range 12).all fun i => (o.link 95).owed.getD i 0 == 0) && spare.spareFree 95 && spare.flag F.LNK_CTL_SPAREEN 95 && (spare.link 95).degraded.isEmpty &&
       !((lost 2).link 95).degraded.contains 3 && ((lost 2).link 95).degraded.length == 2 &&
       ((r 7).link 95).retry == [⟨5, 0, [], []⟩] && ((r 0).link 95).replays + 1 == 1 && (s.link 95).rxLast == none) = true := by decide +kernel

theorem witness_LanesAndFlits_flits :
    (flitGood (flitOf 0 0) && flitGood (flitOf 1 0) && !flitGood 1 && dbits (flitW0 (flitOf 2 0xFFF)) 63 60 == 2 &&
      dbits (flitW0 (flitOf 1 0)) 59 48 == 0 && flitGood (flitOf 2 0xFFF)) = true := by decide +kernel

/-- The packet comes in whole, as a test. -/
def arrives (s : State) (l : Nat) (p : Packet) : Bool :=
  decide (l < 96) && s.diesUp && s.linkUp l && s.linkV2 l && !s.unfit l p && !(s.link l).rxBuf.contains p &&
    (List.range 6).all fun k => !(s.mse k).held.contains (l, p)

theorem arrives_sound {s : State} {l : Nat} {p : Packet} (h : arrives s l p = true) : Arrives s l p := by
  simp only [arrives, Bool.and_eq_true, decide_eq_true_eq, Bool.not_eq_true', List.all_eq_true, List.mem_range] at h
  obtain ⟨⟨⟨⟨⟨⟨h1, h2⟩, h3⟩, h4⟩, h5⟩, h6⟩, h7⟩ := h
  exact ⟨h1, h2, h3, h4, h5, h6, h7⟩

def arrivesHere (s : State) (l : Nat) (p : Packet) : Bool := arrives s l p && p.dst.toNat == s.node && !s.safe

/-- Node 0 with local link 0, whose partner is node 1, up at 2.0. -/
def net : State := linked (atNode ready 0) 0 2

/-- A packet from node 1 to node 0 with a payload of whole slots. -/
def from1 (t : BitVec 4) (n : Nat) : Packet :=
  { packet t with src := 1, len := BitVec.ofNat 6 n, payload := List.replicate (16 * n) 0 }

theorem witness_WritesReadsAndTransit :
    (let w := { from1 PT.write 1 with addr := 0x3000, tag := 1 }
     let w2 := { from1 PT.write 2 with addr := 0x3000, tag := 0xFFFF }
     let bad := { from1 PT.write 2 with addr := 0x4000000, tag := 0xFFFF }
     let rd := { from1 PT.read 0 with addr := 0x3000 }
     let resp := { from1 PT.readResp 1 with tag := 7 * 32 }
     let lost := { from1 PT.readResp 2 with tag := 0xFFFF, addr := 0x0E }
     let s := net.modNet fun n => { n with reads := [(7, 1, 0)] }
     let thru := { from1 PT.write 1 with dst := 2, addr := 0x3000 }
     arrivesHere net 0 w && w.len == 1 && arrivesHere net 0 w2 && arrivesHere net 0 bad && arrivesHere net 0 rd && arrivesHere s 0 resp &&
       ([1, 16, 32].all fun n => (net.probe (agentLink 0) false 0x30000 n).2.isNone) &&
       (((net.probe (agentLink 0) false 0x30000 32).1.write (agentLink 0) false 0x30000 [0]).2).isNone &&
       (net.probe (agentLink 0) false 0x40000000 32).2.isSome && okRead (net.read (agentLink 0) 0x30000 16) &&
       (s.net.reads.find? (fun e => e.1 == 7 && some resp.src == some e.2.1)).isSome && arrivesHere net 0 lost &&
       (net.net.selfLost.all fun e => net.notice e.1 e.2 != lost) &&
       ([0, 3, 4].all fun h => arrives net 0 { thru with hops := h }) && thru.dst.toNat != net.node) = true := by decide +kernel

theorem witness_PacketsOfAnExchange :
    (let c := { from1 PT.contrib 8 with addr := 0x6000, tag := 3 }
     let homed (p : Packet) : Option Nat := (net.homeFor 0 (16 * p.addr.toNat)).2
     let s := net.modMse 0 fun m => { m with ranges := [{ range with epoch := 2 }] }
     let ctl (t : BitVec 4) (arg n : Nat) : Packet := { from1 t n with addr := BitVec.ofNat 40 (0x500 + arg) }
     let msg (tag : Nat) : Packet := { from1 PT.message 1 with tag := BitVec.ofNat 16 tag }
     homed c == some 0 && arrivesHere s 0 c && arrivesHere s 0 { c with tag := 1 } && arrivesHere s 0 { c with pf := true } &&
       ((s.mse 0).ranges.find? fun r => r.holds 0x60000).isSome && (net.mse 0).ranges.isEmpty &&
       ([ctl PT.seal 1 0, ctl PT.seal 2 1, ctl PT.seal 3 1, ctl PT.retract 1 0, ctl PT.retract 3 0, ctl PT.resend 1 1,
         ctl PT.barrier 1 0, ctl PT.barrier 2 0, msg msgGathered, msg msgReplaying, msg msgHaltstep, msg 0x8000, msg 0x8001,
         msg 0x80FF].all (arrivesHere net 0)) && (1 : Nat) / 64 == net.chassis) = true := by decide +kernel

/-- The program of two members, nodes 0 and 1, of one shard. -/
def prog2 : Prog := { prog with members := [memberOf 0, memberOf (BitVec.ofNat 64 (2 ^ 48 + 2 ^ 32))] }

/-- A member of it, with SEQ in a state of SEQ.STATE. -/
def memberAt (s : State) (st : Nat) : State := (s.modSeq fun q => q.withProg (some prog2)).setSeqState st

/-- Node 1 with the other end of the link, and a packet from node 0 to it. -/
def net1 : State := linked (atNode ready 1) 62 2
def from0 (t : BitVec 4) (n : Nat) : Packet := { from1 t n with src := 0, dst := 1 }

/-- What the packets of a step do to its members: each case of the sequencer's state. -/
theorem witness_PacketsOfAnExchange_members :
    (let ctl (t : BitVec 4) (arg n : Nat) : Packet := { from1 t n with addr := BitVec.ofNat 40 arg }
     let m := memberAt net SQ.running
     let m1 := (memberAt net1 SQ.running).modSeq fun q => { q with entered := true }
     let bar := m1.modSeq fun q => { q with barrier := some .start, barSent := true }
     let later := (memberAt net SQ.halted).setReg .SEQ_STEP 0 0 1
     let sealed_ := m.modSeq fun q => { q with applied := true }
     let clean := ctl PT.seal 1 0
     let down : Packet := { from0 PT.seal 1 with addr := 3 }
     let far : Packet := { clean with src := 5 }
     match m.ex, m1.ex with
     | some x, some y =>
       arrivesHere m 0 clean && x.isPeer 1 && !m.ahead clean.step && m.inStep && clean.step == BitVec.ofNat 32 m.stepNo &&
         m.ahead (ctl PT.seal 0x501 0).step && arrivesHere m 0 (ctl PT.seal 0x501 0) && arrivesHere m 0 far && !x.isPeer far.src &&
         arrivesHere m1 62 down && m1.isRunning && y.upTo == some down.src && down.step == BitVec.ofNat 32 m1.stepNo && m1.seq.entered &&
         !m1.seq.applied && m1.seq.round == 0 && arrivesHere later 0 (ctl PT.retract 1 0) && (ctl PT.retract 1 0).step == 0 &&
         later.stepNo == 1 && later.seqState == SQ.halted && decide (later.ex = some x) && sealed_.seq.hasSealed && !m.seq.hasSealed &&
         (x.p.children x.me.node).contains 1 && !m.seq.barArrived.contains 1 && arrivesHere m 0 (ctl PT.barrier 1 0) &&
         decide (bar.seq.barrier = some .start) && bar.isRunning && bar.seq.barSent && y.p.parent y.me.node == some 0 &&
         arrivesHere bar 62 { from0 PT.barrier 0 with addr := 2 }
     | _, _ => false) = true := by decide +kernel

/-! ## The sequencer (spec/09) -/

/-- Memory holds the header at 0x100000; the two tables that it names are zero. -/
def withHeader : State := ready.put agentSeq 0x100000 header

/-- A checkpoint of no records for the program: header and trailer. -/
def checkpoint : List Byte :=
  let h := ofWords [BitVec.ofNat 64 (0x434B5054 * 2 ^ 32 + 2 ^ 16), 0, 0, 0, 0, 0, BitVec.ofNat 64 (prog.hcrc.toNat * 2 ^ 32), 0, 0, 0, 0,
    0, 0, 0, 0]
  h ++ toBytes 8 (crc32c h) ++ ckRecord 0 0xFF 0 0 0 []

def hears (s : State) : Bool :=
  s.writable 0 (Reg.addr .SEQ_CMD 0 0) && !s.flag F.SEQ_CMD_BUSY && s.ready && s.wipeMark.isNone

theorem witness_SeqCommandsAreGuarded :
    (let d (w : Nat) : List DWord := [BitVec.ofNat 64 (3 * 2 ^ 56 + w * 2 ^ 32), 0, 0, 0, 0, 0, 0, 0]
     let q (w : Nat) := (ready.setFld F.HIF_QCTL_CQLOG 4 1 255).modPair 1 255 fun x => { x with fetched := [Fetched.fresh 0 0 (d w)] }
     let busy := ready.setFld F.SEQ_CMD_BUSY 1
     let early := ready.setFld F.DBG_DEVSTATE_PHASE 4
     (seqTable.all fun e => (e.2 == 1 || (!seqAccepts e.2 ready.seqState && hears ready)) &&
       ((q e.2).startable 1 255 0 == some (Fetched.fresh 0 0 (d e.2))) && descOp (d e.2) == 3 &&
       dbits (nth 0 (d e.2) 0) 39 32 == e.2 && ((q e.2).descCheck ((q e.2).pair 1 255).abi (d e.2)).isNone &&
       ((q e.2).pair 1 255).abi != 2) && !seqAccepts 1 (seqIn SQ.running).seqState && hears (seqIn SQ.running) &&
       busy.flag F.SEQ_CMD_BUSY && busy.writable 0 (Reg.addr .SEQ_CMD 0 0) && !early.ready && !early.flag F.SEQ_CMD_BUSY &&
       early.writable 0 (Reg.addr .SEQ_CMD 0 0)) = true := by decide +kernel

theorem witness_SeqCommands_load :
    (hears withHeader && seqAccepts 1 withHeader.seqState && headerOk header (toWords 32 header) &&
      (progOf (toWords 32 header)).limitsOk && ready.membersOk prog && prog.buckets.all prog.bucketOk) = true := by decide +kernel

theorem witness_SeqCommands_read :
    (match withHeader.read agentSeq 0x100000 256 with
     | (s1, .ok h) => h == header && (s1.readTables (toWords 32 h) (progOf (toWords 32 h))).2 == some prog
     | _ => false) = true := by decide +kernel

theorem witness_SeqCommands :
    (let s := (seqIn SQ.loaded).put agentSeq 0x108000 checkpoint
     ([SQ.loaded, SQ.running, SQ.paused, SQ.halted].all fun st => hears (seqIn st) && (seqIn st).seqState == st &&
        decide ((seqIn st).seq.prog = some prog)) && seqAccepts 3 SQ.halted && seqAccepts 9 SQ.loaded &&
       match s.ex with
       | some x => (s.readCheckpoint x 0x108000).2.isSome
       | none => false) = true := by decide +kernel

theorem witness_SeqEvents :
    (let run := seqIn SQ.running
     let cnt (u : CntUse) : State := run.modSeq fun q => { q with counters := [{ id := 5, use := u, left := [(3, 0, 4)], status := 0, cores := [(63, 0)] }] }
     let s := run.modSeq fun q => { q with full := true, ckptBusy := true, announce := [(0, 0)], entered := true }
     let x : Ex := { p := prog, me := memberOf 0, rows := prog.rows 0 }
     decide (run.ex = some x) && ([.pass 0 .f, .update 0].all fun u => ((cnt u).incrementDue 3 5).isSome) && run.inStep &&
       s.isRunning && s.allFull prog && !s.seq.applied && s.seq.ckptBusy && s.seq.announce == [(0, 0)] &&
       (s.hostWrote []).writable 0 (Reg.addr .SEQ_DRTAIL 0 0)) = true := by decide +kernel

/-- Halts by cause, and verdicts: with a FAULT, late by the device's own fault, skipping by a mismatch and by a non-finite bucket, and
sealing. -/
theorem witness_SeqEvents_verdicts :
    (let run := seqIn SQ.running
     let own := run.modSeq fun q => { q with own := some { Verdict.ofBytes (List.replicate 16 0) with lsexp := 3 } }
     let late := run.modSeq fun q => { q with faultFlag := true }
     let v : Verdict := Verdict.ofBytes (List.replicate 16 0)
     let lost := { v with fault := true }
     match run.ex with
     | some x =>
       run.inStep && x.p.stepLeader.toNat == run.node && lost.fault && !v.fault && !run.seq.faultFlag && late.seq.faultFlag &&
         !v.mismatch && !v.nonfin && { v with nonfin := true }.nonfin && !run.fallBack &&
         (run.setFld F.NUM_FBSTAT_ACTIVE 1).fallBack && own.seq.own.isSome && (match own.seq.own with | some o => v.lsexp != o.lsexp | none => false) &&
         run.seq.own.isNone && !run.viaHost x.p 1
     | none => false) = true ∧
    (match (memberAt net1 SQ.running).ex with
     | some x => x.p.stepLeader.toNat != (memberAt net1 SQ.running).node
     | none => false) = true := by decide +kernel

theorem witness_SeqEvents_hm :
    (let p := { prog with members := [{ memberOf 0 with hm := true }] }
     let s := (ready.modSeq fun q => { q.withProg (some p) with entered := true }).setSeqState SQ.running
     match s.ex with
     | some x => s.waitsHm x
     | none => false) = true := by decide +kernel

/-! ## Faults, tests and containment (spec/10) -/

theorem witness_SlotsAreTested :
    (let on := ready.setFld F.SAF_IFT_EN 1
     let none_ := ready.setFld F.SAF_CMAP_SPARE 7 15
     let out := ready.modCore 63 fun k => { k with out := true }
     let t := ready.modSlot 79 fun x => { x with testing := true }
     let w := (ready.setIft 2 79).modSlot 79 fun x => { x with tested := true }
     ready.testable && !ready.testOn && !ready.isRetired 79 && ready.iftState != 3 && ready.iftState != 2 && t.saf.unplanned.isEmpty && (on.logicalOf 79).isNone &&
       on.spareOf 15 == some 79 && on.flag F.SAF_IFT_EN && none_.spareOf 15 == none && none_.iftState != 3 &&
       out.logicalOf (out.phys 63) == some 63 && (t.slot 79).testing && !t.clusterBusy 15 && t.spareOf 15 == some 79 &&
       t.saf.waitingCores.isEmpty && w.rotates 63 && w.spareOf 15 == some 79 && w.movable 63 && (w.slot 79).tested &&
       ((ready.modCore 63 fun k => { k with moving := some 79 }).core 63).moving == some 79) = true := by decide +kernel

theorem witness_WatchdogsAndOvercurrent :
    (let b := DmaBusy.fresh (readDmaCmd [0, 0, 0, 0, 0, 0, 0, 0])
     let m := ready.modMse 5 fun m => { m with done := [(3, mseDone .ring)] }
     let e := ready.modEng 63 .b fun x => { x with queue := [desc mmaWords] }
     ready.powered && ready.coreRuns 63 && ready.mseRuns && decide ((at_ ready grp).group 0 0 = some grp) &&
       decide (grp.state = .running) && !(e.eng 63 .b).queue.isEmpty && !(e.eng 63 .b).failing &&
       !(m.mse 5).openWait.contains 3 && decide ((m.mse 5).done = [(3, mseDone .ring)]) &&
       decide (((ready.modDma 15 fun d => { d with busy := some b }).dma 15).busy = some b) && (seqIn SQ.running).isRunning &&
       !ready.debugMode 0 && decide ((at_ ready grp).blockOf 0 0 = some (blk [0])) && ready.pwr.supply != .absent &&
       ready.writable 0 (Reg.addr .SAF_ERHEAD 0 0) &&
       decide (((5 : Word) - (ready.setReg .SAF_ERTAIL 0 0 5).reg .SAF_ERHEAD 0 0).toNat ≤ 5)) = true := by decide +kernel

/-- A lane of pipe 1 that fails, in a slot with its spares and in one without; a word of local memory; the logic of a die. -/
theorem witness_FaultyUnits :
    (let w := { fits (dab 0x5555) with d := 2 }
     let b : BadLane := ⟨0, 1, 5, 3, true⟩
     let s (spent : List Nat) := (code (at_ ready grp) 0x26 w).modSaf fun x => { x with
       badLanes := [b], slots := x.slots.modify 0 fun y => { y with lanes1 := spent } }
     let f : Form := { d := .reg, a := .reg, imm := true, mods := 0xFF }
     let g : Group := { grp with active := 1, live := 1 }
     let v := { fits f with md := 2 }
     let t := (code (at_ ready g) 0x50 v).modSaf fun x => { x with sram := [(0, ⟨false, false, false⟩)] }
     ([[], [64], [64, 65]].all fun l => issuing (s l) 0x26 w (dab 0x5555) grp && decide ((s l).lanesBad 0 = [b]) &&
       (((s l).slot 0).lanesOut 1).length == l.length && (s l).phys 0 == 0 && slowOps.contains 0x26 &&
       (grp.lanes w).find? (fun i => ((s l).slot 0).physLane 1 i == 5) == some 5) &&
     issuing t 0x50 v f g && g.lanes v == [0] && (localCause (g.localAddr v 0) 4).isNone && t.phys 0 * 2 ^ 21 +
       (g.localAddr v 0).toNat / 8 == 0 && decide (t.saf.sram = [(0, ⟨false, false, false⟩)]) && ready.mseRuns &&
     decide ((ready.modSaf fun x => { x with logicBad := [0x15] }).saf.logicBad = [0x15])) = true := by decide +kernel

/-! ## Power, clocks and throttling (spec/11) -/

theorem witness_GovernorSteers :
    (let cap := ready.pwr.capW
     let a := 105 * cap < 640 * 700 ∨ 714 < 700
     ready.powered && ready.pwr.volt.length == 14 && ready.pwr.ceil.length == 14 && ready.pwr.falling.length == 14 &&
       decide a && decide (¬ (105 * cap < 640 * 0 ∨ 714 < 714) ∧ (100 * cap < 640 * 600 ∨ 680 < 600)) &&
       decide (0 * 0 ≤ 105 * cap ∧ 0 * 0 < 98 * cap) && decide (3 ≤ ready.pwr.step) && decide ((atStep 2 1).pwr.step < 3) &&
       (atStep 2 1).powered && (atStep 2 1).pwr.volt.length == 14 && decide (ready.nd.periods + 1 < 600000) &&
       decide (600000 ≤ (ready.modNd fun n => { n with periods := 599999 }).nd.periods + 1) && !ready.flag F.PWR_GOVSTAT_CAPMISS) = true := by decide +kernel

theorem witness_ThrottleAndMonitors :
    (let low := ready.modPwr fun p => { p with throttleN := false, thrQualified := false }
     let qual := ready.modPwr fun p => { p with throttleN := false, thrQualified := true, thrHold := true }
     let on := ready.setFld F.PWR_THRSTAT_ACTIVE 1
     ready.powered && ready.pwr.throttleN && !low.pwr.throttleN && !low.pwr.thrQualified && qual.pwr.thrQualified &&
       !qual.flag F.PWR_THRSTAT_SUST && (qual.setFld F.PWR_THRSTAT_SUST 1).flag F.PWR_THRSTAT_SUST && qual.pwr.thrHold &&
       on.throttled && !on.pwr.thrHold && on.pwr.throttleN && decide (6 ≤ ready.pwr.step) && ready.ndRuns && !ready.safe &&
       (ready.modNd fun n => { n with sampled := true }).nd.sampled && decide (ready.pwr.loadedAt ≤ ready.pwr.timer) &&
       ((ready.pwr.timer :: ready.pwr.dieTimers).all fun a => (ready.pwr.timer :: ready.pwr.dieTimers).all fun b => a ≤ b + 2000) &&
       ready.writable 0 (Reg.addr .PWR_TSOFFHI 0 0)) = true := by decide +kernel

/-! ## Host ports and queue pairs (spec/12) -/

/-- Pair 255 of port 1 enabled, with rings of 16 and 4096 entries and the given descriptors fetched. -/
def pairOn (l : List Fetched) : State :=
  let s := ((ready.setFld F.HIF_QCTL_SQLOG 4 1 255).setFld F.HIF_QCTL_CQLOG 12 1 255).setFld F.HIF_QCTL_EN 1 1 255
  let s := (s.setQState 1 255 1 0).modPort 1 fun x => { x with configured := true, memSpace := true }
  (s.setFld F.HIF_PSTAT_UP 1 1).modPair 1 255 fun x => { x with fetched := l }

theorem witness_QueuePairsRun :
    (let s := pairOn []
     let off := (s.setFld F.HIF_QCTL_EN 0 1 255).setQState 1 255 0 0
     let w := s.modPair 1 255 fun x => { x with sqTail := 15, sqDb := 15 }
     off.barLive 1 && !off.flag F.HIF_QCTL_EN 1 255 && off.qState 1 255 == 0 && s.writable 1 (Reg.addr .HIF_QCTL 1 255) &&
       s.flag F.HIF_QCTL_EN 1 255 && s.qState 1 255 == 1 && (s.hostWrote []).doorbell 1 255 && ((s.hostWrote []).pair 1 255).sqDb != 15 &&
       s.sqSize 1 255 == 16 && s.doorbell 1 255 && (s.pair 1 255).cqDb != 4095 && w.fetches && w.nextPair 1 == some 255 &&
       w.portLive 1) = true := by decide +kernel

/-- A descriptor of a queue pair. -/
def qdesc (op : Nat) (w0 a b : Nat) : Fetched :=
  Fetched.fresh 3 2 [BitVec.ofNat 64 (op * 2 ^ 56 + w0), BitVec.ofNat 64 a, BitVec.ofNat 64 b, 0, 0, 0, 0, 0]

/-- It may start, and its check answers as given. -/
def mayStart (d : Fetched) (st : Option Nat) : Bool :=
  let s := pairOn [d]
  s.startable 1 255 3 == some d && s.descCheck (s.pair 1 255).abi d.words == st

theorem witness_QueueDescriptorsComplete :
    (let mark := qdesc 4 0 0x30000 5
     let mse := qdesc 2 (2 ^ 48 + 2 ^ 46) 0x30000 0
     let move := qdesc 1 0 0 0
     let u := (pairOn [mark]).started 1 255 3
     let w := u.write (agentBar4 1) false 0x30000 (toBytes 8 5)
     let m := (pairOn [mse]).started 1 255 3
     let v := pairOn [move]
     let f := pairOn [{ qdesc 0 0 0 0 with started := true, finished := true }]
     mayStart (qdesc 0 0 0 0) none && mayStart (qdesc 4 0 0 0) none && mayStart mark none && mayStart mse none &&
       mayStart move none && mayStart (qdesc 5 0 0 0) (some 0x10) && mayStart (qdesc 0 (2 ^ 32) 0 0) (some 2) &&
       mayStart (qdesc 4 0 1 0) (some 2) && mayStart (qdesc 2 0 0 0) (some 2) && mayStart (qdesc 1 (2 ^ 40) 0 0) (some 2) &&
       !u.farGa 0x30000 && w.2.isNone && okRead (w.1.read (agentBar4 1) 0x30000 8) && 0x30000 / 2 ^ 48 == u.node &&
       (match m.readWords (agentBar4 1) 0x30000 8 with | (_, .ok _) => true | _ => false) && v.fld F.HIF_QCTL_CHAN 1 255 == 0 &&
       v.dmaIdle 0 && v.dmaNext 0 == some (1 + 256 + 255) && f.powered && f.portLive 1 && f.qState 1 255 == 1 && !f.cqFull 1 255 &&
       ((f.pair 1 255).fetched.find? fun f => f.id == 3 && f.finished).isSome &&
       (((pairOn []).modPair 1 255 fun x => { x with due := true }).pair 1 255).due) = true := by decide +kernel

/-- A MARK at another node: with no read id free, with a write that finds no route, and with one that is sent. -/
def farMark : Fetched := qdesc 4 0 (2 ^ 48 + 0x30000) 5

def markOn (s : State) : State := (s.modPair 1 255 fun x => { x with fetched := [farMark] }).started 1 255 3

def markWrite (s : State) : State × Option Route :=
  match maskedSlots (2 ^ 48 + 0x30000) (toBytes 8 5) with
  | (ga, mask, b) :: _ => s.inject { Packet.blank PT.write 1 s.node with
      tag := mask, len := 1, addr := BitVec.ofNat 40 (ga % 2 ^ 48 / 16), payload := b } none true (agentBar4 1)
  | [] => (s, none)

theorem witness_QueueDescriptorsComplete_far :
    (mayStart farMark none && (markOn (pairOn [])).farGa (2 ^ 48 + 0x30000) && (markOn (pairOn [])).net.freeId.isSome &&
      (markWrite (markOn (pairOn []))).2.isNone) = true := by decide +kernel

/-- All 2048 read ids can be in use. -/
theorem witness_no_read_id (n : LinkNet) (h : n.reads = (List.range 2048).map fun i => (i, 5, 0)) : n.freeId = none := by
  simp only [LinkNet.freeId, List.find?_eq_none, List.mem_map, List.mem_range, h, forall_exists_index, and_imp]
  intro x y _ hx
  simp only [Bool.not_eq_true', Bool.not_eq_false, List.any_eq_true, List.mem_map, List.mem_range]
  exact ⟨_, ⟨x, by omega, rfl⟩, by simp⟩

theorem witness_QueueDescriptorsComplete_sent :
    (match markWrite (markOn (linked (atNode (pairOn []) 0) 0 2)) with
     | (s1, some r) => (s1.startRead 1 0x30000 1 (waitMark 1 255) (some r) true (agentBar4 1)).isSome
     | _ => false) = true := by decide +kernel

/-- A pair that mirrors the step status word. -/
theorem witness_QueueDescriptorsComplete_mirrors :
    (let s := (((pairOn []).setFld F.HIF_QCTL_MIRROR 1 1 255).modSeq fun q => q.withProg (some prog)).setSeqState SQ.loaded
     s.flag F.HIF_QCTL_MIRROR 1 255 && s.qState 1 255 != 0 && (s.pair 1 255).abi != 2 && s.progLoaded) = true := by decide +kernel

theorem witness_TwoHosts :
    (let f := ((ready.setFld F.HIF_MODE_FAILOVER 1).modPort 1 fun x => { x with configured := true, memSpace := true }).setFld F.HIF_PSTAT_UP 1 1
     let e := f.setFld F.HIF_FOSTAT_EXPIRED 1
     ready.writable 0 (Reg.addr .HIF_MODE 0 0) && ready.noPairs && ready.seqState == 0 && f.writable 0 (Reg.addr .HIF_HBEAT 0 0) &&
       f.failover && f.fld F.HIF_MODE_ACTIVE == 0 && f.powered && !f.flag F.HIF_FOSTAT_EXPIRED &&
       f.writable 1 (Reg.addr .HIF_CLAIM 1 0) && f.isStandby 1 && e.flag F.HIF_FOSTAT_EXPIRED && e.isStandby 1 &&
       e.writable 1 (Reg.addr .HIF_CLAIM 1 0)) = true := by decide +kernel

/-! ## Start-up and resets (spec/14) -/

theorem witness_TheDeviceStarts :
    (let s := atStep 8 4
     let rejected := s.modNd fun n => { n with live := { n.live with grade := 3 } }
     decide (State.reset.pwr.supply = .absent) &&
       decide ((State.reset.modPwr fun p => { p with supply := .ramping }).pwr.supply = .ramping) && (atStep 2 1).powered &&
       (atStep 2 1).pwr.step == 2 && (atStep 6 2).diesUp && (atStep 6 2).phase == 2 && (atStep 6 2).pwr.lrefclk &&
       (atStep 7 3).diesUp && (atStep 7 3).pwr.step == 7 && (atStep 7 3).nd.wiping.isNone && !(atStep 7 3).safe && s.diesUp &&
       s.pwr.step == 8 && !s.nd.refurbishing && s.nd.live.grade != 3 && rejected.nd.live.grade == 3) = true := by decide +kernel

theorem witness_DeviceAndPortResets :
    (let pin := ready.modPwr fun p => { p with devrstN := false, pinHold := false }
     let soft := ready.modPwr fun p => { p with softHold := true, hold := some .register, pinHold := false }
     let port := ready.modPwr fun p => { p with refclk := p.refclk.set 1 true }
     let det := port.modPort 1 fun x => { x with inDetect := true }
     pin.powered && !pin.pwr.devrstN && !pin.pwr.pinHold && ready.writable 0 (Reg.addr .DBG_RSTCTL 0 0) && soft.pwr.softHold &&
       decide (soft.pwr.hold = some .register) && !soft.pwr.pinHold && decide (ready.pwr.hold = none) &&
       decide (ready.pwr.supply ≠ .absent) && (ready.port 0).configured && (det.port 1).inDetect &&
       det.pwr.refclk.getD 1 false && ready.flag F.HIF_PSTAT_UP 0 && ready.ndRuns && !(atStep 2 1).ndRuns &&
       ready.wipeMark.isNone && !ready.recoveryDue && !ready.pwr.devrstN == false && (atStep 2 1).powered &&
       decide ((atStep 2 1).pwr.step < 3) && !(atStep 2 1).recoveryDue && !ready.nd.recovery &&
       (pairOn []).qState 1 255 != QS.revoked && ((pairOn []).setQState 1 255 QS.draining 0).isRevoking 1 255 &&
       ((pairOn []).port 1).configured) = true := by decide +kernel

theorem witness_PinsPortsAndPairsAct :
    (let pin := ready.modPwr fun p => { p with devrstN := false, pinHold := false }
     let held (soft pin : Bool) := ready.modPwr fun p => { p with softHold := soft, hold := some .register, pinHold := pin, step := 3 }
     let det := ready.modPort 1 fun x => { x with inDetect := true }
     let dbg := (at_ ready { grp with state := .parked }).setReg .CORE_DBGSEL 0 0 0xC0000400
     let f : Form := { a := .reg, mods := 0xF, plain := true }
     let inv := ready.modHbm fun h => { h with tlbInv := [(5, 0)] }
     let s := pairOn []
     let off := (s.setFld F.HIF_QCTL_EN 0 1 255).setQState 1 255 0 0
     let en := (off.setReg .HIF_QCTL 1 255 (Reg.HIF_QCTL.written (off.reg .HIF_QCTL 1 255) 0x03440000)).setFld F.HIF_QCTL_EN 1 1 255
     let w := s.modPair 1 255 fun x => { x with sqTail := 15, sqDb := 15 }
     pin.powered && decide (pin.pwr.hold = none) && !(held false false).nd.recovery && (held true false).pwr.step == 3 &&
       ready.writable 0 (Reg.addr .DBG_RSTCTL 0 0) && (ready.port 0).configured && det.pwr.refclk.getD 1 false &&
       ready.ports.length == 2 && ready.pwr.perstN.length == 2 && !ready.recoveryDue && ready.wipeMark.isNone &&
       runs (at_ ready grp) 0x89 { fits f with md := 1 } f grp && dbg.writable 0 (Reg.addr .CORE_DBGDATA 0 0) &&
       F.CORE_DBGSEL_INDEX.of (dbg.reg .CORE_DBGSEL 0 0) == 1 && grp.outstanding == 0 && !inv.hbm.tlbInv.isEmpty && !inv.underOld &&
       en.enableErr 1 255 == 0 && (s.pair 1 255).cqHead == 0 && (s.pair 1 255).sqDb == 0 && ((s.port 1).pairs)[255]?.isSome &&
       (ready.write (agentBar4 0) false 0x30000 [1]).2.isNone && s.qEnabled 1 255 && w.nextPair 1 == some 255) = true := by
  decide +kernel

/-! ## Ndomir (spec/13) -/

theorem witness_NdomirPinsAndBus :
    (let p := ready.modNd fun n => { n with position := some 5 }
     let e := ready.modNd fun n => { n with queue := [.sensor 0x100 1], unacked := some 2 }
     ready.ndRuns && frameWord 0x00F == some 3 && frameWord 0x005 == some 1 && frameWord 0x0FF == some 63 &&
       ready.nd.position.isNone && p.nd.position == some 5 && decide (e.nd.queue = [.sensor 0x100 1]) && e.nd.unacked == some 2 &&
       (ready.modNd fun n => { n with pendingIbi := true }).nd.events.getLsbD 0 && ready.nd.da.isNone && !ready.nd.pendingIbi && (ready.modNd fun n => { n with da := some 8 }).nd.da == some 8) = true := by
  decide +kernel

theorem witness_NdomirAnswers :
    (let i := ready.modNd fun n => { n with da := some 8 }
     let q := i.modNd fun n => { n with queue := [.sensor 0x100 1] }
     i.reaches .i3c && ready.reaches .pcie0 && !ready.nd.recovery && i.nd.queue.isEmpty && decide (q.nd.queue = [.sensor 0x100 1]) &&
       q.nd.receiver.isNone) = true := by decide +kernel

theorem witness_UpdateAndAttestation :
    (let s (st : FwuState) := ready.modNd fun n => { n with fwu := st, fwuAgent := .pcie0, fwuComps := [3], fwuComp := 3, fwuVerified := [3] }
     ready.reaches .pcie0 && !ready.nd.recovery && decide (ready.nd.fwu = .idle) && ready.nd.wiping.isNone && !ready.nd.refurbishing &&
       ([.learn, .ready, .download].all fun st => decide ((s st).nd.fwuAgent = .pcie0) && decide ((s st).nd.fwu = st) &&
         (s st).nd.fwuComps.contains 3 && !(s st).nd.fwuVerified.isEmpty) &&
       decide ((s .ready).nd.fwuAgent ≠ .i3c) && (ready.modNd fun n => { n with wiping := some 1 }).nd.wiping.isSome &&
       !imageFits (FwImage.ofFile ⟨[], true, true⟩) 3) = true := by decide +kernel

/-- A header of an HBM and PHY image of version 0x0102, SVN 5 and key slot 2 (Table 13.6). -/
def imageHeader : List Byte :=
  toBytes 4 0x4E444649 ++ toBytes 2 3 ++ toBytes 2 0 ++ toBytes 8 0x0102 ++ [5, 2] ++ List.replicate 238 0

/-- The image is acceptable to a part whose fuses hold the hash of its key (R422). -/
theorem witness_UpdateAndAttestation_image :
    (let s := { ready with fuses := { ready.fuses with keyHash := List.replicate 4 (Config.sha256 (List.replicate 64 0)) } }
     imageFits (FwImage.ofFile ⟨imageHeader, true, true⟩) 3 && s.acceptable (FwImage.ofFile ⟨imageHeader, true, true⟩)) = true := by
  have h : (imageHeader.drop 0x38).take 64 = List.replicate 64 0 := by decide +kernel
  simp only [imageFits, State.acceptable, FwImage.ofFile, h]
  generalize Config.sha256 (List.replicate 64 0) = k
  have e : (List.replicate 4 k).getD (BitVec.ofNat 2 (ofBytes ((imageHeader.drop 0x11).take 1))).toNat 0 = k := by
    rw [show (BitVec.ofNat 2 (ofBytes ((imageHeader.drop 0x11).take 1))).toNat = 2 by decide +kernel]; rfl
  rw [e, beq_self_eq_true, Bool.and_true]
  decide +kernel

/-- A request of code `cmd` with a body, signed with key 1 over nonce 9. -/
def signed_ (s : State) (cmd : Nat) (body : List Byte) : SignedReq :=
  { medium := .i3c, signer := some 1, covers := s.toSign cmd 9 body }

theorem witness_OwnersAndWipes :
    (let n := ready.modNd fun n => { n with da := some 8, nonce := some 9 }
     let o := n.modNd fun n => { n with owner := some 1 }
     let u := n.modNd fun n => { n with owner := some 2, tenants := [1] }
     let w := n.modNd fun n => { n with wiping := some 1 }
     let r := (atStep 7 3).modNd fun n => { n with wiping := some 4, wipeResume := true }
     let f := n.modNd fun n => { n with refurbishing := true }
     let covers (s : State) (cmd : Nat) (b : List Byte) : Bool := (signed_ s cmd b).covers ==
       toBytes 1 cmd ++ toBytes 8 s.fuses.serial.toNat ++ bigBytes 16 9 ++ b
     n.reaches .i3c && !n.nd.recovery && !n.oemBusy && n.nd.nonce == some 9 && n.nd.owner.isNone &&
       covers n 3 (keyBytes [7]) && covers o 4 (keyBytes [7]) && covers o 5 [] && covers o 6 (keyBytes [1, 2, 3, 4]) && covers o 8 [] &&
       covers u 7 [] && o.nd.owner == some 1 && !o.oemBusy && u.nd.tenants.contains 1 && u.nd.owner == some 2 && !u.oemBusy &&
       w.oemBusy && f.oemBusy && (o.modNd fun n => { n with nonce := none }).nd.nonce.isNone &&
       !covers o 4 [] == false && (signed_ o 4 []).covers != toBytes 1 5 ++ toBytes 8 o.fuses.serial.toNat ++ bigBytes 16 9 &&
       w.nd.wiping == some 1 && w.diesUp && !w.nd.wipeResume && decide (7 ≤ w.pwr.step) && r.nd.wiping == some 4 && r.nd.wipeResume &&
       r.diesUp && r.pwr.step == 7 && f.nd.refurbishing && f.nd.wiping.isNone && decide (8 ≤ f.pwr.step)) = true := by decide +kernel

/-! ## Registers, numbers, packets, test port (spec/16, spec/02, spec/08, spec/15) -/

theorem witness_RegisterWrites :
    ((Reg.at_ 0x0FFFFF).isNone && (Reg.at_ 2).isNone && Reg.at_ (Reg.addr .MEM_IMODE 46 0) == some (.MEM_IMODE, 46, 0) &&
      Reg.at_ (Reg.addr .CORE_GCTL 79 63) == some (.CORE_GCTL, 79, 63) && ready.writable 0 (Reg.addr .PWR_CAP 0 0) &&
      !ownWrites.contains .PWR_CAP) = true := by decide +kernel

theorem witness_RegisterWrites_conditions :
    (!ready.flag F.HIF_QCTL_EN 0 255 && (pairOn []).flag F.HIF_QCTL_EN 1 255 &&
      ready.fabricDisabled && writeCommand 0 .MSE_RTAIL 5 3 7 == some (.mseRtailWrite 0 5 3 7) &&
      !standbyMayWrite 1 0x2000C && otherPortPart 0 0x20000 && !State.reset.barLive 1 &&
      (ready.setFld F.SAF_CMAP_RETIRED 1 0).isRetired 0 && (ready.setFld F.SAF_STATE_SAFE 1).safe &&
      BlockId.ofOffset (Reg.addr .SEQ_ARGLO 0 0) == some .seq) = true := by decide +kernel

theorem witness_PlacementModeMovesNoData : ready.writable 0 (Reg.addr .MEM_IMODE 46 0) = true := by decide +kernel

theorem witness_TrapModes :
    (let f : Form := { imm := true }
     let s := code (at_ ready grp) 0x9F (fits f)
     let t := code (at_ (ready.setFld F.CORE_FAULTCTL_MODE 1 0) grp) 0x9F (fits f)
     issues s 0x9F (fits f) f grp && issues t 0x9F (fits f) f grp && grp.exec (fits f) != 0 &&
       s.fld F.CORE_FAULTCTL_MODE (s.phys 0) == 0 && t.fld F.CORE_FAULTCTL_MODE (t.phys 0) == 1) = true := by decide +kernel

theorem witness_FailoverMode :
    (ready.writable 0 (Reg.addr .HIF_MODE 0 0) && (pairOn []).qEnabled 1 255 && (seqIn SQ.loaded).seqState != SQ.idle &&
      ((List.range 2).all fun a => (List.range 256).all fun q => !ready.qEnabled a q) && ready.seqState == SQ.idle) = true := by
  decide +kernel

theorem witness_PositionConflict :
    (let s := ready.modNd fun n => { n with position := some 5 }
     s.ndRuns && frameWord 0x000 == none && frameWord 0x00F == some 3 && s.nd.position == some 5 && s.nd.confRun == 0 &&
       decide (s.nd.queue.length < 256)) = true := by decide +kernel

theorem witness_ExactValuesAreKept :
    ((Num.fin true 1 (-149)).eqv (w32Val 0x80000001) && (Num.fin false 0 0).eqv (b16Val 0) && (Num.fin false 30 0).eqv (f8Val 0x7E) &&
      (Num.fin true 4 0).eqv (h4Val 15)) = true := by decide +kernel

theorem witness_PacketHeaders : ∃ w0 w1, (from1 PT.write 1).header = [w0, w1] := ⟨_, _, rfl⟩

theorem witness_TestPort :
    (let t (st : TapState) : State := { ready with tap := { ready.tap with st := st, drShift := [true], irShift := [true, true] } }
     decide ((t .shiftDr).pwr.supply ≠ .absent) && decide ((t .updateIr).tap.st = .updateIr) && (t .updateIr).tap.irShift.all id &&
       decide ((t .updateIr).pwr.hold = none) && (t .shiftDr).tap.drShift == [true]) = true := by decide +kernel

/-- During a reset: EXTEST selected and in force, and the boundary about to be loaded. -/
theorem witness_TestPort_driving :
    (let held := ready.modPwr fun p => { p with hold := some .pin }
     let u : State := { held with tap := { held.tap with ir := .extest, st := .updateIr } }
     let d : State := { held with tap := { held.tap with ir := .extest, st := .updateDr, drShift := [true] } }
     decide (u.tap.st = .updateIr) && u.pwr.hold.isSome && u.tap.ir.seizes && d.tap.ir.onBoundary && d.tap.ir.seizes && d.pwr.hold.isSome && decide (d.tap.st = .updateDr) &&
       decide (d.tap.drShift ≠ d.tap.boundary)) = true := by decide +kernel

theorem witness_TapKeepsItsLength : ∃ t, ready.tap.fits ∧ step ready = .next t :=
  ⟨ready, fun h => absurd h (by decide +kernel), rfl⟩

theorem witness_MemoryStaysCanonical :
    ∃ t, Memory.wf { ready with pending := [.ledgerHourly] } = true ∧ step { ready with pending := [.ledgerHourly] } = .next t :=
  ⟨_, by decide +kernel, rfl⟩

/-- A core that holds one group, in slot 0, of block 0. -/
def oneCore : Core := { Core.reset with blocks := [blk [0]], items := [item], nextBlock := 1, groups := [(0, grp)] }

theorem witness_GroupsKeepTheirBlocks :
    (State.groupsHeld { ready with cores := [oneCore], pending := [.ledgerHourly] }) ∧ oneCore.groups ≠ [] ∧
      ∃ t, step { ready with cores := [oneCore], pending := [.ledgerHourly] } = .next t := by
  refine ⟨⟨?_, ?_⟩, by decide, _, rfl⟩
  · intro k hk
    simp only [List.mem_singleton] at hk
    subst hk
    refine ⟨by simp [oneCore], by simp [oneCore, blk], ?_⟩
    intro g x h
    have hg : g = 0 ∧ x = grp := by
      simp only [oneCore, Sparse.find] at h
      split at h <;> simp_all
    exact ⟨blk [0], by simp [oneCore], by rw [hg.2]; decide +kernel, by simp [hg.1, blk]⟩
  · have h : ready.saf.sram = [] := by decide +kernel
    simp [h]

theorem witness_CommandsComplete :
    (Instr.wf (.vinRise) && !Instr.wf (.nop 64 0 (fits {}))) = true := by decide +kernel

/-! ## WellFormed: one ill-formed term for each check -/

theorem test_wf_refuses :
    ([.registerWrite 2 0 (.word 0), .nop 64 0 (fits {}), .nop 0 64 (fits {}), .groupKill 0 80 0, .launch 64 .f, .pstailWrite 0 0 3 0,
      .mma 64 .f, .chunkMismatch 0 .f ⟨4, 0, 0, 0, 0, 0, false⟩, .chunkMismatch 0 .b ⟨0, 17, 0, 0, 0, 0, false⟩, .mseAmax 6 0, .mseAmax 0 4,
      .dmaLinear 32, .linkUp 96 0, .linkEnable 2 0 0, .queueNop 0 256 0, .failover 2 0, .claim 0 2, .patrolScrub 12 0 .clean,
      .patrolScrub 0 (3 * 2 ^ 29) .clean, .retirementComplete 12 0, .iftTestStart 80, .exclusionExpiry 65536 0, .readTimeout 2048,
      .counterIncrement 4 0, .rateMonitorReport 14 [], .seqLoad (.bar0 2), .seqLoad (.queue 0 256 0), .watchdogStall (.engine 64 .f),
      .watchdogStall (.collector 0 64), .watchdogStall (.mseRing 6 0), .watchdogStall (.dma 32), .watchdogStall (.router 96)].all
      fun c : Instr => !c.wf) = true := by decide +kernel

theorem test_wf_accepts :
    ([.registerWrite 1 0 (.word 0), .nop 63 63 (fits {}), .groupKill 1 79 63, .pstailWrite 1 79 2 0, .chunkMismatch 0 .b ⟨3, 16, 0, 0, 0, 0, false⟩,
      .mseAmax 5 3, .dmaLinear 31, .linkUp 95 0, .queueNop 1 255 0, .readTimeout 2047, .watchdogStall .seq].all fun c : Instr => c.wf) = true := by
  decide +kernel

theorem test_no_such_unit : exec (.nop 64 0 (fits {})) State.reset = .fault .noSuchUnit := rfl

/-! ## The spec's worked numbers -/

/-- Table 4.3. -/
theorem test_stipple :
    stipple 0 0 0 0 0 0 = ⟨0x23F264BD, 0x10DBFF20, 0x1FA67AE4, 0x70543520⟩ ∧
      stipple 1 0 0 0 0 0 = ⟨0x33CD47F5, 0x845FBBAD, 0xDA79B00E, 0xF73F8D16⟩ := by decide +kernel

/-- Table 2.4: −2.5, 2^-35 and 0.1, whose W32 code is 0x3DCCCCCD. -/
theorem test_b16_codes :
    (toB16 .rne (.fin true 5 (-1))).1 = 0xC080 ∧ toB16 .rne (.fin false 1 (-35)) = (0x0010, 0) ∧
      (toB16 .rne (w32Val 0x3DCCCCCD)).1 = 0x3733 ∧ (toB16 .rne .nan).1 = 0x7F00 := by decide +kernel

/-- Tables 2.7 and 2.9, and the near-tie of spec/02. -/
theorem test_narrow_codes :
    (encF8 .rne (.fin false 20 0)).code = 0x74 ∧ (encF8 .rne (.fin true 5 (-1))).code = 0xC4 ∧
      (encF8 .rne (w32Val 0x3DCCCCCD)).code = 0x06 ∧ (encH4Fin .rne false 3 0).code = 6 ∧ (encH4Fin .rne true 1 (-2)).code = 9 ∧
      (encH4Fin .rne false 5033165 (-22)).code = 3 ∧ (encF8 .rne (w32Val 0x3F840800)).code = 0x31 := by decide +kernel

/-- Table 2.14: the five non-zero inputs of the block, r = 2.0. -/
def worked : List (Option (Machine.Num × Rnd)) :=
  [(.fin false 5 0), .fin false 83 (-6), .fin true 11 (-4), .fin false 1 (-10), .fin true 1 (-9), .fin false 0 0].map fun x =>
    some (x, .rne)

theorem test_block_f8 : encodeBlock false 0x40000000 worked =
    ⟨0x7E, [0x74, 0x55, 0xC6, 0, 0, 0], Flags.nx ||| Flags.uf, 2, 5⟩ := by decide +kernel

theorem test_block_h4 : encodeBlock true 0x40000000 worked =
    ⟨0x81, [6, 2, 9, 0, 0, 0], Flags.nx ||| Flags.uf, 2, 5⟩ := by decide +kernel

/-- spec/05, one column in skewed layout. -/
theorem test_skew : skewAddr 0x40000 2048 10 1900 = 0x450AC := by decide +kernel

/-- spec/06, placing an encode: tile 29 and its scale-plane entry. -/
theorem test_placement :
    (let s := ((State.reset.setFld F.MEM_IMODE_GRAN 1 1).setFld F.MEM_IMODE_GRAN 2 2).setFld F.MEM_IMODE_GRAN 4 3
     s.place (0x03000000 + 12 * 2 ^ 30 + 29 * 2048) = (5, 0x40401000) ∧
       s.place (0x06000000 + 24 * 2 ^ 30 + 29 * 1024) = (5, 0x80800800) ∧
       s.place (0x09000000 + 36 * 2 ^ 30 + 464) = (5, 0xC0C00020)) := by decide +kernel

/-- spec/08, one global cable in Configuration S. -/
theorem test_cable : globalPeer 64 5 647 = some (14, 739) := by decide +kernel

/-- spec/08, the route from node 0x0154: local link 16 from position 23 to position 40. -/
theorem test_local_link : localLink 23 40 = 16 := by decide

/-- spec/16, three addresses. -/
theorem test_addresses :
    Reg.addr .CORE_MXCHK 47 0 = 0x12F3008 ∧ Reg.addr .LNK_STAT 70 0 = 0x646004 ∧ Reg.addr .MSE_EVENT 4 0 = 0x440108 := by
  decide +kernel

/-- R410: a start bit of 0, the word, odd parity, a stop bit of 1. -/
theorem test_frames :
    frameWord 0b000001111 = some 3 ∧ frameWord 0b000001101 = none ∧ frameWord 0b100001111 = none ∧ frameWord 0b000001110 = none := by
  decide +kernel

/-- Table 8.8: PTYPE, HOPS, LEN, UPD, DST, SRC and TAG of the first word, X, NM, GSEL and ADDR of the second. -/
theorem test_header :
    ({ packet 4 with hops := 1, len := 33, upd := true, dst := 0x3A8, src := 0x154, tag := 7, x := 2, nm := true, gsel := 647
                     addr := 0x123 } : Packet).header = [0x428603A801540007, 0x800A870000000123] := by decide +kernel

/-! ## One step of a command -/

/-- R217: addition wraps, in every lane. -/
theorem test_add : after (.addI 0 0 (fits (dab 1)))
    (code (at_ ready ((grp.setReg 63 4 0xFFFFFFFF).setReg 63 6 2)) 0x01 (fits (dab 1))) (regIs 63 2 1) = true := by decide +kernel

/-- R215: a lane whose guard does not hold keeps its register. -/
theorem test_guard :
    (let w := { fits (dab 1) with ps := 1 }
     let x := (((grp.setReg 0 4 5).setReg 1 4 5).setReg 1 2 9).setPred 0 1 true
     after (.addI 0 0 w) (code (at_ ready x) 0x01 w) fun t => regIs 0 2 5 t && regIs 1 2 9 t) = true := by decide +kernel

/-- R217: mulh of −1 by −1, signed and unsigned. -/
theorem test_mulh :
    (let x := (grp.setReg 0 4 0xFFFFFFFF).setReg 0 6 0xFFFFFFFF
     after (.mulhI 0 0 { fits (dab 3) with md := 1 }) (code (at_ ready x) 0x05 { fits (dab 3) with md := 1 }) (regIs 0 2 0) &&
       after (.mulhI 0 0 (fits (dab 3))) (code (at_ ready x) 0x05 (fits (dab 3))) (regIs 0 2 0xFFFFFFFE)) = true := by decide +kernel

/-- R226: a jump counts instructions from the next one, and a call keeps the return address. -/
theorem test_jump :
    (let f : Form := { b := .bits, c := .bits, imm := true }
     let g : Form := { d := .pair, imm := true, plain := true }
     let pcIs (n : Nat) (t : State) : Bool := match t.group 0 0 with | some x => x.pc == BitVec.ofNat 48 n | none => false
     after (.jump 0 0 { fits f with imm := 3 }) (code (at_ ready grp) 0x90 { fits f with imm := 3 }) (pcIs (target 0 3).toNat) &&
       after (.call 0 0 { fits g with imm := 3 }) (code (at_ ready grp) 0x92 { fits g with imm := 3 }) fun t => pcIs (target 0 3).toNat t && regIs 5 2 8 t) = true := by
  decide +kernel

/-- R221: a byte of local memory is extended as MOD[2] says, and a store puts it there. -/
theorem test_local :
    (let f : Form := { d := .reg, a := .reg, imm := true, mods := 0xFF }
     let s := (at_ ready (one 0)).setLocalBytes 0 0 [0x80]
     let g : Form := { a := .reg, b := .reg, imm := true, mods := 0xF }
     after (.lrd 0 0 (fits f)) (code s 0x50 (fits f)) (regIs 0 2 0x80) && after (.lrd 0 0 { fits f with md := 4 }) (code s 0x50 { fits f with md := 4 }) (regIs 0 2 0xFFFFFF80) &&
       after (.lwr 0 0 (fits g)) (code (at_ ready ((one 0).setReg 0 6 0x1FF)) 0x51 (fits g)) fun t => t.localByte 0 0 == 0xFF && t.localByte 0 1 == 0) = true := by
  decide +kernel

/-- R314: START of an IDLE sequencer ends with BADSTATE. -/
theorem test_seq_guard : after (.seqStart (.bar0 0)) ready (fun t => t.fld F.SEQ_STATE_CMDST == 1 && t.seqState == 0) = true := by
  decide +kernel

/-- R311, R312: LOAD leaves SEQ LOADED. -/
theorem test_seq_load : after (.seqLoad (.bar0 0)) (withHeader.setReg .SEQ_ARGLO 0 0 0x100000)
    (fun t => t.fld F.SEQ_STATE_CMDST == 0 && t.seqState == 1) = true := by decide +kernel

/-- R147, R162: a NOP of a ring completes OK, and a channel's is done at once. -/
theorem test_rings :
    (let w := mseWords 0 0 0 0 0 0 0 0 0
     let d := dmaWords 0 0 0 0 0 0 0
     after (.mseNop 0 0) (mseState w) (fun t => (t.mse 0).done.length == 1 && t.ringHead mseRing 0 0 == 1) &&
       after (.dmaNop 15) (dmaState d) fun t => t.flag F.DMA_CHSTAT_BUSY 15 && (t.dma 15).busy.isSome) = true := by decide +kernel

/-- R379: a NOP descriptor of a queue pair finishes with status 0, and its entry goes to the completion ring. -/
theorem test_queue_nop : after (.queueNop 1 255 3) (pairOn [qdesc 0 0 0 0]) (fun t =>
    ((t.pair 1 255).fetched.map fun f => (f.finished, f.status)) == [(true, 0)]) = true := by decide +kernel

/-- R469: W1C bits clear where 1 is written, and an offset that is no register changes nothing. -/
theorem test_register_write :
    (after (.registerWrite 0 (Reg.addr .MSE_EVENT 0 0) (.word 0)) ready (fun t => t.reg .MSE_EVENT 0 0 == 0) &&
      after (.registerWrite 0 (Reg.addr .HIF_QSQLO 0 3) (.pair 0x5000 6)) ready (fun t => t.reg .HIF_QSQLO 0 3 == 0x5000 && t.reg .HIF_QSQHI 0 3 == 6) &&
      after (.registerWrite 0 2 (.word 1)) ready fun t => decide (t = ready)) = true := by decide +kernel

/-- R411: the third equal frame latches position 3, and the node id shows it. -/
theorem test_position : after (.positionFrame 0b000001111) (ready.modNd fun n => { n with lastWord := 3, run := 2 }) (fun t =>
    t.nd.position == some 3 && t.flag F.LNK_NODE_POSV && t.node == 3) = true := by decide +kernel

/-- R437: VIN starts the converters. -/
theorem test_vin : after .vinRise State.reset (fun t => t.pwr.supply == .ramping && t.pwr.step == 1) = true := by decide +kernel

/-- R461: IDCODE 0x3 0x0960 with bit 0 set is captured least significant bit first. -/
theorem test_idcode :
    (let l := ready.captured
     l.length == 32 && l.head? == some true && (l.drop 12).take 16 == (List.range 16).map (Nat.testBit 0x0960) &&
       l.drop 28 == [true, true, false, false]) = true := by decide +kernel

/-- Table 7.11: a parked group with cause 0x07 that waits at no barrier; a free slot reads 0. -/
theorem test_gstat :
    (let s := at_ ready { grp with state := .parked, cause := 7 }
     s.shown .CORE_GSTAT 0 0 == 0x60000700 && s.shown .CORE_GSTAT 0 63 == 0) = true := by decide +kernel

/-- Table 10.12: the map that a shipped part's store holds is the registers' reset value; core 3 of a cluster is on slot 3. -/
theorem test_cmap : (cmapReset.toNat == Reg.resetVal .SAF_CMAP && ready.coreSlot 3 == 3 && ready.spareOf 0 == some 4) = true := by
  decide +kernel

/-- The queue is first in, first out. -/
theorem test_queue : (match step { State.reset with pending := [.vinRise, .vinFall] } with
    | .next t => decide (t.pending = [.vinFall]) && t.pwr.supply == .ramping
    | _ => false) = true := by decide +kernel

theorem test_idle : step State.reset = .next State.reset := rfl

/-- No word spells a command. -/
theorem test_decode : decodeTableWord 0 0 = none ∧ State.reset.withFetchWord 0 0 = State.reset := ⟨rfl, rfl⟩

end Sys2Proof.Tests
end

/-! SUPPORT. The scope statements: every command whose units exist completes, the state at reset, and a register write that the
statement about plain writes does not cover. -/

namespace Sys2Proof.Machine

/-! ## Every command completes -/

theorem onMedium_answers (md : Medium) (s : State) (f : State → State) : ∃ g, onMedium md s f = answer true s g := ⟨_, rfl⟩

theorem onPldm_answers (md : Medium) (ty cmd : Nat) (s : State) (f : State → State) :
    ∃ g, onPldm md ty cmd s f = answer true s g := onMedium_answers md s _

theorem onUpdate_answers (md : Medium) (cmd : Nat) (s : State) (f : State → State) :
    ∃ g, onUpdate md cmd s f = answer true s g := onPldm_answers md 5 cmd s _

theorem onSpdm_answers (md : Medium) (s : State) (f : State → State) : ∃ g, onSpdm md s f = answer true s g :=
  onMedium_answers md s _

theorem onOem_answers (md : Medium) (cmd : Nat) (s : State) (f : State → State) : ∃ g, onOem md cmd s f = answer true s g :=
  onPldm_answers md 63 cmd s f

theorem signedOem_answers (rq : SignedReq) (cmd : Nat) (body : List Byte) (s : State) (ok : State → Bool)
    (keys : State → List Key) (f : State → State) : ∃ g, signedOem rq cmd body s ok keys f = answer true s g :=
  onOem_answers rq.medium cmd s _

theorem onI3c_answers (s : State) (f : State → State) : ∃ g, onI3c s f = answer true s g := ⟨_, rfl⟩

theorem onI3cDa_answers (s : State) (f : State → State) : ∃ g, onI3cDa s f = answer true s g := onI3c_answers s _

/-- The form of every command's answer: a fault unless its units exist, and for the rise and the fall of VIN and for the test
access port, which name no unit, an answer that may change the TAP. -/
theorem exec_eq_answer (i : Instr) (s : State) :
    (∃ f, exec i s = answer i.wf s f) ∨ (i.wf = true ∧ ∃ f, exec i s = answerTap s f) := by
  cases i <;> dsimp only [exec]
  case vinRise => exact .inr ⟨rfl, _, rfl⟩
  case vinFall => exact .inr ⟨rfl, _, rfl⟩
  case tckEdge => exact .inr ⟨rfl, _, rfl⟩
  case trstNFall => exact .inr ⟨rfl, _, rfl⟩
  case setTenantKeys rq keys =>
    dsimp only [execSetTenantKeys]
    split
    · exact .inl (onOem_answers _ _ s _)
    · exact .inl (signedOem_answers _ _ _ s _ _ _)
  case entdaa | rstdaa | enec | disec | setmwl | setmrl =>
    exact .inl (onI3c_answers s _)
  case setnewda | getpid | getbcr | getdcr | getstatus | getmwl | getmrl =>
    exact .inl (onI3cDa_answers s _)
  case setEndpointId | getEndpointId | getEndpointUuid | getMctpVersionSupport | getMessageTypeSupport =>
    exact .inl (onMedium_answers _ s _)
  case getTid | setTid | getPldmVersion | getPldmTypes | getPldmCommands | setEventReceiver |
    pollForPlatformEventMessage | getSensorReading | getStateSensorReadings | setNumericEffecterValue |
    getNumericEffecterValue | getPdrRepositoryInfo | getPdr | queryDeviceIdentifiers | getFirmwareParameters |
    requestUpdate | getStatus =>
    exact .inl (onPldm_answers _ _ _ s _)
  case passComponentTable | updateComponent | firmwareData | activateFirmware | cancelUpdateComponent | cancelUpdate =>
    exact .inl (onUpdate_answers _ _ s _)
  case spdmGetVersion | getCapabilities | negotiateAlgorithms | getDigests | getCertificate | challenge | getMeasurements =>
    exact .inl (onSpdm_answers _ s _)
  case getNonce | getLedger =>
    exact .inl (onOem_answers _ _ s _)
  case takeOwnership | transferOwnership | releaseOwnership | tenantWipe | enterRefurbishment =>
    exact .inl (signedOem_answers _ _ _ s _ _ _)
  all_goals exact .inl ⟨_, rfl⟩

/-- Settles O59: a command's answer is a next state exactly where its units exist. -/
theorem commandsComplete : Obligations.CommandsComplete := by
  unfold Obligations.CommandsComplete
  intro c s
  rcases exec_eq_answer c s with ⟨f, h⟩ | ⟨hwf, f, h⟩
  · exact ⟨fun hwf => ⟨_, h.trans (answer_next s f hwf)⟩, fun hwf => h.trans (answer_fault s f hwf)⟩
  · exact ⟨fun _ => ⟨_, h⟩, fun hn => absurd (hwf.symm.trans hn) Bool.noConfusion⟩

/-! ## The state at reset -/

/-- With no register written, every one holds the reset value of its field map. -/
theorem reg_reset (r : Reg) (i j : Nat) : State.reset.reg r i j = r.resetAt i j := rfl

/-- A field of a register whose reset value is the same at every index. -/
theorem fld_reset (f : Field) (i j : Nat) (h : f.reg ≠ .PWR_RAIL) :
    State.reset.fld f i j = f.of (BitVec.ofNat 32 f.reg.resetVal) := by
  simp only [State.fld, reg_reset]
  cases hr : f.reg with
  | PWR_RAIL => exact absurd hr h
  | _ => rfl

theorem nth_replicate {α : Type} (d : α) (n i : Nat) : nth d (List.replicate n d) i = d :=
  (List.getD_eq_getElem?_getD ..).trans (List.getElem?_getD_replicate_default_eq d n i)

theorem group_reset (c g : Nat) : State.reset.group c g = none := by
  have h : State.reset.core c = Core.reset := nth_replicate Core.reset 64 c
  rw [State.group, h]
  rfl

theorem qEnabled_reset (p q : Nat) : State.reset.qEnabled p q = false := by
  simp only [State.qEnabled, State.qState, fld_reset _ p q (by decide : F.HIF_QSTAT_STATE.reg ≠ .PWR_RAIL)]
  decide

theorem linkSt_reset (l : Nat) : State.reset.linkSt l = LS.disabled := by
  simp only [State.linkSt, fld_reset _ l 0 (by decide : F.LNK_STAT_STATE.reg ≠ .PWR_RAIL)]
  decide

/-- Settles O60: nothing is written and nothing is held in the state at reset. -/
theorem resetState : Obligations.ResetState := by
  unfold Obligations.ResetState
  refine ⟨reg_reset, by decide, by decide, by decide, qEnabled_reset, linkSt_reset, group_reset,
    fun k _ => nth_replicate Mse.reset 6 k, fun n _ => nth_replicate Dma.reset 32 n, fun g => ?_, rfl, rfl, rfl, rfl⟩
  simp only [fld_reset _ g 0 (by decide : F.MEM_IMODE_MODE.reg ≠ .PWR_RAIL),
      fld_reset _ g 0 (by decide : F.MEM_IMODE_GRAN.reg ≠ .PWR_RAIL)]
  decide

/-! ## A write of HIF.ALERT (R400) -/

/-- A write of HIF.ALERT that leaves no enabled cause standing drops the port's held message (log entry 113). -/
theorem alertWrite_drops_held {s : State} {p : Nat} (v : Word)
    (h : (s.plainWrite .HIF_ALERT p 0 v).fld F.HIF_ALERT_CAUSE p &&& (s.plainWrite .HIF_ALERT p 0 v).fld F.HIF_ALERTEN_EN p = 0) :
    (s.alertWrite p v).reg .HIF_MSIXPBA p 0 = 0 := by
  simp only [State.alertWrite, if_pos h, State.reg_setReg_same]

/-- A write that reaches a register other than HIF.QCTL is that register's write. -/
theorem wordWrite_reaches {s : State} {port off i j : Nat} {r : Reg} (v : Word) (ha : Reg.at_ off = some (r, i, j))
    (hr : r ≠ .HIF_QCTL) (hw : s.writable port off = true) : s.wordWrite port off v = s.regWrite port r i j v := by
  simp [State.wordWrite, ha, hr, hw]

theorem exec_registerWrite_word {port : Nat} (off : Nat) (v : Word) (s : State) (h : isPort port = true) :
    exec (.registerWrite port off (.word v)) s = .next (keepFixed s (s.wordWrite port off v)) :=
  answer_next s (fun s => s.wordWrite port off v) h

/-- Port 0 answers, SAFE is its one cause in HIF.ALERT, and the function mask holds that cause's message (R400). -/
def messageHeld : State :=
  ({ State.reset with
      pwr := { Pwr.reset with supply := .on }
      ports := [{ Port.reset with configured := true, memSpace := true, msixEnable := true, msixMask := true }, Port.reset]
    }.setFld F.HIF_PSTAT_UP 1 0).raiseAlert 0 0

/-- Refutes O46: `ownWrites` leaves out HIF.ALERT, and the write that clears its last enabled cause changes HIF.MSIXPBA too
(log entry 113), where the statement keeps every other register. In `messageHeld` a message pends; writing 1 to HIF.ALERT of
port 0 drops it. -/
theorem not_registerWrites : ¬ Obligations.RegisterWrites := by
  unfold Obligations.RegisterWrites
  intro h
  have hat : Reg.at_ (Reg.addr .HIF_ALERT 0 0) = some (.HIF_ALERT, 0, 0) := by decide +kernel
  have hw : messageHeld.writable 0 (Reg.addr .HIF_ALERT 0 0) = true := by decide +kernel
  have hheld : messageHeld.reg .HIF_MSIXPBA 0 0 = 1 := by decide +kernel
  have hclear : (messageHeld.wordWrite 0 (Reg.addr .HIF_ALERT 0 0) 1).reg .HIF_MSIXPBA 0 0 = 0 := by
    rw [wordWrite_reaches 1 hat (by decide) hw]
    exact alertWrite_drops_held 1 (by decide +kernel)
  obtain ⟨-, hreg, -⟩ := h messageHeld 0 (Reg.addr .HIF_ALERT 0 0) 1 (by decide)
  obtain ⟨hplain, -⟩ := hreg .HIF_ALERT 0 0 hat
  obtain ⟨t, ht, -, -, hother⟩ := hplain hw (.inl (by decide))
  have hkept : t.reg .HIF_MSIXPBA 0 0 = 1 := (hother .HIF_MSIXPBA 0 0 (by decide)).trans hheld
  have heq := Host.Outcome.next.inj ((exec_registerWrite_word _ 1 messageHeld rfl).symm.trans ht)
  rw [← heq] at hkept
  exact absurd (hclear.symm.trans hkept) (by decide)

end Sys2Proof.Machine

/-! SUPPORT. One step: the command that it runs, and the parts that no command changes. -/

namespace Sys2Proof.Machine

/-- Both forms of `exec_eq_answer` end in `keepFixed`; the answer of the test access port and of VIN sets the TAP over it. -/
theorem exec_next_keepFixed {i : Instr} {s t : State} (h : exec i s = .next t) :
    ∃ u, t = { keepFixed s u with tap := t.tap } := by
  rcases exec_eq_answer i s with ⟨f, hf⟩ | ⟨-, f, hf⟩
  · obtain ⟨-, rfl⟩ := answer_cases (hf.symm.trans h)
    exact ⟨f s, rfl⟩
  · obtain rfl := answerTap_cases (hf.symm.trans h)
    exact ⟨f s, rfl⟩

/-- Settles O58: `exec_next_keepFixed` for the command at the front, run on the rest of the queue. -/
theorem stepRunsTheFrontCommand : Obligations.StepRunsTheFrontCommand := by
  unfold Obligations.StepRunsTheFrontCommand
  refine ⟨fun c s => step_front rfl, fun s => step_idle, fun s t h => ?_⟩
  cases hq : s.pending with
  | nil =>
    obtain rfl := Host.Outcome.next.inj ((step_idle hq).symm.trans h)
    exact ⟨hq, rfl, rfl, rfl, rfl⟩
  | cons c rest =>
    obtain ⟨u, hu⟩ := exec_next_keepFixed ((step_front hq).symm.trans h)
    rw [hu]
    exact ⟨rfl, rfl, rfl, rfl, rfl⟩

end Sys2Proof.Machine

/-! SUPPORT. Rounding of values that a format holds: magnitudes as rational numbers, what the codes of a format hold, and that each
format gives such a value its own code (R48). -/

namespace Sys2Proof.Machine

/-! ## Magnitudes -/

/-- The magnitude m × 2^e as a rational number. -/
def magnitude (m : Nat) (e : Int) : ℚ := m * 2 ^ e

theorem magnitude_rebase {m : Nat} {e k : Int} (h : k ≤ e) : magnitude m e = (m * 2 ^ (e - k).toNat : Nat) * 2 ^ k := by
  have hk : (e - k).toNat = e - k := Int.toNat_of_nonneg (by omega)
  rw [magnitude, Nat.cast_mul, Nat.cast_pow, Nat.cast_ofNat, ← zpow_natCast, hk, mul_assoc, ← zpow_add₀ two_ne_zero,
    Int.sub_add_cancel]

theorem magLt_iff (m m' : Nat) (e e' : Int) : magLt m e m' e' = true ↔ magnitude m e < magnitude m' e' := by
  rw [magnitude_rebase (min_le_left e e'), magnitude_rebase (min_le_right e e'), mul_lt_mul_iff_left₀ (by positivity), Nat.cast_lt,
    magLt, decide_eq_true_eq]

theorem magnitude_eq_iff {m m' : Nat} {e e' k : Int} (h : k ≤ e) (h' : k ≤ e') :
    magnitude m e = magnitude m' e' ↔ m * 2 ^ (e - k).toNat = m' * 2 ^ (e' - k).toNat := by
  rw [magnitude_rebase h, magnitude_rebase h', mul_left_inj' (by positivity), Nat.cast_inj]

theorem magnitude_eq_zero {m : Nat} {e : Int} : magnitude m e = 0 ↔ m = 0 := by
  simp [magnitude, zpow_ne_zero]

theorem magnitude_mono {m m' : Nat} {e e' : Int} (hm : m ≤ m') (he : e ≤ e') : magnitude m e ≤ magnitude m' e' := by
  unfold magnitude
  gcongr
  norm_num

/-- A significand's length with its exponent is where its magnitude lies between powers of two. -/
theorem magnitude_bounds {m : Nat} (e : Int) (h : m ≠ 0) :
    (2 : ℚ) ^ (e + bitLen m - 1) ≤ magnitude m e ∧ magnitude m e < 2 ^ (e + bitLen m) := by
  have hb : (bitLen m : Int) = Nat.log2 m + 1 := by simp [bitLen, h]
  have hlo : (2 : ℚ) ^ Nat.log2 m ≤ m := by exact_mod_cast Nat.log2_self_le h
  have hhi : (m : ℚ) < 2 ^ (Nat.log2 m + 1) := by exact_mod_cast Nat.lt_log2_self
  have e1 : (2 : ℚ) ^ (e + bitLen m - 1) = 2 ^ Nat.log2 m * 2 ^ e := by
    rw [hb, ← zpow_natCast, ← zpow_add₀ two_ne_zero]; congr 1; omega
  have e2 : (2 : ℚ) ^ (e + bitLen m) = 2 ^ (Nat.log2 m + 1) * 2 ^ e := by
    rw [hb, ← zpow_natCast, ← zpow_add₀ two_ne_zero]; congr 1; push_cast; omega
  rw [e1, e2, magnitude]
  exact ⟨by gcongr, by gcongr⟩

theorem bitLen_of_magnitude_eq {m m' : Nat} {e e' : Int} (hm : m ≠ 0) (h : magnitude m e = magnitude m' e') :
    e + bitLen m = e' + bitLen m' := by
  have hm' : m' ≠ 0 := fun h0 => hm (magnitude_eq_zero.mp (h.trans (magnitude_eq_zero.mpr h0)))
  obtain ⟨lo, hi⟩ := magnitude_bounds e hm
  obtain ⟨lo', hi'⟩ := magnitude_bounds e' hm'
  rw [h] at lo hi
  have h1 := (zpow_lt_zpow_iff_right₀ (one_lt_two (α := ℚ))).mp (lo.trans_lt hi')
  have h2 := (zpow_lt_zpow_iff_right₀ (one_lt_two (α := ℚ))).mp (lo'.trans_lt hi)
  omega

/-! ## Equal numbers -/

theorem coeff_natAbs (n : Bool) (m : Nat) (e k : Int) : (coeff n m e k).natAbs = m * 2 ^ (e - k).toNat := by
  have h : ((m * 2 ^ (e - k).toNat : Nat) : Int).natAbs = m * 2 ^ (e - k).toNat := Int.natAbs_natCast _
  cases n
  · exact h
  · exact (Int.natAbs_neg _).trans h

theorem coeff_neg_iff (n : Bool) (m : Nat) (e k : Int) : coeff n m e k < 0 ↔ n = true ∧ m ≠ 0 := by
  have hc := coeff_natAbs n m e k
  have hm : m * 2 ^ (e - k).toNat = 0 ↔ m = 0 := by simp
  cases n
  · have h0 : 0 ≤ coeff false m e k := Int.natCast_nonneg _
    simp [h0]
  · have h0 : coeff true m e k ≤ 0 := Int.neg_nonpos_of_nonneg (Int.natCast_nonneg _)
    simp only [true_and]
    omega

/-- Finite numbers are equal where their magnitudes are, and they are zeros or of one sign. -/
theorem eqv_fin {n n' : Bool} {m m' : Nat} {e e' : Int} (h : (Num.fin n m e).eqv (.fin n' m' e') = true) :
    magnitude m e = magnitude m' e' ∧ (m = 0 ∨ n = n') := by
  have hc : coeff n m e (min e e') = coeff n' m' e' (min e e') := by
    simp only [Num.eqv, Num.lt, Num.isNan, min_comm e' e, Bool.not_false, Bool.true_and, Bool.and_eq_true, Bool.not_eq_true',
      decide_eq_false_iff_not] at h
    omega
  have hmag : magnitude m e = magnitude m' e' := by
    rw [magnitude_eq_iff (min_le_left e e') (min_le_right e e'), ← coeff_natAbs n, ← coeff_natAbs n', hc]
  refine ⟨hmag, or_iff_not_imp_left.mpr fun hm => ?_⟩
  have hm' : m' ≠ 0 := fun h0 => hm (magnitude_eq_zero.mp (hmag.trans (magnitude_eq_zero.mpr h0)))
  have hsign := (coeff_neg_iff n m e _).symm.trans (hc ▸ coeff_neg_iff n' m' e' _)
  simpa [hm, hm', ← Bool.eq_iff_iff] using hsign

/-- What equals a finite number is finite. -/
theorem fin_of_eqv {n : Bool} {m : Nat} {e : Int} {y : Num} (h : (Num.fin n m e).eqv y = true) :
    ∃ n' m' e', y = .fin n' m' e' := by
  cases y with
  | nan => exact absurd h (by simp [Num.eqv, Num.isNan])
  | inf b => cases b <;> exact absurd h (by simp [Num.eqv, Num.isNan, Num.lt])
  | fin n' m' e' => exact ⟨n', m', e', rfl⟩

/-! ## Rounding a value that the format holds (R48) -/

theorem Rnd.int_zero (r : Rnd) (lo d : Nat) : r.int lo 0 d = lo := by
  cases r <;> simp [Rnd.int]

theorem roundAt_exact (r : Rnd) {m x : Nat} {e q : Int} (h : magnitude m e = magnitude x q) : roundAt r m e q = (x, false) := by
  unfold roundAt
  split
  · next hq =>
    have := (magnitude_eq_iff hq le_rfl).mp h
    simp [this]
  · next hq =>
    have hm : m = x * 2 ^ (q - e).toNat := by
      simpa using (magnitude_eq_iff le_rfl (by omega : e ≤ q)).mp h
    have hd : m / 2 ^ (q - e).toNat = x := by rw [hm, Nat.mul_div_cancel _ (by positivity)]
    have hr : m % 2 ^ (q - e).toNat = 0 := by rw [hm, Nat.mul_mod_left]
    simp only [hd, hr, Rnd.int_zero, bne_self_eq_false]

/-- A significand and an exponent as a code holds them: a normal has `p` bits, a subnormal the least exponent. -/
structure Fmt.Holds (f : Fmt) (m : Nat) (e : Int) : Prop where
  bits : m < 2 ^ f.p
  least : f.qmin ≤ e
  normal : e = f.qmin ∨ 2 ^ (f.p - 1) ≤ m

/-- The magnitude code of what the format holds. -/
def Fmt.code (f : Fmt) (m : Nat) (e : Int) : Nat := (e - f.qmin).toNat * 2 ^ (f.p - 1) + m

theorem bitLen_le_iff (m p : Nat) : bitLen m ≤ p ↔ m < 2 ^ p := by
  by_cases h : m = 0
  · simp [bitLen, h]
  · rw [bitLen, if_neg h, Nat.succ_le_iff, Nat.log2_lt h]

/-- The exponent at which a value that the format holds is rounded is the one of its code. -/
theorem Fmt.Holds.quantum {f : Fmt} {m : Nat} {e : Int} (h : f.Holds m e) : max (e + bitLen m - f.p) f.qmin = e := by
  have hle := (bitLen_le_iff m f.p).mpr h.bits
  have hge : 2 ^ (f.p - 1) ≤ m → f.p - 1 < bitLen m := fun hm => by
    by_contra hc
    exact absurd ((bitLen_le_iff m (f.p - 1)).mp (by omega)) (by omega)
  have := h.least
  rcases h.normal with h0 | h0
  · omega
  · have := hge h0
    omega

theorem Fmt.round_exact {f : Fmt} (r : Rnd) {m m' : Nat} {e e' : Int} (hm : m ≠ 0) (h : f.Holds m' e')
    (heq : magnitude m e = magnitude m' e') : ∃ tiny, f.round r m e = (f.code m' e', false, tiny) := by
  have hq : max (e + bitLen m - f.p) f.qmin = e' := by rw [bitLen_of_magnitude_eq hm heq]; exact h.quantum
  simp only [Fmt.round, hq, roundAt_exact r heq, Fmt.code]
  exact ⟨_, rfl⟩

/-- The exponent of what the format holds, from a bound on its code. -/
theorem Fmt.Holds.exponent_le {f : Fmt} {m : Nat} {e : Int} (h : f.Holds m e) {t : Nat} (hc : f.code m e ≤ t)
    (ht : 2 ^ (f.p - 1) ≤ t) : e ≤ f.qmin + (t / 2 ^ (f.p - 1) : Nat) - 1 := by
  have hp : 0 < 2 ^ (f.p - 1) := by positivity
  have := h.least
  rcases h.normal with h0 | h0
  · have := (Nat.one_le_div_iff hp).mpr ht
    omega
  · have hle : (e - f.qmin).toNat + 1 ≤ t / 2 ^ (f.p - 1) := by
      rw [Nat.le_div_iff_mul_le hp, Nat.succ_mul]
      exact (Nat.add_le_add_left h0 _).trans hc
    omega

/-- A finite value of the format lies below its top code, and is not beyond its largest one. -/
theorem Fmt.Holds.not_beyond {f : Fmt} {m m' : Nat} {e e' : Int} (h : f.Holds m' e') (hc : f.code m' e' < f.top)
    (ht : 2 ^ (f.p - 1) < f.top) (heq : magnitude m e = magnitude m' e') : f.beyond m e = false := by
  rw [Fmt.beyond, Bool.eq_false_iff, ne_eq, magLt_iff, heq, not_lt]
  exact magnitude_mono (Nat.le_sub_one_of_lt h.bits) (h.exponent_le (Nat.le_sub_one_of_lt hc) (Nat.le_sub_one_of_lt ht))

/-- A zero that the format holds has the code 0. -/
theorem Fmt.Holds.code_zero {f : Fmt} {m : Nat} {e : Int} (h : f.Holds m e) (h0 : magnitude m e = 0) : f.code m e = 0 := by
  obtain rfl := magnitude_eq_zero.mp h0
  rcases h.normal with he | he
  · simp [Fmt.code, he]
  · exact absurd he (by have : 0 < 2 ^ (f.p - 1) := by positivity
                        omega)

/-- A value that the format holds rounds to its code, without a flag. -/
theorem Fmt.finite_exact {f : Fmt} (r : Rnd) {m m' : Nat} {e e' : Int} (h : f.Holds m' e') (hc : f.code m' e' < f.top)
    (ht : 2 ^ (f.p - 1) < f.top) (heq : magnitude m e = magnitude m' e') : f.finite r m e = (f.code m' e', 0) := by
  unfold Fmt.finite
  by_cases hm : m = 0
  · rw [if_pos hm, h.code_zero (heq.symm.trans (magnitude_eq_zero.mpr hm))]
  · obtain ⟨tiny, hr⟩ := f.round_exact r hm h heq
    rw [if_neg hm, hr]
    cases r <;> simp [h.not_beyond hc ht heq, Nat.not_le.mpr hc, flagIf]

/-! ## Codes -/

/-- A code whose value is finite: its sign, and its magnitude code, which lies below the top one. -/
theorem Fmt.value_fin {f : Fmt} {sb c : Nat} {n : Bool} {m : Nat} {e : Int} (hp : 0 < f.p) (h : f.value sb c = .fin n m e) :
    c.testBit sb = n ∧ f.Holds m e ∧ f.code m e = c % 2 ^ sb ∧ c % 2 ^ sb < f.top := by
  have hpow : 2 ^ f.p = 2 ^ (f.p - 1) * 2 := (Nat.two_pow_pred_mul_two hp).symm
  have hfr : c % 2 ^ sb % 2 ^ (f.p - 1) < 2 ^ (f.p - 1) := Nat.mod_lt _ (by positivity)
  have hdm := Nat.div_add_mod' (c % 2 ^ sb) (2 ^ (f.p - 1))
  unfold Fmt.value at h
  extract_lets neg mag ex fr at h
  change ex * 2 ^ (f.p - 1) + fr = mag at hdm
  change fr < _ at hfr
  split at h
  · cases h
  · next hle =>
    split at h
    · cases h
    · next hne =>
      have hlt : mag < f.top := by omega
      split at h
      · next h0 =>
        obtain ⟨rfl, rfl, rfl⟩ := Num.fin.inj h
        refine ⟨rfl, ⟨by omega, le_rfl, .inl rfl⟩, ?_, hlt⟩
        rw [h0] at hdm
        simpa [Fmt.code] using hdm
      · next h0 =>
        obtain ⟨rfl, rfl, rfl⟩ := Num.fin.inj h
        refine ⟨rfl, ⟨by omega, Int.le_add_of_nonneg_right (Int.natCast_nonneg _), .inr (Nat.le_add_right _ _)⟩, ?_, hlt⟩
        have hex : (f.qmin + ((ex - 1 : Nat) : Int) - f.qmin).toNat = ex - 1 := by omega
        calc f.code (2 ^ (f.p - 1) + fr) (f.qmin + (ex - 1 : Nat))
            = (ex - 1 + 1) * 2 ^ (f.p - 1) + fr := by rw [Fmt.code, hex]; ring
          _ = mag := by rw [Nat.sub_add_cancel (Nat.pos_of_ne_zero h0)]; exact hdm

/-- A value equal to that of a code of the same sign rounds to the magnitude of that code, without a flag. -/
theorem Fmt.finite_of_eqv {f : Fmt} {sb c : Nat} {n : Bool} {m : Nat} {e : Int} (r : Rnd) (hp : 0 < f.p)
    (ht : 2 ^ (f.p - 1) < f.top) (h : (Num.fin n m e).eqv (f.value sb c) = true) : f.finite r m e = (c % 2 ^ sb, 0) := by
  obtain ⟨n', m', e', hv⟩ := fin_of_eqv h
  rw [hv] at h
  obtain ⟨-, hh, hc, hlt⟩ := f.value_fin hp hv
  rw [← hc] at hlt ⊢
  exact f.finite_exact r hh hlt ht (eqv_fin h).1

/-- A word is its sign bit and its magnitude. -/
theorem ofNat_sign_magnitude {k : Nat} (w : BitVec (k + 1)) :
    BitVec.ofNat (k + 1) ((if w.msb then 2 ^ k else 0) + w.toNat % 2 ^ k) = w := by
  have hw := w.isLt
  have hs := Nat.pow_succ 2 k
  refine BitVec.eq_of_toNat_eq ?_
  rw [BitVec.msb_eq_decide, BitVec.toNat_ofNat, Nat.add_sub_cancel]
  by_cases h : 2 ^ k ≤ w.toNat
  · have hm : w.toNat % 2 ^ k = w.toNat - 2 ^ k := by
      rw [Nat.mod_eq_sub_mod h, Nat.mod_eq_of_lt (by omega)]
    simp only [h, decide_true, if_true, hm, Nat.add_sub_cancel' h, Nat.mod_eq_of_lt hw]
  · simp only [h, decide_false, Bool.false_eq_true, if_false, Nat.zero_add, Nat.mod_eq_of_lt (not_le.mp h), Nat.mod_eq_of_lt hw]

theorem toW32_exact (r : Rnd) {n : Bool} {m : Nat} {e : Int} {w : Word} (h : (Num.fin n m e).eqv (w32Val w) = true)
    (hn : w.msb = n) : toW32 r (.fin n m e) = (w, 0) := by
  subst hn
  simp only [toW32, Fmt.finite_of_eqv r (by decide) (by decide) h, ofNat_sign_magnitude]

theorem toB16_exact (r : Rnd) {n : Bool} {m : Nat} {e : Int} {w : BitVec 16} (h : (Num.fin n m e).eqv (b16Val w) = true)
    (hn : w.msb = n) : toB16 r (.fin n m e) = (w, 0) := by
  subst hn
  simp only [toB16, Fmt.finite_of_eqv r (by decide) (by decide) h, ofNat_sign_magnitude]

/-! ## Elements of a block -/

/-- Every F8 code but that of NaN has the value of a code of the binary format. -/
theorem f8Val_eq_value : ∀ b : Byte, b ≠ 0x80 → f8Val b = Fmt.f8.value 7 b.toNat := by decide +kernel

/-- A non-zero value that F8 holds rounds to its code, without a flag. -/
theorem encF8Fin_exact (r : Rnd) (n : Bool) {m m' : Nat} {e e' : Int} (hm : m ≠ 0) (h : Fmt.f8.Holds m' e')
    (hc : Fmt.f8.code m' e' < 0x80) (heq : magnitude m e = magnitude m' e') :
    encF8Fin r n m e = ⟨BitVec.ofNat 8 ((if n then 128 else 0) + Fmt.f8.code m' e'), 0, false⟩ := by
  have hm' : m' ≠ 0 := fun h0 => hm (magnitude_eq_zero.mp (heq.trans (magnitude_eq_zero.mpr h0)))
  have hpos : Fmt.f8.code m' e' ≠ 0 := fun h0 => hm' (Nat.add_eq_zero_iff.mp h0).2
  have hbelow : magLt m e 32 0 = true := by
    rw [magLt_iff, heq]
    refine (magnitude_mono (Nat.le_sub_one_of_lt h.bits) (h.exponent_le (Nat.le_sub_one_of_lt hc) (by decide))).trans_lt ?_
    norm_num [magnitude, Fmt.f8]
  obtain ⟨tiny, hr⟩ := Fmt.f8.round_exact r hm h heq
  simp [encF8Fin, hm, hbelow, hr, hpos, Nat.not_le.mpr hc, flagIf]

theorem encF8_exact (r : Rnd) {n : Bool} {m : Nat} {e : Int} {b : Byte} (h : (Num.fin n m e).eqv (f8Val b) = true) :
    encF8 r (.fin n m e) = ⟨b, 0, false⟩ := by
  have hb : b ≠ 0x80 := by rintro rfl; exact absurd h (by simp [Num.eqv, f8Val, Num.isNan])
  rw [f8Val_eq_value b hb] at h
  obtain ⟨n', m', e', hv⟩ := fin_of_eqv h
  rw [hv] at h
  obtain ⟨hs, hh, hc, hlt⟩ := Fmt.f8.value_fin (by decide) hv
  obtain ⟨heq, hn⟩ := eqv_fin h
  have hcode : BitVec.ofNat 8 ((if n' then 128 else 0) + Fmt.f8.code m' e') = b := by
    have hmsb : b.msb = n' := by rw [← hs, BitVec.msb_eq_getLsbD_last]; rfl
    rw [hc, ← hmsb]
    exact ofNat_sign_magnitude b
  by_cases hm : m = 0
  · have h0 := hh.code_zero (heq.symm.trans (magnitude_eq_zero.mpr hm))
    have hb0 : b = 0 := by
      cases n'
      · rw [← hcode, h0]; rfl
      · exact absurd (by rw [← hcode, h0]; rfl) hb
    simp [encF8, encF8Fin, hm, hb0]
  · obtain rfl := hn.resolve_left hm
    rw [encF8, encF8Fin_exact r n hm hh (hc.trans_lt hlt) heq, hcode]

/-- A magnitude of the grid rounds to itself. -/
theorem h4Round_exact (r : Rnd) {k den : Nat} (hk : k < 8) (hd : 0 < den) :
    h4Round r (h4Mags.getD k 0 * den) den = (k, false) := by
  have hlen : ∀ k < 8, ((List.range 8).filter fun i => decide (h4Mags.getD i 0 ≤ h4Mags.getD k 0)).length - 1 = k := by decide
  simp only [h4Round, Nat.mul_le_mul_right_iff hd, hlen k hk, true_or, if_true, bne_self_eq_false]

/-- The codes of H4: a zero has the magnitude code 0, and any other is its sign and its magnitude code. -/
theorem h4_codes : ∀ c < 16, (h4Mags.getD (c % 8) 0 = 0 → c % 8 = 0) ∧
    (c % 8 ≠ 0 → c = (if c.testBit 3 && h4Mags.getD (c % 8) 0 != 0 then 8 else 0) + c % 8) := by decide

theorem encH4Fin_exact (r : Rnd) {n : Bool} {m : Nat} {e : Int} {c : Nat} (hc : c < 16) (h8 : c ≠ 8)
    (h : (Num.fin n m e).eqv (h4Val c) = true) : encH4Fin r n m e = ⟨BitVec.ofNat 8 c, 0, false⟩ := by
  obtain ⟨heq, hn⟩ := eqv_fin h
  obtain ⟨hzero, hcode⟩ := h4_codes c hc
  by_cases hm : m = 0
  · have h0 := hzero (magnitude_eq_zero.mp (heq.symm.trans (magnitude_eq_zero.mpr hm)))
    obtain rfl : c = 0 := by omega
    simp [encH4Fin, hm]
  · have hk : c % 8 ≠ 0 := fun h0 => hm (magnitude_eq_zero.mp (heq.trans (magnitude_eq_zero.mpr (by rw [h0]; rfl))))
    have hx : (if 0 ≤ e + 2 then h4Round r (m * 2 ^ (e + 2).toNat) 1 else h4Round r m (2 ^ (-(e + 2)).toNat)) = (c % 8, false) := by
      split
      · next he =>
        have hq := (magnitude_eq_iff (by omega : -2 ≤ e) le_rfl).mp heq
        rw [show e - -2 = e + 2 by omega] at hq
        rw [hq]
        exact h4Round_exact r (by omega) one_pos
      · next he =>
        have hq := (magnitude_eq_iff le_rfl (by omega : e ≤ -2)).mp heq
        rw [show -2 - e = -(e + 2) by omega, sub_self, Int.toNat_zero, pow_zero, mul_one] at hq
        rw [hq]
        exact h4Round_exact r (by omega) (by positivity)
    have hs := hcode hk
    rw [← hn.resolve_left hm] at hs
    simp only [encH4Fin, hm, if_false, hx, hk, ← hs, flagIf, Bool.false_eq_true]

/-- Settles O51: in each format the value of a code rounds to that code, whatever the mode. -/
theorem exactValuesAreKept : Obligations.ExactValuesAreKept := by
  unfold Obligations.ExactValuesAreKept
  exact fun r n m e => ⟨fun w h hn => toW32_exact r h hn, fun h hv hn => toB16_exact r hv hn, fun b h => encF8_exact r h,
    fun c hc h8 h => encH4Fin_exact r hc h8 h⟩

end Sys2Proof.Machine

/-! SUPPORT. Instructions that only go on, and releases: what an issued instruction ends in, and what a trap leaves of the groups. -/

namespace Sys2Proof.Machine

/-! ## One group put in place of another -/

theorem modGroup_of_group {s : State} {c g : Nat} {x : Group} (f : Group → Group) (h : s.group c g = some x) :
    s.modGroup c g f = s.setGroup c g (f x) := by
  simp only [State.modGroup, h]

/-- The next instruction of a group. -/
theorem advance_eq {s : State} {c g : Nat} {x : Group} (h : s.group c g = some x) :
    s.advance c g = (s.setGroup c g (x.next s c g)).pathEnds c g := advance_of_group h

/-- A group that is put in its slot and goes on is the one that `Group.next` gives. -/
theorem setGroup_advance {s : State} {c g : Nat} {x : Group} (y : Group) (h : s.group c g = some x) :
    (s.setGroup c g y).advance c g = (s.setGroup c g (y.next s c g)).pathEnds c g := by
  rw [advance_of_group (group_setGroup_same g y (core_lt_of_group h)), setGroup_setGroup]
  rfl

theorem modGroup_advance {s : State} {c g : Nat} {x : Group} (f : Group → Group) (h : s.group c g = some x) :
    (s.modGroup c g f).advance c g = (s.setGroup c g ((f x).next s c g)).pathEnds c g := by
  rw [modGroup_of_group f h, setGroup_advance _ h]

/-- A group whose path has not ended at a barrier has nothing checked behind it. -/
theorem pathEnds_of_not_blocked {s : State} {c g : Nat} {x : Group} (h : s.group c g = some x) (hb : x.state ≠ .blocked) :
    s.pathEnds c g = s := by
  simp only [State.pathEnds, h, if_neg hb]

/-! ## Traps (R235, R236) -/

theorem reportTrap_kept (s : State) : Kept s.reportTrap s := by
  unfold State.reportTrap
  split
  · exact (State.drawn_kept _).trans (State.event_kept _ _ _)
  · exact Kept.refl s

/-- A trap parks its group, or halts it in debug mode, and leaves every other group as it is. -/
theorem group_trap {s : State} {c g : Nat} {x : Group} (cause opc addr : Nat) (partly : Bool) (h : s.group c g = some x)
    (c' g' : Nat) : (s.trap c g cause opc addr partly).group c' g' = (s.setGroup c g { x with
      state := if s.debugMode c then .halted else .parked, cause := BitVec.ofNat 8 cause, partly := partly
      stepping := false, wait := .none, load := none }).group c' g' := by
  unfold State.trap
  rw [modGroup_of_group _ h]
  exact group_of_units ((reportTrap_kept _).trans ((State.drawn_kept _).trans (State.record_kept _ _))).units c' g'

/-! ## An issued instruction -/

section
variable {cmd : Instr} {s s1 : State} {c g opc : Nat} {w : IFields} {f : Form} {x : Group} {body : State → Group → State}

/-- A command that issues an instruction ends in what its body makes of the state behind the fetch. -/
theorem Issues.ends (h : Issues s s1 c g opc w f x)
    (hx : exec cmd s = answer (isCore c && isGroup g) s fun s => s.issue c g opc w f body) : Ends cmd s (body s1 x) := by
  rw [Ends, hx, answer_next s _ h.units, h.issue]

theorem Ends.goesOn {y : Group} (h : Ends cmd s ((s1.setGroup c g y).pathEnds c g)) : GoesOn cmd s s1 c g y :=
  ⟨_, rfl, h⟩

/-- An instruction that ends with its group trapping in `u`, where it is `y` and the other groups are those of `s1`. -/
theorem Ends.traps {u : State} {y : Group} {cause addr : Nat} {partly : Bool} (h : Ends cmd s (u.trap c g cause opc addr partly))
    (hy : u.group c g = some y) (hd : u.debugMode c = s1.debugMode c)
    (ho : ∀ c' g', (c' ≠ c ∨ g' ≠ g) → u.group c' g' = s1.group c' g') : Traps cmd s s1 c g y cause partly := by
  have hg := group_trap cause opc addr partly hy
  refine fun _ _ => ⟨_, h, ?_, fun c' g' hne => (hg c' g').trans ((group_setGroup_other _ hne).trans (ho c' g' hne))⟩
  rw [← hd]
  exact (hg c g).trans (group_setGroup_same g _ (core_lt_of_group hy))

/-- The same where the group has been put in its slot before. -/
theorem Ends.traps_put {y : Group} {cause addr : Nat} {partly : Bool} (hs : s1.group c g = some x)
    (h : Ends cmd s ((s1.setGroup c g y).trap c g cause opc addr partly)) : Traps cmd s s1 c g y cause partly :=
  h.traps (group_setGroup_same g y (core_lt_of_group hs)) rfl fun _ _ => group_setGroup_other y

end

/-! ## nop, cede, setctx and twait -/

section
variable {s s1 : State} {c g : Nat} {w : IFields} {x : Group}

theorem nop_goesOn (h : Issues s s1 c g 0x00 w {} x) : GoesOn (.nop c g w) s s1 c g (x.next s1 c g) := by
  have he := h.ends (cmd := .nop c g w) (body := fun s _ => s.advance c g) rfl
  rw [advance_eq h.still] at he
  exact he.goesOn

/-- What cede does behind the advance (R239). -/
theorem cede_ends (h : Issues s s1 c g 0x9C w { plain := true } x) : Ends (.cede c g w) s
    (let s2 := (s1.setGroup c g (x.next s1 c g)).pathEnds c g
     if (s1.core c).preempt then s2.modGroup c g fun y => { y with state := if y.state = .running then .yielded else y.state }
     else s2) := by
  have he := h.ends (cmd := .cede c g w) (body := fun s _ =>
      let s1 := s.advance c g
      if (s.core c).preempt then s1.modGroup c g fun y => { y with state := if y.state = .running then .yielded else y.state }
      else s1) rfl
  rw [advance_eq h.still] at he
  exact he

theorem cede_goesOn (h : Issues s s1 c g 0x9C w { plain := true } x) (hp : (s1.core c).preempt = false) :
    GoesOn (.cede c g w) s s1 c g (x.next s1 c g) := by
  have he := cede_ends h
  rw [hp] at he
  exact he.goesOn

/-- A group that preemption meets at a cede yields unless its path has ended at a barrier. -/
theorem cede_yields (h : Issues s s1 c g 0x9C w { plain := true } x) (hp : (s1.core c).preempt = true)
    (hb : (x.next s1 c g).state ≠ .blocked) : Leaves (.cede c g w) s s1 c g
      { x.next s1 c g with state := if (x.next s1 c g).state = .running then .yielded else (x.next s1 c g).state } := by
  have hg := group_setGroup_same g (x.next s1 c g) (core_lt_of_group h.still)
  have he := cede_ends h
  rw [hp, pathEnds_of_not_blocked hg hb] at he
  simp only [if_true, modGroup_of_group _ hg, setGroup_setGroup] at he
  exact he

/-- The field of the stipple context that MOD of setctx names takes a value. -/
def Group.setCtx (x : Group) (w : IFields) (v : Word) : Group :=
  if w.md = 0 then { x with ctxStream := v.setWidth 16 }
  else if w.md = 1 then { x with ctxTensor := v }
  else if w.md = 2 then { x with ctxDraw := v }
  else { x with ctxCoarse := v }

theorem setctx_ends {l : Nat} (h : Issues s s1 c g 0x89 w { a := .reg, mods := 0xF, plain := true } x) (hl : x.lowest l) :
    Ends (.setctx c g w) s
      (if w.md = 3 && !coarseOk (x.av w l) then s1.trap c g TC.scale 0x89 x.pc.toNat false
       else (s1.modGroup c g fun y => y.setCtx w (x.av w l)).advance c g) := by
  have he := h.ends (cmd := .setctx c g w) (body := fun s x => match (lanesOf x.active).head? with
      | none => s.advance c g
      | some l =>
        let v := x.av w l
        if w.md = 3 && !coarseOk v then s.trap c g TC.scale 0x89 x.pc.toNat false
        else (s.modGroup c g fun y => y.setCtx w v).advance c g) rfl
  rw [Group.lowest] at hl
  simpa only [hl] using he

theorem setctx_goesOn {l : Nat} (h : Issues s s1 c g 0x89 w { a := .reg, mods := 0xF, plain := true } x) (hl : x.lowest l)
    (hc : w.md = 3 → coarseOk (x.av w l) = true) :
    GoesOn (.setctx c g w) s s1 c g ((x.setCtx w (x.av w l)).next s1 c g) := by
  have he := setctx_ends h hl
  rw [if_neg (by simpa using hc), modGroup_advance _ h.still] at he
  exact he.goesOn

theorem setctx_traps {l : Nat} (h : Issues s s1 c g 0x89 w { a := .reg, mods := 0xF, plain := true } x) (hl : x.lowest l)
    (hm : w.md = 3) (hc : coarseOk (x.av w l) = false) : Traps (.setctx c g w) s s1 c g x 0x0C false := by
  have he := setctx_ends h hl
  rw [if_pos (by simp [hm, hc])] at he
  exact he.traps h.still rfl fun _ _ _ => rfl

theorem twait_ends (h : Issues s s1 c g 0x81 w { imm := true, plain := true } x) : Ends (.twait c g w) s
    (if x.badDesc then (s1.setGroup c g { x with badDesc := false }).trap c g TC.tiledesc 0x81 x.pc.toNat false
     else if x.outstanding ≤ w.imm.toNat % 32 then (s1.setGroup c g (x.next s1 c g)).pathEnds c g
     else s1.setGroup c g { x with state := .blocked, wait := .twait (w.imm.toNat % 32) }) := by
  have he := h.ends (cmd := .twait c g w) (body := fun s x =>
      if x.badDesc then s.tileDesc c g 0x81 x
      else if x.outstanding ≤ w.imm.toNat % 32 then s.advance c g
      else s.modGroup c g fun y => { y with state := .blocked, wait := .twait (w.imm.toNat % 32) }) rfl
  simp only [State.tileDesc, modGroup_of_group _ h.still, advance_eq h.still] at he
  exact he

theorem twait_traps (h : Issues s s1 c g 0x81 w { imm := true, plain := true } x) (hb : x.badDesc = true) :
    Traps (.twait c g w) s s1 c g { x with badDesc := false } 0x0A false := by
  have he := twait_ends h
  rw [if_pos hb] at he
  exact he.traps_put h.still

theorem twait_goesOn (h : Issues s s1 c g 0x81 w { imm := true, plain := true } x) (hb : x.badDesc = false)
    (ho : x.outstanding ≤ w.imm.toNat % 32) : GoesOn (.twait c g w) s s1 c g (x.next s1 c g) := by
  have he := twait_ends h
  rw [if_neg (by simp [hb]), if_pos ho] at he
  exact he.goesOn

theorem twait_waits (h : Issues s s1 c g 0x81 w { imm := true, plain := true } x) (hb : x.badDesc = false)
    (ho : w.imm.toNat % 32 < x.outstanding) :
    Leaves (.twait c g w) s s1 c g { x with state := .blocked, wait := .twait (w.imm.toNat % 32) } := by
  have he := twait_ends h
  rw [if_neg (by simp [hb]), if_neg (not_le.mpr ho)] at he
  exact he

end

/-! ## Releases (R193) -/

section
variable {cmd : Instr} {s s1 : State} {c g opc : Nat} {w : IFields} {f : Form} {x : Group} {m : BitVec 64} {adv : Bool}
  {next : State → State}

/-- The group that waits for the read-backs that its release has sent. -/
def Group.awaits (x : Group) (m : BitVec 64) (adv : Bool) (opc : Nat) (ids : List (Nat × Nat)) : Group :=
  { x.released_ m with
    state := .blocked, wait := .fence adv
    load := some { d := 0, size := 0, opc := opc, lanes := [], ids := ids, got := [] } }

theorem release_of_not_owed (hs : s1.group c g = some x) (h : x.owed m = []) :
    s1.release c g opc x m adv next = next (s1.setGroup c g (x.released_ m)) := by
  simp [State.release, h, modGroup_of_group _ hs]

/-- A release whose lanes owe peers a read-back. -/
theorem release_of_owed (hs : s1.group c g = some x) (h : x.owed m ≠ []) : s1.release c g opc x m adv next =
    if (x.owed m).any fun e => (Sparse.find x.peerRoute e.1).isNone then
      (s1.setGroup c g (x.released_ m)).trap c g TC.memerr opc x.pc.toNat false
    else if 2048 < s1.net.reads.length + (x.owed m).length then s1
    else
      let back := s1.readBacks c g x (x.owed m) []
      back.1.modGroup c g fun y => y.awaits m adv opc back.2 := by
  simp only [State.release, List.isEmpty_eq_false_iff.mpr h, modGroup_of_group _ hs, Bool.false_eq_true, if_false]
  rfl

theorem fence_ends (h : Issues s s1 c g 0x7A w { mods := 0xFFF0 } x) : Ends (.fence c g w) s
    (if sysRelease w then s1.release c g 0x7A x (x.exec w) true (·.advance c g) else s1.advance c g) :=
  h.ends (cmd := .fence c g w) (body := fun s x =>
    if w.m 2 && w.md.toNat % 4 == 3 then s.release c g 0x7A x (x.exec w) true fun s => s.advance c g else s.advance c g) rfl

/-- A fence with nothing to wait for goes on. -/
theorem fence_goesOn (h : Issues s s1 c g 0x7A w { mods := 0xFFF0 } x) (ho : sysRelease w = true → x.owed (x.exec w) = []) :
    GoesOn (.fence c g w) s s1 c g (Group.next (if sysRelease w then x.released_ (x.exec w) else x) s1 c g) := by
  have he := fence_ends h
  by_cases hr : sysRelease w = true
  · rw [if_pos hr, release_of_not_owed h.still (ho hr), setGroup_advance _ h.still] at he
    rw [if_pos hr]
    exact he.goesOn
  · rw [if_neg hr, advance_eq h.still] at he
    rw [if_neg hr]
    exact he.goesOn

theorem fence_releases (h : Issues s s1 c g 0x7A w { mods := 0xFFF0 } x) (hr : sysRelease w = true) :
    Ends (.fence c g w) s (s1.release c g 0x7A x (x.exec w) true (·.advance c g)) := by
  have he := fence_ends h
  rwa [if_pos hr] at he

theorem stRel_releases (h : Issues s s1 c g 0x55 w (storeForm w 0xFFFF) x) (hm : w.md.toNat / 4 = 3) :
    Ends (.stRel c g w) s (s1.release c g 0x55 x (x.exec w) false (·.store c g 0x55 w x)) := by
  have he := h.ends (cmd := .stRel c g w) (body := fun s x =>
      if w.md.toNat / 4 = 3 then s.release c g 0x55 x (x.exec w) false fun s => s.store c g 0x55 w x
      else s.store c g 0x55 w x) rfl
  simpa only [if_pos hm] using he

/-- A release traps where the route of a store is not known. -/
theorem Ends.release_traps (he : Ends cmd s (s1.release c g opc x m adv next)) (hs : s1.group c g = some x)
    (h : ∃ e ∈ x.owed m, Sparse.find x.peerRoute e.1 = none) : Traps cmd s s1 c g (x.released_ m) 0x05 false := by
  obtain ⟨e, hm, hn⟩ := h
  rw [release_of_owed hs (List.ne_nil_of_mem hm), if_pos (List.any_eq_true.mpr ⟨e, hm, by simp [hn]⟩)] at he
  exact he.traps_put hs

/-- A release stays at its instruction where too few read ids are free, and waits for its read-backs where they are sent. -/
theorem Ends.release_waits (he : Ends cmd s (s1.release c g opc x m adv next)) (hs : s1.group c g = some x) (h : x.owed m ≠ [])
    (hr : ∀ e ∈ x.owed m, ∃ r, Sparse.find x.peerRoute e.1 = some r) :
    let back := s1.readBacks c g x (x.owed m) []
    (2048 < s1.net.reads.length + (x.owed m).length → Ends cmd s s1) ∧
    (s1.net.reads.length + (x.owed m).length ≤ 2048 → back.1.group c g = some x →
      Leaves cmd s back.1 c g (x.awaits m adv opc back.2)) := by
  have hn : ((x.owed m).any fun e => (Sparse.find x.peerRoute e.1).isNone) = false := by
    rw [List.any_eq_false]
    intro e he
    obtain ⟨r, hr⟩ := hr e he
    simp [hr]
  rw [release_of_owed hs h, hn, if_neg Bool.false_ne_true] at he
  refine ⟨fun hf => ?_, fun hf hg => ?_⟩
  · rwa [if_pos hf] at he
  · simp only [if_neg (not_lt.mpr hf), modGroup_of_group _ hg] at he
    exact he

end

/-- Settles O4: each instruction by what it ends in; fence and st.rel at system scope end in the same release. -/
theorem plainControl : Obligations.PlainControl := by
  unfold Obligations.PlainControl
  intro s s1 c g w x
  refine ⟨nop_goesOn, fun h => ⟨cede_goesOn h, cede_yields h, fun hp _ => ?_⟩, fun l => setctx_goesOn, fun l => setctx_traps,
    twait_traps, fun h hb => ⟨twait_goesOn h hb, twait_waits h hb⟩, fence_goesOn, fun cmd opc form adv hcmd h ho => ?_⟩
  · have he := cede_ends h
    rwa [hp] at he
  · have he : ∃ next, Ends cmd s (s1.release c g opc x (x.exec w) adv next) := by
      obtain ⟨rfl, rfl, rfl, rfl, hr⟩ | ⟨rfl, rfl, rfl, rfl, hm⟩ := hcmd
      · exact ⟨_, fence_releases h hr⟩
      · exact ⟨_, stRel_releases h hm⟩
    obtain ⟨next, he⟩ := he
    exact ⟨he.release_traps h.still, he.release_waits h.still ho⟩

end Sys2Proof.Machine

/-! SUPPORT. Tensor commands: a command that a die takes from its ring ends with the result of its tiles (R148). -/

namespace Sys2Proof.Machine

/-! ## A command that a die takes from its ring -/

/-- Here and below, a definition that begins with a match on a read is unfolded as a constant: to compare its application with the
match, the kernel would evaluate the read. -/
theorem mseAct_of_walks {s s1 : State} {k : Nat} {c : MseCmd} (run : State → MseCmd → Option (State × MseRes))
    (h : s.mseWalks k c = (s1, false)) : s.mseAct k c run = run s1 c := by
  have hdef := Eq.refl State.mseAct
  conv_rhs at hdef => delta State.mseAct
  rw [hdef]
  beta_reduce
  rw [h]

/-- A command that passes the check of its completion address, and whose run gives a result, is taken and ends with it. -/
theorem TakesMse.mseTake {s s1 s2 : State} {k r : Nat} {c : MseCmd} {ok : Nat → Bool}
    {run : State → MseCmd → Option (State × MseRes)} {y : MseRes} (h : TakesMse s s1 k r c) (hok : ok c.op = true)
    (hrun : run s1 c = some (s2, y)) :
    s.mseTake k r ok run = ((s2.msePop k r).mseRan k r c.op c.cpl .ring y).showOpenWait k := by
  obtain ⟨w, s0, s3, hfetch, rfl, hcpl, hwalk⟩ := h.head
  have hact := (mseAct_of_walks run hwalk).trans hrun
  have hdef := Eq.refl State.mseTake
  conv_rhs at hdef => delta State.mseTake
  rw [hdef]
  beta_reduce
  rw [hfetch]
  dsimp only
  rw [if_neg (by simp [hok]), if_pos rfl, hcpl]
  dsimp only
  rw [hact]
  rfl

/-- The die's turn comes to the command, and its logic is sound. -/
theorem TakesMse.mseDo {s s1 s2 : State} {k r : Nat} {c : MseCmd} {ok : Nat → Bool}
    {run : State → MseCmd → Option (State × MseRes)} {y : MseRes} (h : TakesMse s s1 k r c) (hok : ok c.op = true)
    (hrun : run s1 c = some (s2, y)) : s.mseDo k r ok run = s2.mseEnds k r c y := by
  have hturn := h.turn
  simp only [State.mseTurn, Bool.and_eq_true, Bool.not_eq_true'] at hturn
  obtain ⟨⟨⟨hruns, hlogic⟩, -⟩, -⟩ := hturn
  rw [State.mseDo, if_pos hruns, if_pos h.turn, h.mseTake hok hrun, State.onDie, if_neg (by simpa [mseLoc] using hlogic)]
  rfl

theorem TakesMse.units {s s1 : State} {k r : Nat} {c : MseCmd} (h : TakesMse s s1 k r c) : (isMse k && isRing r) = true := by
  simp [isMse, isRing, h.die, h.ring]

/-- A tensor command that passes its checks ends with its tiles' result, its flags raised before the record (R62, R105). -/
theorem TakesMse.tensor_ends {cmd : Instr} {s s1 s2 : State} {k r n : Nat} {c : MseCmd} {y : MseRes} (h : TakesMse s s1 k r c)
    (hx : exec cmd s = answer (isMse k && isRing r) s fun s => s.mseDo k r (· == n) fun s c => some (s.mseRun k c))
    (hop : c.op = n) (hn : n ≠ 0) (hc : s1.mseCheck k c = none)
    (ht : s1.mseTiles k c (MseRes.of 0) (s1.tilesFor k c) = (s2, y)) :
    EndsMse cmd s (if n = 2 then (s2.raiseMse k y.flags).count F.NUM_CRUSH_COUNT y.count (c.tensor.toNat / 2 ^ 29)
      else s2.raiseMse k y.flags) k r c y := by
  have hrun : s1.mseRun k c = (if n = 2 then (s2.raiseMse k y.flags).count F.NUM_CRUSH_COUNT y.count (c.tensor.toNat / 2 ^ 29)
      else s2.raiseMse k y.flags, y) := by
    simp only [State.mseRun, hc, hop, MO.nop, hn, if_false, State.mseTensor, ht, MO.encode]
  rw [EndsMse, hx, answer_next s _ h.units, h.mseDo (by simp [hop]) (congrArg some hrun)]

/-! ## Tiles (R148) -/

theorem mseWrites_of_writesAll {k : Nat} {upd : Bool} (r : MseRes) {ps : List (Nat × List Byte)} {s s2 : State}
    (h : WritesAll (agentMse k) upd s ps s2) : s.mseWrites k upd r ps = (s2, r) := by
  induction ps generalizing s with
  | nil => rw [show s2 = s from h.symm]; rfl
  | cons p ps ih =>
    obtain ⟨s1, hw, hr⟩ := h
    simp only [State.mseWrites, hw, ih hr]

/-- A tensor command is taken by its opcode, which is not that of NOP. -/
theorem tensorOps_exec {e : TensorOp} (he : e ∈ tensorOps) : e.op ≠ 0 ∧ ∀ k r s, exec (e.cmd k r) s =
    answer (isMse k && isRing r) s fun s => s.mseDo k r (· == e.op) fun s c => some (s.mseRun k c) := by
  simp only [tensorOps, List.mem_cons, List.not_mem_nil, or_false] at he
  rcases he with rfl | rfl | rfl | rfl | rfl <;> exact ⟨by decide, fun _ _ _ => rfl⟩

/-- What a tile adds to a result is no failure. -/
theorem grows_status {e : TensorOp} (he : e ∈ tensorOps) (c : MseCmd) (s : State) (r : MseRes) (t : Nat) (b x : List Byte) :
    (e.grows c s r t b x).status = r.status := by
  simp only [tensorOps, List.mem_cons, List.not_mem_nil, or_false] at he
  rcases he with rfl | rfl | rfl | rfl | rfl <;> rfl

/-- One tile: the bytes that the command reads for it, the writes that it makes of them, and its part of the result. -/
theorem mseTileOp_eq {e : TensorOp} (he : e ∈ tensorOps) {k : Nat} {c : MseCmd} (hop : c.op = e.op) {s s1 s3 : State} (r : MseRes)
    {t : Nat} {b x : List Byte} (hf : e.fetch k c s t = (s1, .ok (b, x)))
    (hw : WritesAll (agentMse k) c.upd s1 (e.puts c s1 t b x) s3) : s.mseTileOp k c r t = (s3, e.grows c s1 r t b x) := by
  simp only [tensorOps, List.mem_cons, List.not_mem_nil, or_false] at he
  have hwrites := fun r => mseWrites_of_writesAll r hw
  have hread : e.fetch = sourceTile → s.mseTileEntry k c.src c.sfmt c.ssp t = (s1, .ok (b, x)) := fun h => by
    rw [h] at hf
    exact hf
  rcases he with rfl | rfl | rfl | rfl | rfl
  · obtain rfl : s1 = s3 := hw
    simp [State.mseTileOp, hop, MO.fill, hread rfl]
  · simp [State.mseTileOp, hop, MO.fill, hread rfl, hwrites]
  · simp [State.mseTileOp, hop, MO.fill, hread rfl, hwrites]
  · obtain ⟨rfl, -⟩ := Prod.mk.inj hf
    by_cases hm : c.mode = 0
    · simp only [hm, if_true] at hwrites
      simp only [State.mseTileOp, hop, MO.fill, hm, if_true, hwrites]
    · simp only [hm, if_false] at hwrites
      simp only [State.mseTileOp, hop, MO.fill, hm, if_true, if_false, hwrites]
  · have hmode : c.transposes = decide (c.mode = 1) := by
      simp [MseCmd.transposes, hop, MO.copy, Bool.beq_eq_decide_eq]
    by_cases hm : c.mode = 1
    · simp only [hm, if_true] at hwrites
      simp [State.mseTileOp, hop, MO.fill, hread rfl, hmode, hm, hwrites, MseCmd.destTile]
    · simp only [hm, if_false] at hwrites
      simp [State.mseTileOp, hop, MO.fill, hread rfl, hmode, hm, hwrites, MseCmd.destTile]

theorem mseTiles_of_steps {e : TensorOp} (he : e ∈ tensorOps) {k : Nat} {c : MseCmd} (hop : c.op = e.op) {ts : List Nat}
    {s s2 : State} {r y : MseRes} (hr : r.status = 0) (h : TileSteps e k c s r ts s2 y) : s.mseTiles k c r ts = (s2, y) := by
  induction ts generalizing s r with
  | nil => obtain ⟨rfl, rfl⟩ := h; rfl
  | cons t ts ih =>
    obtain ⟨s1, b, x, s3, hf, hw, hrest⟩ := h
    have hst : (e.grows c s1 r t b x).status = 0 := (grows_status he c s1 r t b x).trans hr
    simp only [State.mseTiles, mseTileOp_eq he hop r hf hw, hst, if_true, ih hst hrest]

/-- HIST on a die that homes one tile. -/
theorem TakesMse.hist_ends {s s1 s2 : State} {k r t : Nat} {c : MseCmd} {y : MseRes} (h : TakesMse s s1 k r c) (hop : c.op = 6)
    (hc : s1.mseCheck k c = none) (hts : s1.tilesFor k c = [t]) (hy : s1.mseTileOp k c (MseRes.of 0) t = (s2, y)) :
    EndsMse (.mseHist k r) s (s2.raiseMse k y.flags) k r c y := by
  have hone : s1.mseTiles k c (MseRes.of 0) (s1.tilesFor k c) = (s2, y) := by
    simp only [hts, State.mseTiles, hy, ite_self]
  have he := h.tensor_ends (cmd := .mseHist k r) rfl hop (by decide) hc hone
  rwa [if_neg (by decide)] at he

/-- HIST of the elements of a tile (R160). -/
theorem mseTileOp_elements {k : Nat} {c : MseCmd} (hop : c.op = 6) (hm : c.mode = 0) {s s1 : State} (r : MseRes) {t : Nat}
    {b x : List Byte} (hf : s.mseTileEntry k c.src c.sfmt c.ssp t = (s1, .ok (b, x))) : s.mseTileOp k c r t =
      ((wideTile c.sfmt b).foldl (fun u v => u.count F.MSE_HIST_COUNT 1 k (histBin v)) s1, { r with count := r.count + 1 }) := by
  simp [State.mseTileOp, hop, MO.fill, hf, hm]

/-- HIST of a tile of two copies (R160). -/
theorem mseTileOp_copies {k : Nat} {c : MseCmd} (hop : c.op = 6) (hm : c.mode = 1) {s s1 s2 : State} (r : MseRes) {t : Nat}
    {b b' x : List Byte} (hf : s.mseTileEntry k c.src c.sfmt c.ssp t = (s1, .ok (b, x)))
    (hg : s1.mseTile k c.dst c.sfmt t = (s2, .ok b')) : s.mseTileOp k c r t =
      (s2.count F.MSE_HIST_COUNT 1 k ((disagreement (wideTile c.sfmt b) (wideTile c.sfmt b')).getD 65),
        { r with count := r.count + 1 }) := by
  simp only [State.mseTileOp, hop, MO.fill, hf, hm, hg]
  cases disagreement (wideTile c.sfmt b) (wideTile c.sfmt b') <;> rfl

/-- Settles O20: the tiles by induction (`mseTiles_of_steps`), within the command that the die takes from its ring. -/
theorem tensorCommands : Obligations.TensorCommands := by
  unfold Obligations.TensorCommands
  intro s s1 k r c h hc
  refine ⟨fun e he s2 y hop hsteps => ?_, fun t s2 b x hop hts hf => ⟨fun hm => ?_, fun s3 b' hm hg => ?_⟩⟩
  · obtain ⟨hn, hx⟩ := tensorOps_exec he
    exact h.tensor_ends (hx k r s) hop hn hc (mseTiles_of_steps he hop rfl hsteps)
  · exact h.hist_ends (y := { MseRes.of 0 with count := 1 }) hop hc hts (mseTileOp_elements hop hm (MseRes.of 0) hf)
  · exact h.hist_ends (y := { MseRes.of 0 with count := 1 }) hop hc hts (mseTileOp_copies hop hm (MseRes.of 0) hf hg)

end Sys2Proof.Machine

/-! SUPPORT. One engine of a core: what it is after an update, and what an update of it leaves alone. -/

namespace Sys2Proof.Machine

theorem isCore_of_lt {c : Nat} (h : c < 64) : isCore c = true := decide_eq_true h

/-- Where a core's state is as an update leaves it, the update changes nothing. -/
theorem modCore_of_fixed {s : State} {c : Nat} {f : Core → Core} (h : f (s.core c) = s.core c) : s.modCore c f = s := by
  have hl : s.cores.modify c f = s.cores := by
    refine List.ext_getElem (List.length_modify ..) fun i h1 h2 => ?_
    rw [List.getElem_modify]
    split
    · next hi => subst hi; simpa [State.core, nth, List.getD_eq_getElem?_getD, h2] using h
    · rfl
  rw [State.modCore, hl]

@[simp] theorem Core.eng_setEng_same (k : Core) (e : Eng) (x : Engine) : (k.setEng e x).eng e = x := by cases e <;> rfl

theorem Core.eng_setEng_other (k : Core) (x : Engine) : ∀ {e e' : Eng}, e' ≠ e → (k.setEng e x).eng e' = k.eng e'
  | .f, .b, _ | .b, .f, _ => rfl
  | .f, .f, h | .b, .b, h => absurd rfl h

@[simp] theorem Core.groups_setEng (k : Core) (e : Eng) (x : Engine) : (k.setEng e x).groups = k.groups := by cases e <;> rfl

theorem eng_modEng_same {s : State} {c : Nat} (e : Eng) (f : Engine → Engine) (h : c < s.cores.length) :
    (s.modEng c e f).eng c e = f (s.eng c e) := by
  rw [State.modEng, State.eng, core_modCore_same _ h, Core.eng_setEng_same, State.eng]

theorem eng_modEng_other (s : State) {c c' : Nat} {e e' : Eng} (f : Engine → Engine) (h : c' ≠ c ∨ e' ≠ e) :
    (s.modEng c e f).eng c' e' = s.eng c' e' := by
  by_cases hc : c' = c
  · subst hc
    by_cases hl : c' < s.cores.length
    · rw [State.modEng, State.eng, core_modCore_same _ hl, Core.eng_setEng_other _ _ (by simpa using h), State.eng]
    · rw [State.modEng, State.modCore, List.modify_eq_self (by omega)]
  · rw [State.modEng, State.eng, core_modCore_other _ hc, State.eng]

@[simp] theorem group_modEng (s : State) (c : Nat) (e : Eng) (f : Engine → Engine) (c' g' : Nat) :
    (s.modEng c e f).group c' g' = s.group c' g' := group_modCore s c _ (fun _ => Core.groups_setEng _ _ _) c' g'

/-- Two updates of one engine are one. -/
theorem modEng_modEng (s : State) (c : Nat) (e : Eng) (f g : Engine → Engine) :
    (s.modEng c e f).modEng c e g = s.modEng c e fun x => g (f x) := by
  have hk (k : Core) (x y : Engine) : (k.setEng e x).setEng e y = k.setEng e y := by cases e <;> rfl
  simp [State.modEng, State.modCore, List.modify_modify_eq, Function.comp_def, hk]

/-- An engine is what it was where the cores are. -/
theorem eng_of_units {s t : State} (h : t.units = s.units) (c : Nat) (e : Eng) : t.eng c e = s.eng c e := by
  have : t.cores = s.cores := congrArg Prod.fst h
  simp only [State.eng, State.core, this]

@[simp] theorem eng_setGroup (s : State) (c g : Nat) (x : Group) (c' : Nat) (e : Eng) : (s.setGroup c g x).eng c' e = s.eng c' e := by
  rw [State.eng, core_setGroup]
  cases e <;> rfl

/-- A core that the device does not have has no queued descriptor. -/
theorem core_lt_of_queue {s : State} {c : Nat} {e : Eng} {q : QDesc} {rest : List QDesc} (h : (s.eng c e).queue = q :: rest) :
    c < s.cores.length := by
  by_contra hc
  have : s.core c = Core.reset := by simp [State.core, nth, List.getD_eq_getElem?_getD, not_lt.mp hc]
  rw [State.eng, this] at h
  cases e <;> exact absurd h (by simp [Core.eng, Core.reset, Engine.reset])

end Sys2Proof.Machine

/-! SUPPORT. Idle engines, check units and recomputed nibs (R86, R90, R91, R127, R128). -/

namespace Sys2Proof.Machine

/-- A count grows until its field is full. -/
theorem fld_count_same (s : State) (f : Field) (k i j : Nat) (hl : f.lo ≤ f.hi) (hh : f.hi < 32) :
    (s.count f k i j).fld f i j = min (s.fld f i j + k) (2 ^ (f.hi - f.lo + 1) - 1) := by
  have hpos := Nat.two_pow_pos (f.hi - f.lo + 1)
  rw [State.count, State.fld_setFld_same s f _ i j hl hh, satAdd]
  exact Nat.mod_eq_of_lt (by omega)

/-- An empty queue lets the columns ramp down where IDLE is not 0 (R86). -/
theorem exec_engineIdle {s : State} {c : Nat} {e : Eng} (hc : c < 64) (hq : (s.eng c e).queue = [])
    (hi : s.fld F.CORE_MXCTL_IDLE (s.phys c) ≠ 0) :
    exec (.engineIdle c e) s = .next (keepFixed s (s.modEng c e fun x => { x with up := false })) := by
  rw [show exec (.engineIdle c e) s = execEngineIdle c e s from rfl, execEngineIdle, answer_next s _ (isCore_of_lt hc)]
  simp [hq, hi]

/-- The oldest sample of a check unit leaves it and is counted by its class, and by its bin where it is finite (R128). -/
theorem exec_blotterSampleComplete {s : State} {cl : Nat} {x : BlotSample} {r : List BlotSample} (hcl : cl < 16)
    (hx : nth [] s.blot cl = x :: r) (hup : s.diesUp = true) :
    exec (.blotterSampleComplete cl) s = .next (keepFixed s
      (if x.nonfin then { s with blot := s.blot.set cl r }.count F.NUM_BLSTAT_NONFIN 1 x.cls
       else { s with blot := s.blot.set cl r }.count F.NUM_BLHIST_COUNT 1 x.cls x.bin)) := by
  rw [show exec (.blotterSampleComplete cl) s = execBlotterSampleComplete cl s from rfl, execBlotterSampleComplete,
    answer_next s _ (show isCluster cl = true from decide_eq_true hcl)]
  simp [hx, hup]

/-- A mismatch of a nib that is not under recomputation puts it there, with the CRC of its operands (R90). -/
theorem exec_chunkMismatch {s : State} {c : Nat} {e : Eng} {q : QDesc} {rest : List QDesc} {m : NibMismatch} {col b i j : Nat}
    (hc : c < 64) (hup : s.diesUp = true) (hq : (s.eng c e).queue = q :: rest) (hm : m.ok e = true)
    (hcol : (s.slot (s.phys c)).logicalCol e m.row m.col = some col)
    (ho : (readDesc q.words).nibOrigin e m.block m.row col = some (b, i, j)) (ht : q.taken = true) (hs : q.status = 0)
    (hop : (readDesc q.words).op = 1) (hch : m.chunk < tilesOf (readDesc q.words).k)
    (hnew : ∀ y ∈ (s.eng c e).recomp, y.mis.row ≠ m.row ∨ y.mis.col ≠ m.col) :
    exec (.chunkMismatch c e m) s = .next (keepFixed s (s.modEng c e fun x => { x with recomp := x.recomp ++
      [⟨m, m.col, BitVec.ofNat 32 (crc32c (s.nibOperands c (readDesc q.words) b i j m.chunk))⟩] })) := by
  have hk : (readDesc q.words).k ≠ 0 := fun h => by simp [h, tilesOf] at hch
  have hok : (readDesc q.words).chunkOk m = true := by simp [TileDesc.chunkOk, hk, hch]
  have hany : ((s.eng c e).recomp.any fun y => y.mis.row == m.row && y.mis.col == m.col) = false := by
    simpa [List.any_eq_false, or_iff_not_imp_left] using hnew
  rw [show exec (.chunkMismatch c e m) s = execChunkMismatch c e m s from rfl, execChunkMismatch,
    answer_next s _ (by simp [isCore_of_lt hc, hm])]
  simp [hq, hcol, ho, hup, ht, hs, hop, hok, hany]

/-- The record, the retirement and the counts of a nib fault leave the units alone. -/
theorem retireNib_units (s : State) (p : Nat) (e : Eng) (row col : Nat) : (s.retireNib p e row col).units = s.units := by
  have hslot (s : State) (f : Slot → Slot) : (s.modSlot p f).units = s.units := rfl
  cases e <;> simp only [State.retireNib, State.cellarChanged_units, State.count_units, State.setFld_units, hslot]

/-- The head counts `n` blocks more and the oldest recomputation ends, in a state whose units are those of `s`. -/
theorem recomputed_effect {s u : State} {c n : Nat} {e : Eng} {q : QDesc} {rest : List QDesc} {y : Recomp} {ys : List Recomp}
    (hu : u.units = s.units) (hq : (s.eng c e).queue = q :: rest) (hr : (s.eng c e).recomp = y :: ys) :
    ((u.recomputed c e n).eng c e).recomp = ys ∧
    ((u.recomputed c e n).eng c e).queue = { q with recomp := q.recomp + n } :: rest ∧
    (∀ c' g', (u.recomputed c e n).group c' g' = s.group c' g') ∧
    ∀ c' e', (c' ≠ c ∨ e' ≠ e) → (u.recomputed c e n).eng c' e' = s.eng c' e' := by
  have he := eng_of_units hu
  have hl : c < u.cores.length := core_lt_of_queue ((congrArg Engine.queue (he c e)).trans hq)
  refine ⟨?_, ?_, fun c' g' => (group_modEng _ _ _ _ _ _).trans (group_of_units hu c' g'),
    fun c' e' h => (eng_modEng_other _ _ h).trans (he c' e')⟩
  · rw [State.recomputed, eng_modEng_same e _ hl, he, hr]; rfl
  · rw [State.recomputed, eng_modEng_same e _ hl, he]; simp only [hq]

/-- A recomputation that is clean, or that shows the signature again where the row's spare is free, ends; the unit state it leaves
but for the engine is that of `s`, and the head counts one block or two (R91, R92). -/
theorem exec_recomputationComplete {s : State} {c n : Nat} {e : Eng} {y : Recomp} {ys : List Recomp} {r : RecompResult} (hc : c < 64)
    (hup : s.diesUp = true) (hr : (s.eng c e).recomp = y :: ys)
    (h : r = .clean ∧ n = 1 ∨ r = .same ∧ n = 2 ∧ (s.slot (s.phys c)).spareUsed e y.mis.row = false) :
    ∃ u : State, u.units = s.units ∧ exec (.recomputationComplete c e r) s = .next (keepFixed s (u.recomputed c e n)) := by
  rw [show exec (.recomputationComplete c e r) s = execRecomputationComplete c e r s from rfl, execRecomputationComplete,
    answer_next s _ (isCore_of_lt hc)]
  rcases h with ⟨rfl, rfl⟩ | ⟨rfl, rfl, hfree⟩
  · refine ⟨(s.count F.CORE_MXCHK_TRANS 1 (s.phys c)).nibRecord c e y RC.corrected 0,
      (State.record_units _ _).trans (State.count_units _ _ _ _ _), ?_⟩
    simp [hr, hup]
  · refine ⟨(s.nibRecord c e y RC.spared 0).retireNib (s.phys c) e y.mis.row y.mis.col,
      (retireNib_units _ _ _ _ _).trans (State.record_units _ _), ?_⟩
    simp [hr, hup, hfree]

/-- Settles O18: each event by what it does to the engine or the check unit. -/
theorem enginesAreChecked : Obligations.EnginesAreChecked := by
  unfold Obligations.EnginesAreChecked
  refine ⟨fun s c e => exec_engineIdle, fun s cl x r hcl hx hup => ?_, fun s c e q rest hc hup hq => ⟨?_, ?_⟩⟩
  · refine ⟨_, exec_blotterSampleComplete hcl hx hup, ?_, fun hn => ?_, fun hn => ?_⟩
    · cases x.nonfin <;> rfl
    · rw [if_pos hn]
      exact fld_count_same { s with blot := s.blot.set cl r } F.NUM_BLSTAT_NONFIN 1 x.cls 0 (by decide) (by decide)
    · rw [if_neg (by simp [hn])]
      exact fld_count_same { s with blot := s.blot.set cl r } F.NUM_BLHIST_COUNT 1 x.cls x.bin (by decide) (by decide)
  · intro m col b i j hm hcol ho ht hs hop hch hnew
    exact exec_chunkMismatch hc hup hq hm hcol ho ht hs hop hch hnew
  · intro y ys r n hr h
    obtain ⟨u, hu, hx⟩ := exec_recomputationComplete hc hup hr h
    exact ⟨_, hx, recomputed_effect hu hq hr⟩

end Sys2Proof.Machine

/-! SUPPORT. The completion of a tile descriptor (R99, R224). -/

namespace Sys2Proof.Machine

/-! ## Local bytes written one after another -/

theorem setLocalBytes_eq (s : State) (c off : Nat) (bs : List Byte) :
    s.setLocalBytes c off bs = { s with lmem := (s.setLocalBytes c off bs).lmem } := by
  induction bs generalizing s off with
  | nil => rfl
  | cons b r ih => exact ih (s.setLocalByte c off b) (off + 1)

theorem putLocal_eq (s : State) (c : Nat) (l : List (Nat × Byte)) : s.putLocal c l = { s with lmem := (s.putLocal c l).lmem } := by
  induction l generalizing s with
  | nil => rfl
  | cons e r ih => exact ih (s.setLocalByte c e.1 e.2)

/-- The bytes written depend on local memory and on where the core is, on nothing else. -/
theorem setLocalBytes_lmem {s t : State} {c : Nat} (hp : t.phys c = s.phys c) (hl : t.lmem = s.lmem) (off : Nat) (bs : List Byte) :
    (t.setLocalBytes c off bs).lmem = (s.setLocalBytes c off bs).lmem := by
  induction bs generalizing s t off with
  | nil => exact hl
  | cons b r ih =>
    have hp' : (t.setLocalByte c off b).phys c = (s.setLocalByte c off b).phys c := hp
    have hl' : (t.setLocalByte c off b).lmem = (s.setLocalByte c off b).lmem := by simp only [State.setLocalByte, hp, hl]
    exact ih hp' hl' (off + 1)

/-! ## Flags and the core's place -/

theorem reg_of_regs {s t : State} (h : t.regs = s.regs) (r : Reg) (i j : Nat) : t.reg r i j = s.reg r i j := by
  rw [State.reg, h, State.reg]

theorem orReg_eq (s : State) (r : Reg) (i v : Nat) : s.orReg r i v = { s with regs := (s.orReg r i v).regs } := by
  unfold State.orReg
  split <;> rfl

/-- The cluster's map of its cores lies apart from a core's flag register. -/
theorem phys_raiseEng (s : State) (c : Nat) (e : Eng) (f : Flags) (hc : c < 64) : (s.raiseEng c e f).phys c = s.phys c := by
  have hm : Reg.addr .SAF_CMAP (c / 4) 0 = 0x800100 + c / 4 * 4 + 0 * 0 := rfl
  have hn : Reg.addr .NUM_CFLAGS c 0 = 0x900000 + c * 4 + 0 * 0 := rfl
  simp only [State.phys, State.coreSlot, State.raiseEng]
  rw [reg_orReg_other _ _ _ _ _ _ _ (by omega)]

/-! ## The head leaves the queue -/

/-- A group that does not wait has one descriptor less outstanding, and no more happens to it. -/
theorem descDone_of_going {s : State} {c g : Nat} {x : Group} (h : s.group c g = some x) (hk : x.killed = false)
    (hw : x.wait = .none) : s.descDone c g false = s.setGroup c g { x with outstanding := x.outstanding - 1 } := by
  simp only [State.descDone, modGroup_of_group _ h, Bool.or_false, State.wake, group_setGroup_same g _ (core_lt_of_group h), hk, hw,
    Bool.false_eq_true, if_false]

/-- Where no group waits at a tissue, none issues it again. -/
theorem wakeTissue_of_none {s : State} {c : Nat} (h : ∀ k ∈ (s.core c).groups, k.2.wait ≠ .tissue) : s.wakeTissue c = s := by
  refine modCore_of_fixed ?_
  have hg : ((s.core c).groups.map fun e => if e.2.wait = .tissue ∧ e.2.state = .blocked
      then (e.1, { e.2 with wait := .none, state := .running }) else e) = (s.core c).groups :=
    (List.map_congr_left fun e he => if_neg fun hw => h e he hw.1).trans (List.map_id _)
  rw [hg]

/-- The head of the queue leaves it; its group, which does not wait, counts one descriptor less; nobody else does anything. -/
theorem popHead_of_going {s : State} {c : Nat} {e : Eng} {g : Nat} {x : Group} (h : s.group c g = some x) (hk : x.killed = false)
    (hw : x.wait = .none) (hno : ∀ k ∈ (s.core c).groups, k.2.wait ≠ .tissue) :
    s.popHead c e g false = (s.modEng c e fun x => { x with
      queue := x.queue.tail, failing := x.failing && !x.queue.tail.isEmpty }).setGroup c g
        { x with outstanding := x.outstanding - 1 } := by
  have hl := core_lt_of_group h
  rw [State.popHead, descDone_of_going ((group_modEng _ _ _ _ _ _).trans h) hk hw]
  refine wakeTissue_of_none fun k hm => ?_
  rw [State.setGroup, core_modCore_same _ (by simpa [State.modEng, State.modCore] using hl), State.modEng, core_modCore_same _ hl,
    Core.groups_setEng] at hm
  rcases Sparse.mem_put hm with rfl | hm
  · exact hw ▸ nofun
  · exact hno k hm

/-! ## The descriptor completes -/

/-- A descriptor whose status is 0 and whose engine does not fail: D, then its flags, then its record, and it leaves the queue. -/
theorem exec_descriptorComplete {s : State} {c : Nat} {e : Eng} {q : QDesc} {rest : List QDesc} (hc : c < 64)
    (hup : s.diesUp = true) (hm : (s.core c).moving = none) (hq : (s.eng c e).queue = q :: rest) (hr : (s.eng c e).recomp = [])
    (hf : (s.eng c e).failing = false) (ht : q.taken = true) (hs : q.status = 0) (hcpl : (readDesc q.words).cplOk = true) :
    exec (.descriptorComplete c e) s =
      .next (keepFixed s (((s.flushBlocks c e q).descRecord c q).popHead c e q.group false)) := by
  rw [show exec (.descriptorComplete c e) s = execDescriptorComplete c e s from rfl, execDescriptorComplete,
    answer_next s _ (isCore_of_lt hc)]
  simp [hq, hup, hm, hr, hf, ht, hs, hcpl]

/-- D, the flags and the record change local memory, where the record stands over D (Table 3.8), and the core's flag register
(R62). -/
theorem flushBlocks_descRecord {s : State} {c : Nat} (e : Eng) {q : QDesc} (hc : c < 64) (hs : q.status = 0) :
    ∃ u : State, (s.flushBlocks c e q).descRecord c q = { s with lmem := u.lmem, regs := u.regs } ∧
      u.lmem = ((s.putLocal c (q.blocks.flatMap (·.bytes))).setLocalBytes c (readDesc q.words).cpl
        (toBytes 8 (nth 0 q.words 7).toNat
          ++ toBytes 8 (q.allFlags.toNat * 2 ^ 52 + min q.recomp 65535 * 2 ^ 32 + q.skipped))).lmem ∧
      u.reg .NUM_CFLAGS c 0 = s.reg .NUM_CFLAGS c 0 ||| BitVec.ofNat 32
        (match e with | .f => q.allFlags.toNat | .b => q.allFlags.toNat * 16) := by
  have hput := putLocal_eq s c (q.blocks.flatMap (·.bytes))
  have hphys : (s.flushBlocks c e q).phys c = (s.putLocal c (q.blocks.flatMap (·.bytes))).phys c := phys_raiseEng _ c e _ hc
  have hraise : s.flushBlocks c e q = { s.putLocal c (q.blocks.flatMap (·.bytes)) with regs := (s.flushBlocks c e q).regs } :=
    orReg_eq _ _ _ _
  have hlmem : (s.flushBlocks c e q).lmem = (s.putLocal c (q.blocks.flatMap (·.bytes))).lmem := by rw [hraise]
  have hrec := setLocalBytes_eq (s.flushBlocks c e q) c
  refine ⟨(s.flushBlocks c e q).descRecord c q, ?_, ?_, ?_⟩
  · rw [State.descRecord, hrec, hraise, hput]
  · rw [State.descRecord, hs, Nat.zero_mod, Nat.zero_mul, Nat.zero_add, setLocalBytes_lmem hphys hlmem]
  · have hregs : ((s.flushBlocks c e q).descRecord c q).regs = (s.flushBlocks c e q).regs := by rw [State.descRecord, hrec]
    have hregs' : (s.putLocal c (q.blocks.flatMap (·.bytes))).regs = s.regs := by rw [hput]
    rw [reg_of_regs hregs, ← reg_of_regs hregs' .NUM_CFLAGS c 0]
    exact reg_orReg_same _ _ _ _

/-- Settles O17: what is written (`flushBlocks_descRecord`), then the head that leaves the queue (`popHead_of_going`). -/
theorem descriptorsComplete : Obligations.DescriptorsComplete := by
  unfold Obligations.DescriptorsComplete
  intro s c e q rest x d hc hup hm hq hr hf ht hs hd hcpl hx hk hw hno
  subst hd
  have hl := core_lt_of_group hx
  obtain ⟨u, hu, hlmem, hflags⟩ := flushBlocks_descRecord (s := s) e hc hs
  have hpop := (congrArg (·.popHead c e q.group false) hu).trans
    (popHead_of_going (s := { s with lmem := u.lmem, regs := u.regs }) hx hk hw hno)
  refine ⟨_, exec_descriptorComplete hc hup hm hq hr hf ht hs hcpl, ?_⟩
  rw [hpop]
  refine ⟨hlmem, hflags, ?_, ?_, rfl, rfl, rfl⟩
  · have heng := eng_modEng_same (s := { s with lmem := u.lmem, regs := u.regs }) e (fun x => { x with
      queue := x.queue.tail, failing := x.failing && !x.queue.tail.isEmpty }) hl
    exact (congrArg Engine.queue ((eng_setGroup ..).trans heng)).trans (congrArg List.tail hq)
  · exact group_setGroup_same q.group _ (by simpa [State.modEng, State.modCore] using hl)

end Sys2Proof.Machine

/-! SUPPORT. The numbers of a product (R73 to R75): what a chunk and an accumulator sum to, and the codes that a drain gives. -/

namespace Sys2Proof.Machine

/-- The exact sum of a chunk's products. -/
theorem chunkSum_fst (ps : List (Num × Num)) : (chunkSum ps).1 = sumOf ps := by
  cases ps with
  | nil => rfl
  | cons p r =>
    have hfold : ∀ (l : List (Num × Num)) (y : Num) (f : Flags),
        (l.foldl (fun (a : Option Num × Flags) p =>
          let x := p.1.mul p.2
          match a.1 with
          | none => (some x.1, a.2 ||| x.2)
          | some y => let z := y.add x.1; (some z.1, a.2 ||| x.2 ||| z.2)) (some y, f)).1 =
        some (l.foldl (fun a q => (a.add (q.1.mul q.2).1).1) y) := by
      intro l
      induction l with
      | nil => exact fun _ _ => rfl
      | cons p l ih => exact fun _ _ => ih _ _
    exact congrArg (·.getD (.fin false 0 0)) (hfold r _ _)

/-- B16 operands pair in every place of the chunk below K. -/
theorem chunkPairs_b16 (s : State) (c : Nat) {d : TileDesc} (ha : d.afmt = 2) (hb : d.bfmt = 2) (b i j ch : Nat) :
    s.chunkPairs c d b i j ch = s.pairsB16 c d b i j ch := by
  simp only [State.chunkPairs, State.pairsB16, ha, hb, operandNum]
  generalize (List.range 32).map (32 * ch + ·) = ks
  rw [← List.filterMap_eq_map, List.filterMap_filter]
  refine List.filterMap_congr fun k _ => ?_
  by_cases hk : d.k ≤ k <;> simp [hk]

/-- The accumulator's value: the chunk sums, each rounded to W32, added up in W32 (R74). -/
theorem accumulate_fst (s : State) (c : Nat) (d : TileDesc) (b i j : Nat) (start : Word) :
    (s.accumulate c d b i j start).1 = (List.range (tilesOf d.k)).foldl
      (fun a ch => (w32Add a (toW32 .rne (chunkSum (s.chunkPairs c d b i j ch)).1).1).1) start :=
  (List.foldl_hom Prod.fst fun _ _ => rfl).symm

/-- A drain into W32 without C gives α times the accumulator, which the coarse product 1 of B16 operands has multiplied (R75). -/
theorem drainElem_b16 (s : State) (c : Nat) {d : TileDesc} (ha : d.afmt = 2) (hb : d.bfmt = 2) (hd : d.dfmt = 3) (hc : d.noC = true)
    (b i j : Nat) : (s.drainElem c d b i j (s.accumulate c d b i j 0).1).1 = (s.productB16 c d b i j).toNat := by
  simp [State.drainElem, hd, TileDesc.stage2, hc, TileDesc.cp, TileDesc.coarseA, TileDesc.coarseB, ha, hb, State.productB16,
    accumulate_fst, chunkSum_fst, chunkPairs_b16 s c ha hb]

/-! ## The place of an element -/

theorem getElem_toBytes : ∀ (n v i : Nat) (h : i < (toBytes n v).length), (toBytes n v)[i] = BitVec.ofNat 8 (v / 2 ^ (8 * i))
  | n + 1, v, 0, _ => by simp [toBytes]
  | n + 1, v, i + 1, h => by
    have hv : v / 256 / 2 ^ (8 * i) = v / 2 ^ (8 * (i + 1)) := by
      rw [Nat.div_div_eq_div_mul, show 8 * (i + 1) = 8 + 8 * i by omega, Nat.pow_add]
    simp only [toBytes, List.getElem_cons_succ, getElem_toBytes n, hv]

theorem length_toBytes : ∀ n v : Nat, (toBytes n v).length = n
  | 0, _ => rfl
  | n + 1, v => congrArg (· + 1) (length_toBytes n (v / 256))

/-- An element of D in W32 stands in its place, least significant byte first. -/
theorem mem_dBytes {d : TileDesc} (hd : d.dfmt = 3) (b i j code : Nat) {n : Nat} (hn : n < 4) :
    (d.dAddr b i j + n, BitVec.ofNat 8 (code / 2 ^ (8 * n))) ∈ d.dBytes b i j code := by
  have hl : fmtRow d.dfmt / 32 = 4 := by rw [hd]; rfl
  have hlen : n < (toBytes 4 code).length := by rwa [length_toBytes]
  simp only [TileDesc.dBytes, hl, List.mem_map]
  refine ⟨((toBytes 4 code)[n], n), List.mem_zipIdx_iff_getElem?.mpr (List.getElem?_eq_getElem hlen), ?_⟩
  rw [getElem_toBytes]

/-! ## Output blocks (R72, R81, R82) -/

theorem blockShape_pos (part : Nat) (e : Eng) : 0 < (blockShape part e).1 ∧ 0 < (blockShape part e).2 := by
  unfold blockShape
  split
  · cases e <;> decide
  all_goals decide

/-- A number of two digits, the lower of base `n`. -/
theorem twoDigits {a r m n : Nat} (ha : a < m) (hr : r < n) : a * n + r < m * n ∧ (a * n + r) / n = a ∧ (a * n + r) % n = r := by
  refine ⟨?_, ?_, ?_⟩
  · have := Nat.mul_le_mul_right n (Nat.succ_le_of_lt ha)
    rw [Nat.succ_mul] at this
    omega
  · rw [Nat.mul_comm, Nat.mul_add_div (by omega), Nat.div_eq_of_lt hr, Nat.add_zero]
  · rw [Nat.mul_add_mod', Nat.mod_eq_of_lt hr]

theorem div_lt_ceil {i m h : Nat} (hh : 0 < h) (hi : i < m) : i / h < (m + h - 1) / h := by
  rw [Nat.div_lt_iff_lt_mul hh]
  have := Nat.lt_div_mul_add (a := m + h - 1) hh
  omega

/-- Every element of D lies in an output block of the descriptor. -/
theorem exists_block {d : TileDesc} (e : Eng) {b i j : Nat} (hb : b < d.batch) (hi : i < d.m) (hj : j < d.n) :
    ∃ blk < d.batch * d.perEntry e, (d.blockElems e blk).1 = b ∧ (i, j) ∈ (d.blockElems e blk).2 := by
  obtain ⟨hh, hw⟩ := blockShape_pos d.part e
  obtain ⟨hx, hrow, hcol⟩ := twoDigits (div_lt_ceil hh hi) (div_lt_ceil hw hj)
  obtain ⟨hblk, hdiv, hmod⟩ := twoDigits hb hx
  refine ⟨_, hblk, hdiv, ?_⟩
  simp only [TileDesc.blockElems, TileDesc.perEntry, TileDesc.blockCols, hmod, hrow, hcol, List.mem_flatMap, List.mem_map,
    List.mem_range]
  have h1 := Nat.div_add_mod' i (blockShape d.part e).1
  have h2 := Nat.div_add_mod' j (blockShape d.part e).2
  have h3 := Nat.mod_lt i hh
  have h4 := Nat.mod_lt j hw
  exact ⟨i % (blockShape d.part e).1, by omega, j % (blockShape d.part e).2, by omega, by rw [h1, h2]⟩

/-- What a drained block with products writes of D, element by element. -/
theorem mmaBlock_bytes (s : State) (c : Nat) (e : Eng) {d : TileDesc} (old : Sparse Word) (blk : Nat) (hd : d.drain = true)
    (hk : d.k ≠ 0) (ha : d.accm = false) : (s.mmaBlock c e d old blk).1.bytes = (d.blockElems e blk).2.flatMap fun ij =>
      d.dBytes (d.blockElems e blk).1 ij.1 ij.2 (s.drainElem c d (d.blockElems e blk).1 ij.1 ij.2
        (s.accumulate c d (d.blockElems e blk).1 ij.1 ij.2 0).1).1 := by
  rw [List.flatMap_eq_foldl]
  refine (List.foldl_hom (fun a : DBlock × Sparse Word => a.1.bytes) fun a ij => ?_).symm
  simp [hd, hk, ha]

end Sys2Proof.Machine

/-! SUPPORT. The taking of a tile descriptor (R69 to R99): what an engine does with the head of its queue. -/

namespace Sys2Proof.Machine

/-! ## Banks of an engine (R67, R97) -/

@[simp] theorem Engine.bank_setBank_same (x : Engine) (b : Bool) (k : Bank) : (x.setBank b k).bank b = k := by cases b <;> rfl

@[simp] theorem Engine.bank_setBank_other (x : Engine) (b : Bool) (k : Bank) : (x.setBank b k).bank (!b) = x.bank (!b) := by
  cases b <;> rfl

@[simp] theorem Engine.bank_setCopy (x : Engine) (b : Bool) (k : Bank) (b' : Bool) : (x.setCopy b k).bank b' = x.bank b' := by
  cases b <;> rfl

@[simp] theorem Engine.queue_setBank (x : Engine) (b : Bool) (k : Bank) : (x.setBank b k).queue = x.queue := by cases b <;> rfl

@[simp] theorem Engine.queue_setCopy (x : Engine) (b : Bool) (k : Bank) : (x.setCopy b k).queue = x.queue := by cases b <;> rfl

/-! ## Samples (R125 to R127) -/

/-- Of a field named by a variable, the kernel need not evaluate the register map. -/
theorem count_modEng (s : State) (fd : Field) (k i j : Nat) (c : Nat) (e : Eng) (f : Engine → Engine) :
    (s.modEng c e f).count fd k i j = (s.count fd k i j).modEng c e f := rfl

theorem queueSample_modEng (s : State) (cl : Nat) (x : BlotSample) (c : Nat) (e : Eng) (f : Engine → Engine) :
    (s.modEng c e f).queueSample cl x = (s.queueSample cl x).modEng c e f := by
  have hb : (s.modEng c e f).blot = s.blot := rfl
  by_cases h : (nth [] s.blot cl).length < 8
  · rw [State.queueSample, State.queueSample, hb, if_pos h, if_pos h]; rfl
  · rw [State.queueSample, State.queueSample, hb, if_neg h, if_neg h, count_modEng]

/-- An engine has no part in which samples are taken. -/
theorem sampleTiles_modEng (s done : State) (c : Nat) (d : TileDesc) (src : Nat × Nat) (c' : Nat) (e : Eng)
    (f : Engine → Engine) :
    (s.modEng c' e f).sampleTiles done c d src = (s.sampleTiles done c d src).modEng c' e f := by
  unfold State.sampleTiles
  refine List.foldl_hom (fun s : State => s.modEng c' e f) fun s b => ?_
  refine List.foldl_hom (fun s : State => s.modEng c' e f) fun s t => ?_
  rw [show (s.modEng c' e f).sampled d b t = s.sampled d b t from rfl]
  split
  · cases done.blotSample c d src b t with
    | none => rfl
    | some x => exact queueSample_modEng s _ x c' e f
  · rfl

/-- Of the device, `t` differs from `s` in check units and registers. -/
def State.SameButSamples (s t : State) : Prop := t = { s with blot := t.blot, regs := t.regs }

theorem State.SameButSamples.trans {s t u : State} (h : s.SameButSamples t) (h' : t.SameButSamples u) : s.SameButSamples u :=
  Eq.trans h' (congrArg (fun w : State => { w with blot := u.blot, regs := u.regs }) h)

theorem State.SameButSamples.cores {s t : State} (h : s.SameButSamples t) : t.cores = s.cores := by
  rw [State.SameButSamples] at h
  rw [h]

/-- Where an engine is updated behind the samples, the rest of the device is as it was. -/
theorem State.SameButSamples.modEng {s t : State} (h : s.SameButSamples t) (c : Nat) (e : Eng) (f : Engine → Engine) :
    t.modEng c e f = { s with cores := (t.modEng c e f).cores, blot := t.blot, regs := t.regs } :=
  congrArg (fun u : State => { u with cores := (t.modEng c e f).cores }) h

theorem count_same (s : State) (f : Field) (k i j : Nat) : s.SameButSamples (s.count f k i j) := rfl

theorem queueSample_same (s : State) (cl : Nat) (x : BlotSample) : s.SameButSamples (s.queueSample cl x) := by
  unfold State.queueSample
  split
  · rfl
  · exact count_same ..

/-- Samples enter the check units, or are counted as dropped (R127). -/
theorem sampleTiles_same (s done : State) (c : Nat) (d : TileDesc) (src : Nat × Nat) :
    s.SameButSamples (s.sampleTiles done c d src) := by
  refine List.foldlRecOn (motive := s.SameButSamples) _ _ rfl fun u hu b _ => ?_
  refine List.foldlRecOn (motive := s.SameButSamples) _ _ hu fun u hu t _ => ?_
  split
  · cases done.blotSample c d src b t with
    | none => exact hu
    | some x => exact hu.trans (queueSample_same u _ x)
  · exact hu

/-! ## What an engine takes -/

theorem queue_of_takes {s : State} {c : Nat} {e : Eng} {q : QDesc} (h : s.takes c e = some q) :
    ∃ rest, (s.eng c e).queue = q :: rest := by
  unfold State.takes at h
  dsimp only at h
  split at h
  · cases h
  · split at h
    · next hq =>
      split at h
      · cases h
      · exact ⟨_, Option.some.inj h ▸ hq⟩
    · cases h

section
variable {s : State} {c : Nat} {e : Eng} {q : QDesc}

/-- A NOP descriptor is checked for RSVD fields and ends. -/
theorem exec_tileNop (hc : c < 64) (h : s.takes c e = some q) (hcpl : (readDesc q.words).cplOk = true)
    (hop : (readDesc q.words).op = 0) : exec (.tileNop c e) s = .next (keepFixed s
      (s.setHead c e { q with taken := true, status := if (readDesc q.words).rsvd then 2 else 0 })) := by
  rw [show exec (.tileNop c e) s = execTileNop c e s from rfl, execTileNop, answer_next s _ (isCore_of_lt hc)]
  simp [h, hop, hcpl]

/-- An MMA descriptor is checked, and one that passes reads its operands and is computed. -/
theorem exec_mma (hc : c < 64) (h : s.takes c e = some q) (hcpl : (readDesc q.words).cplOk = true)
    (hop : (readDesc q.words).op ≠ 0) : exec (.mma c e) s = .next (keepFixed s
      (if (readDesc q.words).check ((s.eng c e).bank (readDesc q.words).bank) = 0 then s.readAndRun c e q (readDesc q.words)
       else s.setHead c e { q with
        taken := true, status := (readDesc q.words).check ((s.eng c e).bank (readDesc q.words).bank) })) := by
  rw [show exec (.mma c e) s = execMma c e s from rfl, execMma, answer_next s _ (isCore_of_lt hc)]
  simp [h, hop, hcpl]

/-- Where no word of core SRAM is in error, ECC delivers every operand (R323). -/
theorem readAndRun_clean (hs : s.saf.sram = []) (d : TileDesc) : s.readAndRun c e q d = s.runMma c e q d := by
  simp only [State.readAndRun, meetWords_clean hs, Bool.false_eq_true, if_false, if_true]

end

/-! ## What a descriptor that executes leaves -/

/-- The output blocks of a descriptor, with the accumulators that each leaves. -/
def State.mmaOuts (s : State) (c : Nat) (e : Eng) (d : TileDesc) : List (DBlock × Sparse Word) :=
  (List.range (d.batch * d.perEntry e)).map fun blk => s.mmaBlock c e d ((s.eng c e).bank d.bank).acc blk

/-- What is in the bank behind a descriptor that has executed: nothing, or what a later one accumulates on (R97). -/
def State.mmaBank (s : State) (c : Nat) (e : Eng) (d : TileDesc) : Bank :=
  if d.drain then Bank.reset
  else
    { invalid := false, record := some ⟨d.part, d.m, d.n, d.batch - 1⟩
      acc := (s.mmaOuts c e d).foldl (fun m o => o.2.foldl (fun m x => Sparse.put m x.1 x.2) m) [] }

/-- The descriptor at the head of the queue once it has executed. -/
def State.mmaHead (s : State) (c : Nat) (e : Eng) (q : QDesc) (d : TileDesc) : QDesc :=
  { q with
    taken := true
    flags := if d.drain && !(d.k == 0 && !d.accm) then d.cp.2 else 0
    skipped := min (if d.k = 0 then 0 else ((List.range d.batch).map fun b => s.skippedPairs c d b).sum) 0xFFFFFFFF
    blocks := (s.mmaOuts c e d).map (·.1) }

/-- The engine behind a descriptor `h` that has executed: `old` is the bank's entry copy, and `new` is in the bank. -/
def Engine.ran (x : Engine) (b : Bool) (old new : Bank) (h : QDesc) : Engine :=
  let y := (x.setCopy b old).setBank b new
  { y with queue := h :: y.queue.tail, up := true }

@[simp] theorem Engine.queue_ran (x : Engine) (b : Bool) (old new : Bank) (h : QDesc) :
    (x.ran b old new h).queue = h :: x.queue.tail := by simp [Engine.ran]

@[simp] theorem Engine.bank_ran_same (x : Engine) (b : Bool) (old new : Bank) (h : QDesc) : (x.ran b old new h).bank b = new :=
  Engine.bank_setBank_same (x.setCopy b old) b new

@[simp] theorem Engine.bank_ran_other (x : Engine) (b : Bool) (old new : Bank) (h : QDesc) :
    (x.ran b old new h).bank (!b) = x.bank (!b) :=
  (Engine.bank_setBank_other _ b new).trans (x.bank_setCopy b old (!b))

/-- A product with K = 0 that is not drained leaves its bank as it was (R84). -/
theorem runMma_nothing {s : State} {d : TileDesc} (c : Nat) (e : Eng) (q : QDesc) (hk : d.k = 0) (hd : d.drain = false) :
    s.runMma c e q d = s.setHead c e { q with taken := true } := by
  simp [State.runMma, hk, hd]

/-- The state behind the samples of a descriptor, if it is sampled, taken as D stands in its blocks (R125). -/
def State.mmaSampled (s : State) (c : Nat) (d : TileDesc) (bs : List DBlock) : State :=
  match s.blotSources d.tensor with
  | none => s
  | some src => if s.eligible d then s.sampleTiles (s.putLocal c (bs.flatMap (·.bytes))) c d src else s

/-- Every other descriptor that executes leaves its blocks to become visible, its bank drained or recorded, and its samples. -/
theorem runMma_computes {s : State} {d : TileDesc} (c : Nat) (e : Eng) (q : QDesc) (hkd : d.k ≠ 0 ∨ d.drain = true) :
    s.runMma c e q d = (s.mmaSampled c d (s.mmaHead c e q d).blocks).modEng c e fun x =>
      x.ran d.bank ((s.eng c e).bank d.bank) (s.mmaBank c e d) (s.mmaHead c e q d) := by
  have hgo : ¬(d.k = 0 && !d.drain) = true := by simpa [imp_iff_not_or] using hkd
  have hblocks : (s.mmaHead c e q d).blocks.flatMap (·.bytes) = (s.mmaOuts c e d).flatMap fun o => o.1.bytes := by
    simp only [State.mmaHead, List.flatMap_map]
  have heng : ((s.modEng c e fun x => (x.setCopy d.bank ((s.eng c e).bank d.bank)).setBank d.bank (s.mmaBank c e d)).setHead c e
      (s.mmaHead c e q d)) = s.modEng c e fun x => x.ran d.bank ((s.eng c e).bank d.bank) (s.mmaBank c e d) (s.mmaHead c e q d) :=
    modEng_modEng ..
  unfold State.mmaSampled
  rw [hblocks]
  unfold State.runMma
  rw [if_neg hgo]
  cases s.blotSources d.tensor with
  | none => exact heng
  | some src =>
    dsimp only
    by_cases hel : s.eligible d = true
    · rw [if_pos hel, if_pos hel, ← sampleTiles_modEng, ← heng]
      rfl
    · rw [if_neg hel, if_neg hel, ← heng]
      rfl

theorem mmaSampled_same (s : State) (c : Nat) (d : TileDesc) (bs : List DBlock) : s.SameButSamples (s.mmaSampled c d bs) := by
  unfold State.mmaSampled
  split
  · rfl
  · split
    · exact sampleTiles_same ..
    · rfl

/-- The update of an engine behind the samples is one of the engine as it was. -/
theorem eng_mmaSampled_modEng {s : State} {c : Nat} {e : Eng} (d : TileDesc) (bs : List DBlock) (f : Engine → Engine)
    (hl : c < s.cores.length) : ((s.mmaSampled c d bs).modEng c e f).eng c e = f (s.eng c e) := by
  have hcores := (mmaSampled_same s c d bs).cores
  rw [eng_modEng_same e f (by rwa [hcores])]
  simp only [State.eng, State.core, hcores]

theorem mmaSampled_of_none {s : State} {d : TileDesc} (h : s.blotSources d.tensor = none) (c : Nat) (bs : List DBlock) :
    s.mmaSampled c d bs = s := by
  simp only [State.mmaSampled, h]

theorem mmaSampled_of_some {s : State} {d : TileDesc} {src : Nat × Nat} (h : s.blotSources d.tensor = some src) (c : Nat)
    (bs : List DBlock) : s.mmaSampled c d bs =
      if s.eligible d then s.sampleTiles (s.putLocal c (bs.flatMap (·.bytes))) c d src else s := by
  simp only [State.mmaSampled, h]

/-- Each byte of each element of a fresh drained product of B16 operands is among those of a block (R73 to R75). -/
theorem mmaHead_b16 (s : State) (c : Nat) (e : Eng) (q : QDesc) {d : TileDesc} (ha : d.afmt = 2) (hb : d.bfmt = 2) (hf : d.dfmt = 3)
    (hc : d.noC = true) (hacc : d.accm = false) (hd : d.drain = true) (hk : 0 < d.k) {b i j n : Nat} (hbb : b < d.batch)
    (hi : i < d.m) (hj : j < d.n) (hn : n < 4) : ∃ k ∈ (s.mmaHead c e q d).blocks,
      (d.dAddr b i j + n, BitVec.ofNat 8 ((s.productB16 c d b i j).toNat / 2 ^ (8 * n))) ∈ k.bytes := by
  obtain ⟨blk, hblk, hentry, hij⟩ := exists_block e hbb hi hj
  refine ⟨_, List.mem_map_of_mem (List.mem_map_of_mem (List.mem_range.mpr hblk)), ?_⟩
  rw [mmaBlock_bytes s c e _ blk hd (by omega) hacc, hentry]
  refine List.mem_flatMap.mpr ⟨(i, j), hij, ?_⟩
  rw [drainElem_b16 s c ha hb hf hc]
  exact mem_dBytes hf b i j _ hn

/-- An MMA that passes its checks ends in what `runMma_computes` says, where no word of core SRAM is in error. -/
theorem exec_mma_computes {s : State} {c : Nat} {e : Eng} {q : QDesc} {d : TileDesc} (hd : d = readDesc q.words) (hc : c < 64)
    (h : s.takes c e = some q) (hcpl : d.cplOk = true) (hop : d.op ≠ 0) (hchk : d.check ((s.eng c e).bank d.bank) = 0)
    (hkd : d.k ≠ 0 ∨ d.drain = true) (hs : s.saf.sram = []) : exec (.mma c e) s = .next (keepFixed s
      ((s.mmaSampled c d (s.mmaHead c e q d).blocks).modEng c e fun x =>
        x.ran d.bank ((s.eng c e).bank d.bank) (s.mmaBank c e d) (s.mmaHead c e q d))) := by
  subst hd
  rw [exec_mma hc h hcpl hop, if_pos hchk, readAndRun_clean hs, runMma_computes c e q hkd]

/-- Settles O16: the checks (`exec_mma`), then what a descriptor that executes leaves (`exec_mma_computes`). -/
theorem descriptorsAreTaken : Obligations.DescriptorsAreTaken := by
  unfold Obligations.DescriptorsAreTaken
  intro s c e q d bank hc h hd hcpl hbank
  subst hbank
  refine ⟨fun hop => ?_, fun hop hchk => ?_, fun hop hchk hk hdr hs => ?_, fun hop hchk hkd hs => ?_⟩
  · subst hd
    exact exec_tileNop hc h hcpl hop
  · subst hd
    rw [exec_mma hc h hcpl hop, if_neg hchk]
  · subst hd
    rw [exec_mma hc h hcpl hop, if_pos hchk, readAndRun_clean hs, runMma_nothing c e q hk hdr]
  · obtain ⟨rest, hq⟩ := queue_of_takes h
    have heng := eng_mmaSampled_modEng (e := e) d (s.mmaHead c e q d).blocks
      (fun x => x.ran d.bank ((s.eng c e).bank d.bank) (s.mmaBank c e d) (s.mmaHead c e q d)) (core_lt_of_queue hq)
    refine ⟨_, exec_mma_computes hd hc h hcpl hop hchk hkd hs,
      ⟨s.mmaHead c e q d, ?_, rfl, rfl, rfl, rfl, List.map_map .., ?_, ?_⟩, ?_, ?_, ?_⟩
    · exact (congrArg Engine.queue heng).trans (Engine.queue_ran ..)
    · intro ha hb hf hno hacc hdr hk b hbb i hi j hj n hn
      exact mmaHead_b16 s c e q ha hb hf hno hacc hdr hk hbb hi hj hn
    · split
      · next hno => rw [mmaSampled_of_none hno]; rfl
      · next src hsrc =>
        refine ⟨congrArg (keepFixed s) ((mmaSampled_same s c d _).modEng c e _), ?_⟩
        rw [mmaSampled_of_some hsrc]
        split
        · exact ⟨rfl, rfl⟩
        · exact ⟨rfl, rfl⟩
    · intro hdr
      exact (congrArg (Engine.bank · d.bank) heng).trans ((Engine.bank_ran_same ..).trans (if_pos hdr))
    · intro hdr
      refine (congrArg (fun x => (Engine.bank x d.bank).record) heng).trans ?_
      rw [Engine.bank_ran_same, State.mmaBank, if_neg (by simp [hdr])]
    · exact (congrArg (Engine.bank · !d.bank) heng).trans (Engine.bank_ran_other ..)

end Sys2Proof.Machine

/-! SUPPORT. What SEQ shows of the device: its own state and the registers of its block (spec/09), and what leaves them as they
are: memory writes with all that they meet, packets, and the status blocks. -/

namespace Sys2Proof.Machine

/-! ## The view of SEQ -/

/-- SEQ's own state with the registers of the SEQ block by their offsets. -/
structure SeqView where
  seq : Seq
  regs : Nat → Option Word

def State.seqView (s : State) : SeqView :=
  { seq := s.seq, regs := fun k => if BlockId.ofOffset k = some .seq then Sparse.find s.regs k else none }

theorem seqView_modSeq (s : State) (f : Seq → Seq) : (s.modSeq f).seqView = { s.seqView with seq := f s.seqView.seq } := rfl

theorem seqView_drawn (s : State) : s.drawn.seqView = s.seqView := rfl

theorem seqView_modLink (s : State) (l : Nat) (f : Link → Link) : (s.modLink l f).seqView = s.seqView := rfl

theorem seqView_modNet (s : State) (f : LinkNet → LinkNet) : (s.modNet f).seqView = s.seqView := rfl

theorem modSeq_congr {t s : State} (h : t.seqView = s.seqView) (f : Seq → Seq) : (t.modSeq f).seqView = (s.modSeq f).seqView := by
  rw [seqView_modSeq, seqView_modSeq, h]

theorem seq_of_seqView {t s : State} (h : t.seqView = s.seqView) : t.seq = s.seq := congrArg SeqView.seq h

/-- The registers of the SEQ block read the same in states of one view. -/
theorem reg_of_seqView {t s : State} (h : t.seqView = s.seqView) {r : Reg} {i j : Nat}
    (hr : BlockId.ofOffset (r.addr i j) = some .seq) : t.reg r i j = s.reg r i j := by
  have hk := congrFun (congrArg SeqView.regs h) (r.addr i j)
  simp only [State.seqView, hr, if_true] at hk
  rw [State.reg, State.reg, Sparse.get, Sparse.get, hk]

theorem fld_of_seqView {t s : State} (h : t.seqView = s.seqView) {f : Field} (hf : BlockId.ofOffset (f.reg.addr 0 0) = some .seq) :
    t.fld f = s.fld f := congrArg f.of (reg_of_seqView h hf)

/-! ## Registers of the other blocks -/

theorem Reg.belowSeq {r : Reg} {i j : Nat} (h : r.addr i j < 0x100000) : BlockId.ofOffset (r.addr i j) ≠ some .seq := by
  simp [BlockId.ofOffset, h]

theorem BlockId.ofOffset_beyondSeq {k : Nat} (h : 0x200000 ≤ k) : BlockId.ofOffset k ≠ some .seq := by
  have h1 : ¬ k < 0x100000 := by omega
  have h2 : ¬ k < 0x200000 := by omega
  simp only [BlockId.ofOffset, h1, h2, if_false]
  repeat' split
  all_goals simp

/-- A register that begins above the SEQ block lies outside it with any indices. -/
theorem Reg.beyondSeq {r : Reg} {i j : Nat} (h : 0x200000 ≤ r.desc.base) : BlockId.ofOffset (r.addr i j) ≠ some .seq :=
  BlockId.ofOffset_beyondSeq (by unfold Reg.addr; omega)

theorem Sparse.find_set_other {α : Type} [DecidableEq α] (d : α) (m : Sparse α) (x y : Nat) (v : α) (h : y ≠ x) :
    Sparse.find (Sparse.set d m x v) y = Sparse.find m y := by
  unfold Sparse.set
  split
  · exact Sparse.find_drop_other m x y h
  · exact Sparse.find_put_other m x y v h

theorem seqView_setReg (s : State) {r : Reg} {i j : Nat} (v : Word) (h : BlockId.ofOffset (r.addr i j) ≠ some .seq) :
    (s.setReg r i j v).seqView = s.seqView := by
  refine congrArg (SeqView.mk s.seq) (funext fun k => ?_)
  by_cases hk : BlockId.ofOffset k = some .seq
  · rw [if_pos hk, if_pos hk]
    exact Sparse.find_set_other _ _ _ _ _ fun e => h (e ▸ hk)
  · rw [if_neg hk, if_neg hk]

theorem seqView_setFld (s : State) {f : Field} {i j : Nat} (v : Nat) (h : BlockId.ofOffset (f.reg.addr i j) ≠ some .seq) :
    (s.setFld f v i j).seqView = s.seqView := seqView_setReg s _ h

theorem seqView_count (s : State) {f : Field} {i j : Nat} (k : Nat) (h : BlockId.ofOffset (f.reg.addr i j) ≠ some .seq) :
    (s.count f k i j).seqView = s.seqView := seqView_setFld s _ h

theorem seqView_foldl {α : Type} {f : State → α → State} (h : ∀ s x, (f s x).seqView = s.seqView) (l : List α) (s : State) :
    (l.foldl f s).seqView = s.seqView := by
  induction l generalizing s with
  | nil => rfl
  | cons x r ih => exact (ih (f s x)).trans (h s x)

/-! ## Bytes of memory -/

theorem seqView_setHbmBytes (s : State) (ks : List Nat) (bs : List Byte) : (s.setHbmBytes ks bs).seqView = s.seqView := by
  induction ks generalizing s bs with
  | nil => cases bs <;> rfl
  | cons k r ih => cases bs with
    | nil => rfl
    | cons b bs => exact ih (s.setHbmByte k b) bs

theorem seqView_setHostBytes (s : State) (port bus : Nat) (bs : List Byte) : (s.setHostBytes port bus bs).seqView = s.seqView := by
  induction bs generalizing s bus with
  | nil => rfl
  | cons b r ih => exact ih (s.setHostByte port bus b) (bus + 1)

theorem seqView_setLocalBytes (s : State) (c off : Nat) (bs : List Byte) : (s.setLocalBytes c off bs).seqView = s.seqView := by
  rw [setLocalBytes_eq]; rfl

theorem seqView_hold (s : State) (va : Nat) (o : Option (DWord × Nat)) : (s.hold va o).seqView = s.seqView := by cases o <;> rfl

/-! ## Alerts and Ndomir's events (R400, R417) -/

theorem seqView_sendMsix (s : State) {p : Nat} (hp : p < 2) (cause : Nat) : (s.sendMsix p cause).seqView = s.seqView := by
  have ha : Reg.addr .HIF_MSIXPBA p 0 = 0x15000 + p * 0x10000 + 0 * 4 := rfl
  unfold State.sendMsix
  extract_lets x
  split
  · rfl
  · split
    · exact seqView_setReg s _ (Reg.belowSeq (by omega))
    · rfl

theorem seqView_raiseAlert (s : State) {p : Nat} (hp : p < 2) (cause : Nat) : (s.raiseAlert p cause).seqView = s.seqView := by
  have ha : Reg.addr F.HIF_ALERT_CAUSE.reg p 0 = 0x10010 + p * 0x10000 + 0 * 0 := rfl
  have hs := fun v => seqView_setFld s (f := F.HIF_ALERT_CAUSE) (i := p) (j := 0) v (Reg.belowSeq (by omega))
  unfold State.raiseAlert
  extract_lets old t
  split
  · rfl
  · split
    · exact (seqView_sendMsix _ hp _).trans (hs _)
    · exact hs _

theorem seqView_raiseBoth (s : State) (cause : Nat) : (s.raiseBoth cause).seqView = s.seqView := by
  rw [State.raiseBoth, seqView_raiseAlert _ Nat.one_lt_two, seqView_raiseAlert _ Nat.two_pos]

theorem seqView_mgtAlert (s : State) (bit : Nat) : (s.mgtAlert bit).seqView = s.seqView := by
  have hr := fun v => seqView_setReg s (r := .MGT_ALERT) (i := 0) (j := 0) v (Reg.beyondSeq (by decide))
  unfold State.mgtAlert
  extract_lets w t
  split
  · rfl
  · split
    · exact (seqView_raiseBoth _ _).trans (hr _)
    · exact hr _

theorem seqView_raiseIbi (s : State) : s.raiseIbi.seqView = s.seqView := by
  unfold State.raiseIbi
  split <;> rfl

theorem seqView_tell (s : State) (e : Event) : (s.tell e).seqView = s.seqView := by
  unfold State.tell State.announce
  extract_lets md
  split
  · exact seqView_raiseIbi _
  · rfl

theorem seqView_sendEvent (s : State) : s.sendEvent.seqView = s.seqView := by
  unfold State.sendEvent
  split
  · exact seqView_tell _ _
  · rfl

theorem seqView_setEvents (s : State) (q : List Event) : (s.setEvents q).seqView = s.seqView :=
  seqView_setFld _ _ (Reg.beyondSeq (by decide))

theorem seqView_queueEvent (s : State) (e : Event) : (s.queueEvent e).seqView = s.seqView := by
  have hl : ((s.count F.MGT_STAT_EVLOST 1).mgtAlert MA.evq).seqView = s.seqView :=
    (seqView_mgtAlert _ _).trans (seqView_count _ _ (Reg.beyondSeq (by decide)))
  unfold State.queueEvent
  extract_lets lost
  split
  · exact (seqView_sendEvent _).trans (seqView_setEvents _ _)
  · split
    · exact hl
    · have hs := fun q => (seqView_setEvents lost q).trans hl
      extract_lets s1
      split
      · exact hs _
      · exact (seqView_sendEvent _).trans (hs _)

/-! ## Error records (R331 to R334) -/

theorem seqView_putEntry (s : State) (e : Nat) (bytes : List Byte) : (s.putEntry e bytes).seqView = s.seqView :=
  seqView_foldl (fun t _ => seqView_setReg t _ (Reg.beyondSeq (by decide))) _ s

theorem seqView_putRecord (s : State) (r : Rec) : (s.putRecord r).seqView = s.seqView := by
  unfold State.putRecord
  extract_lets s1 time n step b entry s2 s3 s4
  have h3 : s3.seqView = s.seqView := (seqView_setReg _ _ (Reg.beyondSeq (by decide))).trans (seqView_putEntry s1 _ _)
  have h4 : s4.seqView = s.seqView := by
    unfold s4
    split
    · exact h3
    · exact (seqView_queueEvent _ _).trans h3
  split
  · exact (seqView_raiseBoth _ _).trans h4
  · exact h4

theorem seqView_note (s : State) (r : Rec) : (s.note r).seqView = s.seqView := by
  have hc := fun (t : State) => seqView_count t (f := F.SAF_ERDROP_UNCORR) (i := 0) (j := 0) 1 (Reg.beyondSeq (by decide))
  unfold State.note
  extract_lets s1 s2 now last near
  split
  · exact hc _
  · split
    · split
      · exact seqView_count _ _ (Reg.beyondSeq (by decide))
      · exact seqView_putRecord _ _
    · split
      · exact (hc _).trans (seqView_putRecord _ _)
      · exact seqView_putRecord _ _

theorem seqView_showCellar (s : State) : s.showCellar.seqView = s.seqView := by
  have hf := fun (t : State) (f : Field) (v : Nat) (h : f.reg = .SAF_CELLAR) =>
    seqView_setFld t (f := f) (i := 0) (j := 0) v (Reg.beyondSeq (h ▸ by decide))
  unfold State.showCellar
  extract_lets s1 s2 s3
  calc _ = s3.seqView := (seqView_drawn _).trans (hf s3 F.SAF_CELLAR_LANES _ rfl)
    _ = s2.seqView := (seqView_drawn _).trans (hf s2 F.SAF_CELLAR_NIBS _ rfl)
    _ = s1.seqView := hf s1 F.SAF_CELLAR_LCORES _ rfl
    _ = s.seqView := hf s F.SAF_CELLAR_GRADE _ rfl

/-! ## Writes of memory with what they meet (R174 to R187) -/

theorem seqView_noteRetire (s : State) (blk : Nat) : (s.noteRetire blk).seqView = s.seqView := by
  unfold State.noteRetire
  extract_lets st used s1 s2
  have h2 : s2.seqView = s.seqView := (seqView_showCellar _).trans (seqView_setFld s _ (Reg.beyondSeq (by decide)))
  split
  · rfl
  · split
    · exact (seqView_note _ _).trans h2
    · exact h2

theorem seqView_noteCorrected (s : State) (u : Nat) : (s.noteCorrected u).seqView = s.seqView := by
  unfold State.noteCorrected
  extract_lets st blk s1 s2 n s3 thr
  have h3 : s3.seqView = s.seqView := (seqView_note s1 _).trans (seqView_count s _ (Reg.beyondSeq (by decide)))
  split
  · exact (seqView_noteRetire _ _).trans h3
  · exact h3

theorem seqView_noteUncorrectable (s : State) (u : Nat) : (s.noteUncorrectable u).seqView = s.seqView := by
  unfold State.noteUncorrectable
  extract_lets st s1 s2 s3
  have h3 : s3.seqView = s.seqView := (seqView_note s2 _).trans (seqView_count s1 _ (Reg.beyondSeq (by decide)))
  split
  · rfl
  · exact (seqView_noteRetire _ _).trans h3

theorem seqView_noteUnit (s : State) (u : Nat) : (s.noteUnit u).seqView = s.seqView := by
  unfold State.noteUnit State.noteMeet
  split
  · rfl
  · split
    · rfl
    · split
      · rfl
      · exact seqView_noteCorrected _ _
    · exact seqView_noteUncorrectable _ _

theorem seqView_noteWalk (s : State) (reads : List Nat) : (s.noteWalk reads).1.seqView = s.seqView :=
  seqView_foldl seqView_noteUnit _ (s.stir _)

theorem seqView_meetParts (s : State) (p : Place) (n : Nat) : (s.meetParts p n).seqView = s.seqView := by
  unfold State.meetParts
  split
  · exact seqView_foldl seqView_noteUnit _ s
  · rfl

theorem seqView_logFault (s : State) (agent cause va : Nat) : (s.logFault agent cause va).seqView = s.seqView := by
  have hr := fun (t : State) (r : Reg) (v : Word) (h : 0x200000 ≤ r.desc.base) =>
    seqView_setReg t (r := r) (i := 0) (j := 0) v (Reg.beyondSeq h)
  unfold State.logFault
  split
  · rfl
  · exact (hr _ .MEM_FAULTINFO _ (by decide)).trans ((hr _ .MEM_FAULTINFO _ (by decide)).trans
      ((hr _ .MEM_FAULTINFO _ (by decide)).trans ((hr _ .MEM_FAULTHI _ (by decide)).trans (hr _ .MEM_FAULTLO _ (by decide)))))

theorem seqView_writeHbm (s : State) (pa : Nat) (bytes : List Byte) : (s.writeHbm pa bytes).1.seqView = s.seqView := by
  unfold State.writeHbm
  extract_lets ks part whole s1
  split
  · rfl
  · exact seqView_setHbmBytes s ks bytes

theorem seqView_storeAt (s : State) (agent va : Nat) (x : Xlat) (bytes : List Byte) :
    (s.storeAt agent va x bytes).1.seqView = s.seqView := by
  have h := seqView_hold s va x.held
  unfold State.storeAt
  extract_lets t
  split
  · exact (seqView_writeHbm _ _ _).trans h
  · split
    · exact (seqView_setLocalBytes _ _ _ _).trans h
    · exact (seqView_logFault _ _ _ _).trans h
  · split
    · exact (seqView_setHostBytes _ _ _ _).trans h
    · exact h

theorem seqView_writeChunk (s : State) (agent : Nat) (upd : Bool) (va : Nat) (bytes : List Byte) :
    (s.writeChunk agent upd va bytes).1.seqView = s.seqView := by
  unfold State.writeChunk
  split
  · extract_lets w
    split
    · exact seqView_noteWalk s _
    · exact (seqView_logFault _ _ _ _).trans (seqView_noteWalk s _)
  · extract_lets w
    split
    · exact seqView_noteWalk s _
    · exact (seqView_storeAt _ _ _ _ _).trans ((seqView_meetParts _ _ _).trans (seqView_noteWalk s _))

theorem seqView_writeChunks (s : State) (agent : Nat) (upd : Bool) (ps : List (Nat × Nat)) (bs : List Byte) :
    (s.writeChunks agent upd ps bs).1.seqView = s.seqView := by
  induction ps generalizing s bs with
  | nil => rfl
  | cons p r ih =>
    have h := seqView_writeChunk s agent upd p.1 (bs.take p.2)
    simp only [State.writeChunks]
    split
    · next h1 => rw [h1] at h; exact h
    · next h1 => rw [h1] at h; exact (ih _ _).trans h

theorem seqView_notePut (s : State) (agent va : Nat) (bytes : List Byte) : (s.notePut agent va bytes).seqView = s.seqView :=
  seqView_writeChunks s agent false _ bytes

/-! ## Packets (R245 to R274) -/

theorem seqView_sendFlit (s : State) (l kind : Nat) (seq : BitVec 12) (sop : BitVec 15) (body : List Byte) :
    (s.sendFlit l kind seq sop body).seqView = s.seqView := rfl

theorem seqView_sendData (s : State) (l : Nat) (f : DataFlit) : (s.sendData l f).seqView = s.seqView := rfl

theorem seqView_returns (s : State) (l : Nat) : (s.returns l).seqView = s.seqView := by
  unfold State.returns
  split
  · rfl
  · refine seqView_foldl (fun t _ => ?_) _ s
    extract_lets x
    split
    · exact seqView_sendFlit ..
    · rfl

theorem seqView_flush (s : State) (l : Nat) : (s.flush l).seqView = s.seqView := by
  unfold State.flush
  split
  · rfl
  · exact (seqView_returns _ _).trans ((seqView_foldl (fun t f => seqView_sendData t l f) _ _).trans (seqView_modLink s l _))

theorem seqView_lost (s : State) (l : Nat) : (s.count F.LNK_EVENT_LOST 1 l).seqView = s.seqView :=
  seqView_count s 1 (Reg.beyondSeq (by decide))

theorem seqView_leave (s : State) (p : Packet) : (s.leave p).seqView = s.seqView := by
  unfold State.leave
  split
  · rfl
  · split
    · exact (seqView_flush _ _).trans (seqView_modLink ..)
    · exact seqView_lost _ _

theorem seqView_respond (s : State) (p : Packet) : (s.respond p).seqView = s.seqView := by
  unfold State.respond
  split
  · exact seqView_lost _ _
  · rw [seqView_drawn, seqView_leave]

theorem seqView_lose (s : State) (p : Packet) (l : Nat) : (s.lose p l).seqView = s.seqView := by
  unfold State.lose
  extract_lets s1
  have h1 : s1.seqView = s.seqView := seqView_lost s l
  split
  · exact h1
  · split
    · exact (seqView_modNet _ _).trans h1
    · exact (seqView_respond _ _).trans h1

theorem seqView_forward (s : State) (p : Packet) : (s.forward p).seqView = s.seqView := by
  unfold State.forward
  split
  · rfl
  · split
    · exact (seqView_flush _ _).trans (seqView_modLink ..)
    · exact seqView_lose _ _ _

theorem seqView_send (s : State) (p : Packet) : (s.send p).seqView = s.seqView := by
  have hl : ∀ (b : Bool) (l : Nat), (if b then s else s.lose p l).seqView = s.seqView := by
    intro b l
    cases b
    · exact seqView_lose _ _ _
    · rfl
  unfold State.send State.inject
  dsimp only
  split
  · exact (seqView_drawn _).trans (seqView_forward _ _)
  · exact hl _ _

theorem seqView_messageDown (s : State) (p : Prog) (cls arg : Nat) : (s.messageDown p cls arg).seqView = s.seqView :=
  seqView_foldl (fun t _ => seqView_send t _) _ s

/-! ## What SEQ writes of a step (R316, R317, R398) -/

theorem seqView_writeBlock (s : State) (p q : Nat) : (s.writeBlock p q).seqView = s.seqView := by
  unfold State.writeBlock
  extract_lets s1 s2 gen bytes
  split
  · rfl
  · exact seqView_setHostBytes _ _ _ _

theorem seqView_writeStatus (s : State) : s.writeStatus.seqView = s.seqView := by
  unfold State.writeStatus
  split
  · rfl
  · extract_lets s1 s2
    have h2 : s2.seqView = s.seqView :=
      (seqView_notePut _ _ _ _).trans ((seqView_notePut _ _ _ _).trans (seqView_notePut s _ _ _))
    exact (seqView_foldl (fun t _ => seqView_writeBlock t _ _) _ _).trans ((seqView_notePut _ _ _ _).trans h2)

/-- An event counts, and changes nothing else that SEQ shows. -/
theorem seqView_event (s : State) (code arg : Nat) :
    ∃ n, (s.event code arg).seqView = (s.modSeq fun q => { q with events := n }).seqView := by
  unfold State.event
  split
  · exact ⟨s.seq.events, rfl⟩
  · exact ⟨(s.seq.events + 1) % 65536,
      modSeq_congr (seqView_notePut _ _ _ _) fun q => { q with events := (q.events + 1) % 65536 }⟩

theorem seqView_setBucket (s : State) (id : Nat) (b : Bucket) :
    (s.setBucket id b).seqView = (s.modSeq fun q => { q with buckets := Sparse.put q.buckets id b }).seqView := by
  unfold State.setBucket
  extract_lets s1
  split
  · rfl
  · exact (seqView_notePut _ _ _ _).trans (seqView_notePut _ _ _ _)

end Sys2Proof.Machine

/-! SUPPORT. The commands of SEQ (R309 to R318): what a write of SEQ.CMD comes to, the halt of a step, and the beginning of a run. -/

namespace Sys2Proof.Machine

/-! ## Fields of one register -/

/-- A field above the one that is replaced keeps its value. -/
theorem Field.of_into_above {f g : Field} (hf : f.lo ≤ f.hi) (hg : f.hi < g.lo) (h32 : f.hi < 32) (w : Word) (v : Nat) :
    g.of (f.into w v) = g.of w := by
  obtain ⟨r, hi, lo⟩ := f
  simp only [Field.of, Field.into, bitsOf] at *
  generalize hn : hi - lo + 1 = n
  have hW := w.isLt
  generalize w.toNat = W at hW ⊢
  have hv : v % 2 ^ n < 2 ^ n := Nat.mod_lt _ (Nat.two_pow_pos n)
  generalize v % 2 ^ n = u at hv ⊢
  have hpos : 0 < 2 ^ (lo + n) := Nat.two_pow_pos _
  have hsplit : W - W / 2 ^ lo % 2 ^ n * 2 ^ lo + u * 2 ^ lo = (u * 2 ^ lo + W % 2 ^ lo) + W / 2 ^ (lo + n) * 2 ^ (lo + n) := by
    have h1 := Nat.div_add_mod' W (2 ^ lo)
    have h2 := Nat.div_add_mod' (W / 2 ^ lo) (2 ^ n)
    rw [Nat.div_div_eq_div_mul, ← Nat.pow_add] at h2
    have h3 : W / 2 ^ (lo + n) * 2 ^ n * 2 ^ lo = W / 2 ^ (lo + n) * 2 ^ (lo + n) := by rw [Nat.pow_add]; ring
    rw [← h2, Nat.add_mul, h3] at h1
    omega
  have hlow : u * 2 ^ lo + W % 2 ^ lo < 2 ^ (lo + n) := by
    have hl : W % 2 ^ lo < 2 ^ lo := Nat.mod_lt _ (Nat.two_pow_pos lo)
    have hu : (u + 1) * 2 ^ lo ≤ 2 ^ n * 2 ^ lo := Nat.mul_le_mul_right _ hv
    rw [Nat.add_mul, ← Nat.pow_add, Nat.add_comm n] at hu
    omega
  rw [hsplit]
  generalize u * 2 ^ lo + W % 2 ^ lo = L at hlow
  have hdiv : (L + W / 2 ^ (lo + n) * 2 ^ (lo + n)) / 2 ^ (lo + n) = W / 2 ^ (lo + n) := by
    rw [Nat.add_mul_div_right _ _ hpos, Nat.div_eq_of_lt hlow, Nat.zero_add]
  generalize L + W / 2 ^ (lo + n) * 2 ^ (lo + n) = X at hdiv
  have hX : X < 2 ^ 32 := by
    have e : 2 ^ 32 = 2 ^ (32 - (lo + n)) * 2 ^ (lo + n) := by rw [← Nat.pow_add]; congr 1; omega
    rw [e, ← Nat.div_lt_iff_lt_mul hpos] at hW ⊢
    rwa [hdiv]
  have hlo : g.lo = lo + n + (g.lo - (lo + n)) := by omega
  rw [BitVec.toNat_ofNat, Nat.mod_eq_of_lt hX, hlo, Nat.pow_add, ← Nat.div_div_eq_div_mul, ← Nat.div_div_eq_div_mul, hdiv]

/-- A field above the one that is written, in the same register, reads as before. -/
theorem fld_setFld_above (s : State) {f g : Field} (hr : g.reg = f.reg) (hf : f.lo ≤ f.hi) (hg : f.hi < g.lo) (h32 : f.hi < 32)
    (v i j : Nat) : (s.setFld f v i j).fld g i j = s.fld g i j := by
  rw [State.fld, State.setFld, hr, State.reg_setReg_same, Field.of_into_above hf hg h32, State.fld, hr]

/-- The result of a command goes below the state and the cause. -/
theorem seqState_setCmdst (s : State) (v : Nat) : (s.setFld F.SEQ_STATE_CMDST v).seqState = s.seqState :=
  fld_setFld_above s (f := F.SEQ_STATE_CMDST) (g := F.SEQ_STATE_STATE) rfl (by decide) (by decide) (by decide) v 0 0

theorem cause_setCmdst (s : State) (v : Nat) : (s.setFld F.SEQ_STATE_CMDST v).fld F.SEQ_STATE_CAUSE = s.fld F.SEQ_STATE_CAUSE :=
  fld_setFld_above s (f := F.SEQ_STATE_CMDST) (g := F.SEQ_STATE_CAUSE) rfl (by decide) (by decide) (by decide) v 0 0

theorem seqState_setCause (s : State) (v : Nat) : (s.setFld F.SEQ_STATE_CAUSE v).seqState = s.seqState :=
  fld_setFld_above s (f := F.SEQ_STATE_CAUSE) (g := F.SEQ_STATE_STATE) rfl (by decide) (by decide) (by decide) v 0 0

theorem cause_setCause (s : State) {v : Nat} (h : v < 2 ^ 8) : (s.setFld F.SEQ_STATE_CAUSE v).fld F.SEQ_STATE_CAUSE = v :=
  (State.fld_setFld_same s F.SEQ_STATE_CAUSE v 0 0 (by decide) (by decide)).trans (Nat.mod_eq_of_lt h)

theorem seqState_setSeqState (s : State) {st : Nat} (h : st < 2 ^ 4) : (s.setSeqState st).seqState = st :=
  (State.fld_setFld_same s F.SEQ_STATE_STATE st 0 0 (by decide) (by decide)).trans (Nat.mod_eq_of_lt h)

@[simp] theorem reg_modSeq (s : State) (f : Seq → Seq) (r : Reg) (i j : Nat) : (s.modSeq f).reg r i j = s.reg r i j := rfl

@[simp] theorem fld_modSeq (s : State) (f : Seq → Seq) (g : Field) (i j : Nat) : (s.modSeq f).fld g i j = s.fld g i j := rfl

@[simp] theorem seqState_modSeq (s : State) (f : Seq → Seq) : (s.modSeq f).seqState = s.seqState := rfl

theorem isRunning_of_state {s : State} (h : s.seqState = SQ.running) : s.isRunning = true := by simp [State.isRunning, h]

theorem isRunning_false {s : State} (h : s.seqState ≠ SQ.running) : s.isRunning = false := by simp [State.isRunning, h]

/-! ## A write of SEQ.CMD (R314) -/

/-- A command that is heard runs. -/
theorem SeqHears.runs {i : Instr} {code : Nat} {s : State} {port : Nat} (h : SeqHears s port)
    (hi : exec i s = answer (CmdSrc.bar0 port).ok s fun s => s.seqRow (.bar0 port) code) :
    Ends i s (s.runSeqCmd code s.seqArg (s.hmIn 0) (s.hmIn 1)) := by
  have hok : (CmdSrc.bar0 port).ok = true := decide_eq_true h.number
  have hc : s.seqCmdWrite code = s.runSeqCmd code s.seqArg (s.hmIn 0) (s.hmIn 1) := by
    simp [State.seqCmdWrite, h.idle, h.ready, h.unmarked]
  rw [Ends, hi, answer_next _ _ hok, State.seqRow, State.seqBar0, bar0Write_reaches _ h.reaches, hc]

/-- A command that is heard ends with its effect and its status. -/
theorem SeqHears.ends {i : Instr} {code : Nat} {s t : State} {port st : Nat} {y : CmdRes} (h : SeqHears s port)
    (hi : exec i s = answer (CmdSrc.bar0 port).ok s fun s => s.seqRow (.bar0 port) code)
    (hy : s.runSeqCmd code s.seqArg (s.hmIn 0) (s.hmIn 1) = y.1.seqEnds y.2) (ht : y = (t, st)) :
    Ends i s (t.seqEnds st) := by
  subst ht
  exact hy ▸ h.runs hi

/-! ## The effect of each command (R309 to R313, R318) -/

theorem cmdLoad_of_good {s s1 s2 : State} {arg : DWord} {h : List Byte} {p : Prog} (ha : seqAccepts 1 s.seqState = true)
    (hh : s.read agentSeq arg.toNat 256 = (s1, .ok h)) (hok : headerOk h (toWords 32 h) = true)
    (hl : (progOf (toWords 32 h)).limitsOk = true) (ht : s1.readTables (toWords 32 h) (progOf (toWords 32 h)) = (s2, some p))
    (hm : s2.membersOk p = true) (hb : ∀ b ∈ p.buckets, p.bucketOk b = true) :
    s.cmdLoad arg = ((((((((s2.leaveRun.modSeq fun q => q.withProg (some p)).setSeqState 1).setFld
      F.SEQ_STATE_CAUSE 0).settleFallBack).setReg .SEQ_STEP 0 0 0).setReg .SEQ_HMOUT 0 0 0).writeStatus), CS.ok) := by
  have hst : ¬ (s.seqState = SQ.running ∨ s.seqState = SQ.paused) := by simpa [seqAccepts] using ha
  have hball : p.buckets.all p.bucketOk = true := List.all_eq_true.mpr hb
  simp only [State.cmdLoad, if_neg hst, hh, hok, hl, ht, hm, hball, Bool.not_true, Bool.false_eq_true, if_false]
  rfl

theorem cmdStart_of_loaded {s : State} {p : Prog} (arg : DWord) (hs : s.seqState = SQ.loaded) (hp : s.seq.prog = some p) :
    s.cmdStart arg =
      ((((((((s.loadLimits p).setSeed p.seed).setFld F.NUM_LSCALE_LSEXP p.lsinit).setReg .NUM_LSSTAT 0 0 0).setReg .SEQ_STEP 0 0
        (BitVec.ofNat 32 arg.toNat)).modSeq fun q => q.freshRun 0).settleFallBack.enterRun .start (BitVec.ofNat 32 arg.toNat)),
        CS.ok) := by
  simp only [State.cmdStart, if_neg (not_not_intro hs), hp]

theorem cmdResume_of_read {s s1 : State} {x : Ex} {arg : DWord} {w : List DWord} {rs : List CkRead}
    (ha : seqAccepts 3 s.seqState = true) (hx : s.ex = some x) (hr : s.readCheckpoint x arg.toNat = (s1, some (w, rs))) :
    s.cmdResume arg = ((((rs.foldl (fun t r => t.restoreRecord x r) (s1.leaveRun.loadLimits x.p)).restoreHeader w).enterRun
      .resume (BitVec.ofNat 32 (nth 0 w 1).toNat)), CS.ok) := by
  have hst : ¬ (s.seqState ≠ SQ.loaded ∧ s.seqState ≠ SQ.halted) := by
    simp only [seqAccepts, Bool.or_eq_true, beq_iff_eq] at ha
    tauto
  simp only [State.cmdResume, if_neg hst, hx, hr]

theorem cmdRetry_of_halted {s : State} {p : Prog} (hs : s.seqState = SQ.halted) (hp : s.seq.prog = some p) :
    s.cmdRetry = ((s.leaveForRetry p).enterRun s.retryUse (s.reg .SEQ_STEP 0 0), CS.ok) := by
  simp only [State.cmdRetry, hp, if_neg (not_not_intro hs)]

theorem cmdUnload_of_accepted {s : State} (ha : seqAccepts 9 s.seqState = true) :
    s.cmdUnload = (((((s.leaveRun.setSeqState 0).setFld F.SEQ_STATE_CAUSE 0).writeStatus).modSeq
      fun q => q.withProg none).settleFallBack, CS.ok) := by
  have hst : s.seqState = SQ.loaded ∨ s.seqState = SQ.paused ∨ s.seqState = SQ.halted := by
    simpa [seqAccepts, or_assoc] using ha
  simp only [State.cmdUnload, if_pos hst]
  rfl

theorem cmdPause_of_running {s : State} (hs : s.seqState = SQ.running) :
    s.cmdPause = (s.modSeq fun q => { q with pauseReq := true }, CS.ok) := if_pos (isRunning_of_state hs)

theorem cmdContinue_of_paused {s : State} (hs : s.seqState = SQ.paused) :
    s.cmdContinue = ((s.setSeqState SQ.running).writeStatus, CS.ok) := if_pos hs

theorem cmdHalt_of_inStep {s : State} (hs : s.seqState = SQ.running ∨ s.seqState = SQ.paused) :
    s.cmdHalt = (s.halt HC.host (BitVec.ofNat 16 s.node), CS.ok) := if_pos hs

theorem cmdCheckpoint_of_running {s : State} (hs : s.seqState = SQ.running) :
    s.cmdCheckpoint = (s.modSeq fun q => { q with ckptReq := true }, CS.ok) := if_pos (isRunning_of_state hs)

theorem cmdCheckpoint_of_paused {s : State} {x : Ex} (hs : s.seqState = SQ.paused) (hx : s.ex = some x) :
    s.cmdCheckpoint = (s.startCheckpoint x, CS.ok) := by
  have hr : s.isRunning = false := isRunning_false (by rw [hs]; decide)
  simp only [State.cmdCheckpoint, hr, Bool.false_eq_true, if_false, if_pos hs, hx]

theorem cmdHmput_of_running {s : State} (w0 w1 : DWord) (hs : s.seqState = SQ.running) :
    s.cmdHmput w0 w1 = (s.hmDeliver w0 w1, CS.ok) := if_pos (isRunning_of_state hs)

/-! ## A halted step (R303) -/

/-- SEQ is halted with a cause: no barrier is left, and every bucket it holds is marked. -/
structure Halted (t : State) (cause : Nat) (node : BitVec 16) : Prop where
  state : t.seqState = SQ.halted
  cause : t.fld F.SEQ_STATE_CAUSE = cause
  node : t.seq.cnode = node
  barrier : t.seq.barrier = none
  buckets : ∀ b k, t.bucket b = some k → k.st = .halted

/-- That SEQ is halted shows in its state and its registers. -/
theorem Halted.of_seqView {s t : State} {cause : Nat} {node : BitVec 16} (h : Halted s cause node) (ht : t.seqView = s.seqView) :
    Halted t cause node where
  state := (fld_of_seqView ht rfl).trans h.state
  cause := (fld_of_seqView ht rfl).trans h.cause
  node := (congrArg Seq.cnode (seq_of_seqView ht)).trans h.node
  barrier := (congrArg Seq.barrier (seq_of_seqView ht)).trans h.barrier
  buckets b k hk := h.buckets b k (by rwa [State.bucket, seq_of_seqView ht] at hk)

theorem Sparse.mem_keys_of_find {α : Type} {m : Sparse α} {x : Nat} {v : α} (h : Sparse.find m x = some v) : x ∈ m.map (·.1) := by
  induction m with
  | nil => exact nomatch h
  | cons e r ih =>
    by_cases he : e.1 = x
    · exact List.mem_cons.mpr (Or.inl he.symm)
    · exact List.mem_cons_of_mem _ (ih ((if_neg he).symm.trans h))

theorem seqView_modBucket_halt (s : State) (id : Nat) :
    ∃ l, (s.modBucket id Bucket.halt).seqView = (s.modSeq fun q => { q with buckets := l }).seqView ∧
      ∀ b k, Sparse.find l b = some k → k.st = .halted ∨ (b ≠ id ∧ s.bucket b = some k) := by
  unfold State.modBucket
  split
  · next hn =>
    refine ⟨s.seq.buckets, rfl, fun b k hk => Or.inr ⟨fun e => ?_, hk⟩⟩
    exact nomatch hk.symm.trans (show s.bucket b = none from e ▸ hn)
  · next k0 _ =>
    refine ⟨Sparse.put s.seq.buckets id k0.halt, seqView_setBucket s id _, fun b k hk => ?_⟩
    by_cases hb : b = id
    · rw [hb, Sparse.find_put_same] at hk
      exact Or.inl (congrArg Bucket.st (Option.some.inj hk).symm)
    · exact Or.inr ⟨hb, (Sparse.find_put_other _ _ _ _ hb).symm.trans hk⟩

/-- The walk over a list of buckets marks each of them, and changes nothing else that SEQ shows. -/
theorem seqView_markBuckets (ids : List Nat) (s : State) :
    ∃ l, (ids.foldl (fun t b => t.modBucket b Bucket.halt) s).seqView = (s.modSeq fun q => { q with buckets := l }).seqView ∧
      ∀ b k, Sparse.find l b = some k → k.st = .halted ∨ (b ∉ ids ∧ s.bucket b = some k) := by
  induction ids generalizing s with
  | nil => exact ⟨s.seq.buckets, rfl, fun b k hk => Or.inr ⟨List.not_mem_nil, hk⟩⟩
  | cons id r ih =>
    obtain ⟨l1, h1, hl1⟩ := seqView_modBucket_halt s id
    obtain ⟨l, h, hl⟩ := ih (s.modBucket id Bucket.halt)
    refine ⟨l, h.trans (modSeq_congr h1 _), fun b k hk => ?_⟩
    rcases hl b k hk with hh | ⟨hr, hb⟩
    · exact Or.inl hh
    · rw [State.bucket, seq_of_seqView h1] at hb
      rcases hl1 b k hb with hh | ⟨hne, hs⟩
      · exact Or.inl hh
      · exact Or.inr ⟨fun hm => (List.mem_cons.mp hm).elim hne hr, hs⟩

theorem haltHere_halted {s : State} (hs : s.inStep = true) {cause : Nat} (hc : cause < 2 ^ 8) (node : BitVec 16) :
    Halted (s.haltHere cause node) cause node := by
  unfold State.haltHere
  unfold State.inStep at hs
  rw [if_pos hs]
  extract_lets s1 s2 s3
  have hst : s2.seqState = SQ.halted := by
    rw [seqState_modSeq, seqState_setCause, seqState_setSeqState s (by decide)]
  have hca : s2.fld F.SEQ_STATE_CAUSE = cause := by rw [fld_modSeq, cause_setCause _ hc]
  obtain ⟨l, h3, hl⟩ := seqView_markBuckets (s2.seq.buckets.map (·.1)) s2
  obtain ⟨n, h4⟩ := seqView_event s3 EV.halt (cause + node.toNat * 256)
  have h : (s3.event EV.halt (cause + node.toNat * 256)).writeStatus.seqView =
      ((s2.modSeq fun q => { q with buckets := l }).modSeq fun q => { q with events := n }).seqView :=
    (seqView_writeStatus _).trans (h4.trans (modSeq_congr h3 _))
  refine Halted.of_seqView ?_ h
  refine ⟨by rwa [seqState_modSeq, seqState_modSeq], by rwa [fld_modSeq, fld_modSeq], rfl, rfl, fun b k hk => ?_⟩
  rcases hl b k hk with hh | ⟨hno, hb⟩
  · exact hh
  · exact absurd (Sparse.mem_keys_of_find hb) hno

/-- A halt halts, whoever leads the step. -/
theorem halt_halted {s : State} (hs : s.inStep = true) {cause : Nat} (hc : cause < 2 ^ 8) (node : BitVec 16) :
    Halted (s.halt cause node) cause node := by
  have hh := haltHere_halted hs hc node
  unfold State.halt
  unfold State.inStep at hs
  rw [if_pos hs]
  extract_lets s1 arg
  split
  · exact hh
  · next p _ =>
    split
    · have hd := hh.of_seqView (seqView_messageDown s1 p msgHaltstep arg)
      exact ⟨hd.state, hd.cause, hd.node, hd.barrier, hd.buckets⟩
    · exact hh.of_seqView (seqView_send s1 _)

/-- A command that leaves SEQ halted ends there. -/
theorem Halted.seqEnds {s : State} {cause : Nat} {node : BitVec 16} (h : Halted s cause node) (st : Nat) :
    s.seqEnds st = s.setFld F.SEQ_STATE_CMDST st := by
  have hr : (s.setFld F.SEQ_STATE_CMDST st).isRunning = false :=
    isRunning_false (by rw [seqState_setCmdst, h.state]; decide)
  simp only [State.seqEnds, hr, Bool.not_false, if_true]

/-! ## The beginning of a run (R313) -/

/-- A run begins RUNNING with no cause, at its step, behind its barrier. -/
theorem enterRun_shows (s : State) (u : BarUse) (step : Word) :
    let t := s.enterRun u step
    t.seqState = SQ.running ∧ t.fld F.SEQ_STATE_CAUSE = 0 ∧ t.reg .SEQ_STEP 0 0 = step ∧ t.seq.barrier = some u ∧
      t.seq.cnode = 0 := by
  generalize ht : s.enterRun u step = t
  unfold State.enterRun at ht
  extract_lets s1 s2 s3 at ht
  have hv : t.seqView = (s3.modSeq fun q => { q with
      barrier := some u, barSent := false, cnode := 0, resumeHold := q.resumeHold || u == BarUse.resume }).seqView :=
    ht ▸ seqView_writeStatus _
  have hreg : ∀ r : Reg, BlockId.ofOffset (r.addr 0 0) = some .seq → t.reg r 0 0 = s3.reg r 0 0 := fun _ hr =>
    (reg_of_seqView hv hr).trans (reg_modSeq ..)
  have hstate : t.reg .SEQ_STATE 0 0 = s2.reg .SEQ_STATE 0 0 :=
    (hreg _ rfl).trans (State.reg_setReg_other _ _ _ _ _ _ _ _ (by decide))
  refine ⟨?_, ?_, ?_, congrArg Seq.barrier (seq_of_seqView hv), congrArg Seq.cnode (seq_of_seqView hv)⟩
  · calc t.seqState = s2.seqState := congrArg F.SEQ_STATE_STATE.of hstate
      _ = (s1.setSeqState SQ.running).seqState := seqState_setCause _ _
      _ = SQ.running := seqState_setSeqState _ (by decide)
  · exact (congrArg F.SEQ_STATE_CAUSE.of hstate).trans (cause_setCause _ (by decide))
  · exact (hreg _ rfl).trans (State.reg_setReg_same ..)

/-! ## The obligation -/

/-- A HALT that is heard leaves SEQ halted with cause HOST on this node (R303, R313). -/
theorem SeqHears.halt_halts {s : State} {port : Nat} (h : SeqHears s port) (hs : s.seqState = SQ.running ∨ s.seqState = SQ.paused) :
    Ends (.seqHalt (.bar0 port)) s ((s.halt HC.host (BitVec.ofNat 16 s.node)).seqEnds 0) ∧
    Gives (.seqHalt (.bar0 port)) s fun t => t.seqState = SQ.halted ∧ t.fld F.SEQ_STATE_CAUSE = HC.host ∧
      t.seq.cnode = BitVec.ofNat 16 s.node ∧ t.fld F.SEQ_STATE_CMDST = 0 ∧ ∀ b k, t.bucket b = some k → k.st = .halted := by
  have he := h.ends (i := .seqHalt (.bar0 port)) (code := 6) (y := s.cmdHalt) rfl rfl (cmdHalt_of_inStep hs)
  have hh : Halted (s.halt HC.host (BitVec.ofNat 16 s.node)) HC.host (BitVec.ofNat 16 s.node) :=
    halt_halted (by simpa [State.inStep] using hs) (by decide) _
  refine ⟨he, _, he, ?_⟩
  rw [hh.seqEnds]
  exact ⟨(seqState_setCmdst _ _).trans hh.state, (cause_setCmdst _ _).trans hh.cause, hh.node,
    State.fld_setFld_same _ F.SEQ_STATE_CMDST 0 0 0 (by decide) (by decide), hh.buckets⟩

/-- Settles O30: each command that is heard ends with its effect (`SeqHears.ends` with the lemma of the command), a halt halts
(`SeqHears.halt_halts`), and a run begins behind the barrier (`enterRun_shows`). -/
theorem seqCommands : Obligations.SeqCommands := by
  unfold Obligations.SeqCommands
  refine ⟨fun s port h => ⟨?_, ?_, ?_, ?_, ?_⟩,
    fun s port h => ⟨fun hs => ⟨?_, ?_, ?_⟩, fun hs => ⟨fun x hx => ?_, ?_⟩, fun hs => ?_⟩, fun _ _ _ => rfl, enterRun_shows⟩
  · intro s1 s2 b p ha hh hok hl ht hm hb
    exact h.ends (code := 1) (y := s.cmdLoad s.seqArg) rfl rfl (cmdLoad_of_good ha hh hok hl ht hm hb)
  · intro p hs hp
    exact h.ends (code := 2) (y := s.cmdStart s.seqArg) rfl rfl (cmdStart_of_loaded s.seqArg hs hp)
  · intro x s1 w rs ha hx hr
    exact h.ends (code := 3) (y := s.cmdResume s.seqArg) rfl rfl (cmdResume_of_read ha hx hr)
  · intro p hs hp
    exact h.ends (code := 7) (y := s.cmdRetry) rfl rfl (cmdRetry_of_halted hs hp)
  · intro ha
    exact h.ends (code := 9) (y := s.cmdUnload) rfl rfl (cmdUnload_of_accepted ha)
  · exact h.ends (code := 4) (y := s.cmdPause) rfl rfl (cmdPause_of_running hs)
  · exact h.ends (code := 8) (y := s.cmdCheckpoint) rfl rfl (cmdCheckpoint_of_running hs)
  · exact h.ends (code := 10) (y := s.cmdHmput (s.hmIn 0) (s.hmIn 1)) rfl rfl (cmdHmput_of_running _ _ hs)
  · exact h.ends (code := 8) (y := s.cmdCheckpoint) rfl rfl (cmdCheckpoint_of_paused hs hx)
  · exact h.ends (code := 5) (y := s.cmdContinue) rfl rfl (cmdContinue_of_paused hs)
  · exact (h.halt_halts hs).imp_right fun hg _ => hg

end Sys2Proof.Machine

/-! SUPPORT. MSE dies: what a check rejects, records, ring tails and held packets (R147, R150, R152, R153, R156, R392). -/

namespace Sys2Proof.Machine

/-! ## What a check rejects (R150, R152) -/

/-- A command that the die takes ends with what its run gives. -/
theorem TakesMse.ends {cmd : Instr} {s s1 s2 : State} {k r : Nat} {c : MseCmd} {ok : Nat → Bool}
    {run : State → MseCmd → Option (State × MseRes)} {y : MseRes} (h : TakesMse s s1 k r c)
    (hx : exec cmd s = answer (isMse k && isRing r) s fun s => s.mseDo k r ok run) (hok : ok c.op = true)
    (hrun : run s1 c = some (s2, y)) : EndsMse cmd s s2 k r c y := by
  rw [EndsMse, hx, answer_next s _ h.units, h.mseDo hok hrun]

theorem mseRun_of_rejected {s : State} {k st : Nat} {c : MseCmd} (h : s.mseCheck k c = some (st, none)) :
    s.mseRun k c = (s, MseRes.of st) := by
  simp only [State.mseRun, h]

theorem openRun_of_rejected {s : State} {k st : Nat} {c : MseCmd} (h : s.mseCheck k c = some (st, none)) :
    s.openRun k c = some (s, MseRes.of st) := by
  simp only [State.openRun, h]

/-- A NOP passes every check behind the first. -/
theorem mseRun_of_nop {s : State} {k : Nat} {c : MseCmd} (h : c.op = 0) :
    s.mseRun k c = (s, MseRes.of (if c.malformed then 2 else 0)) := by
  by_cases hm : c.malformed = true
  · simp only [State.mseRun, State.mseCheck, if_pos hm]
  · simp only [State.mseRun, State.mseCheck, if_neg hm, h, MO.nop, if_true]

theorem malformed_of_reserved {c : MseCmd} (h : ¬ c.op ∈ mseOps) : c.malformed = true := by
  simp [MseCmd.malformed, h]

theorem mseRun_of_reserved {s : State} {k : Nat} {c : MseCmd} (h : ¬ c.op ∈ mseOps) : s.mseRun k c = (s, MseRes.of 2) :=
  mseRun_of_rejected (by rw [State.mseCheck, if_pos (malformed_of_reserved h)])

/-! ## Records (R153, R392) -/

theorem mseComplete_of_done {s : State} {k r : Nat} {d : MseDone} {l : List (Nat × MseDone)} (h : (s.mse k).done = (r, d) :: l) :
    s.mseComplete k r = (s.mseFree k).mseDeliver k d := by
  simp only [State.mseComplete, h, ne_eq, not_true_eq_false, if_false]

theorem exec_mseCommandComplete {s : State} {k r : Nat} {d : MseDone} {l : List (Nat × MseDone)} (hk : k < 6) (hr : r < 4)
    (hruns : s.mseRuns = true) (h : (s.mse k).done = (r, d) :: l) :
    exec (.mseCommandComplete k r) s = .next (keepFixed s ((s.mseFree k).mseDeliver k d)) := by
  have hx : exec (.mseCommandComplete k r) s =
    answer (isMse k && isRing r) s fun s => if s.mseRuns then s.mseComplete k r else s := rfl
  rw [hx, answer_next s _ (by simp [isMse, isRing, hk, hr]), if_pos hruns, mseComplete_of_done h]

/-- The die's number fits the three bits that Table 5.4 gives it. -/
theorem MseDone.bytes_eq (d : MseDone) {k : Nat} (hk : k < 6) : d.bytes k =
    toBytes 8 (d.value.toNat * 2 ^ 32 + d.count.toNat) ++
      toBytes 8 (d.status % 256 * 2 ^ 56 + d.flags.toNat * 2 ^ 52 + (if d.nonfin then 2 ^ 51 else 0) + k * 2 ^ 48
        + d.node.toNat * 2 ^ 32 + d.offset.toNat) := by
  have h8 : k % 8 = k := Nat.mod_eq_of_lt (by omega)
  have hb : b2n d.nonfin * 2 ^ 51 = if d.nonfin then 2 ^ 51 else 0 := by cases d.nonfin <;> rfl
  rw [MseDone.bytes, h8, hb]

/-! ## Ring tails and held packets (R147, R156) -/

theorem exec_mseRtailWrite {s : State} {port k r : Nat} (v : Word) (hp : port < 2) (hk : k < 6) (hr : r < 4)
    (hw : s.writable port (Reg.addr .MSE_RTAIL k r) = true) :
    exec (.mseRtailWrite port k r v) s = .next (keepFixed s (s.mseTailWrite k r v)) := by
  have hx : exec (.mseRtailWrite port k r v) s = answer (isPort port && isMse k && isRing r) s fun s =>
    s.bar0Write port .MSE_RTAIL k r fun s => s.mseTailWrite k r v := rfl
  rw [hx, answer_next s _ (by simp [isPort, isMse, isRing, hp, hk, hr]), bar0Write_reaches _ hw]

theorem exec_notopenTimeout {s : State} {k : Nat} (hk : k < 6) (hruns : s.mseRuns = true) :
    exec (.notopenTimeout k) s = .next (keepFixed s (s.notOpen k)) := by
  have hx : exec (.notopenTimeout k) s = answer (isMse k) s fun s => if s.mseRuns then s.notOpen k else s := rfl
  rw [hx, answer_next s _ (by simp [isMse, hk]), if_pos hruns]

/-- An update of a die matters at that die alone. -/
theorem modMse_congr {s : State} {k : Nat} {f g : Mse → Mse} (h : f (s.mse k) = g (s.mse k)) : s.modMse k f = s.modMse k g := by
  have hl : s.mses.modify k f = s.mses.modify k g := by
    by_cases hk : k < s.mses.length
    · have hget : s.mses[k] = s.mse k := by simp [State.mse, nth, hk]
      simp only [List.modify_eq_set_getElem?, List.getElem?_eq_getElem hk, Option.map_eq_map, Option.map_some, hget, h]
    · rw [List.modify_eq_self (by omega), List.modify_eq_self (by omega)]
  rw [State.modMse, State.modMse, hl]

theorem notOpen_of_held {s : State} {k l : Nat} {p : Packet} {rest : List (Nat × Packet)} (h : (s.mse k).held = (l, p) :: rest) :
    s.notOpen k = ((((s.modMse k fun m => { m with held := rest }).unbuffer l p).count
      F.MSE_EVENT_NOTOPEN 1 k).seqNotOpen (16 * p.addr.toNat)).pump := by
  have hm : s.modMse k (fun m => { m with held := m.held.drop 1 }) = s.modMse k fun m => { m with held := rest } :=
    modMse_congr (by rw [h, List.drop_one, List.tail_cons])
  simp only [State.notOpen, h, hm]

/-- Settles O19: what a check rejects ends with its status (`TakesMse.ends`), a result in hand is delivered by its issuer
(`exec_mseCommandComplete`), and the packet held longest is discarded (`notOpen_of_held`). -/
theorem mseChecksAndRecords : Obligations.MseChecksAndRecords := by
  unfold Obligations.MseChecksAndRecords
  refine ⟨fun s s1 k r c h => ⟨fun cmd st hcmd hc => ?_, fun hop => ?_, fun hop => ?_⟩,
    fun s k hk => ⟨fun r d l hr hruns hd => ?_, fun port r v hp hr hw => ?_, fun l p rest hruns hheld => ?_⟩⟩
  · rcases hcmd with ⟨e, he, rfl, hop⟩ | ⟨rfl, hop⟩ | ⟨rfl, hop⟩
    · exact h.ends ((tensorOps_exec he).2 k r s) (by simp [hop]) (congrArg some (mseRun_of_rejected hc))
    · exact h.ends (ok := (· == MO.hist)) rfl (by rw [hop]; rfl) (congrArg some (mseRun_of_rejected hc))
    · exact h.ends (ok := (· == MO.openR)) rfl (by rw [hop]; rfl) (openRun_of_rejected hc)
  · exact h.ends (ok := fun op => op == MO.nop || !mseOps.contains op) rfl (by rw [hop]; rfl) (congrArg some (mseRun_of_nop hop))
  · have hres : ¬ c.op ∈ mseOps := hop
    exact h.ends (ok := fun op => op == MO.nop || !mseOps.contains op) rfl (by simp [hres])
      (congrArg some (mseRun_of_reserved hres))
  · have hx := exec_mseCommandComplete hk hr hruns hd
    refine ⟨fun hi hn => ?_, fun hi hn => ?_, fun t hi => ?_, fun p q i hi => ?_⟩
    · rw [hx, State.mseDeliver, hi]
      simp only [hn, Bool.false_eq_true, if_false, d.bytes_eq hk]
      rfl
    · rw [hx, State.mseDeliver, hi]
      simp only [hn, if_true]
      rfl
    · rw [hx, State.mseDeliver, hi]
      rfl
    · rw [hx, State.mseDeliver, hi]
      rfl
  · exact exec_mseRtailWrite v hp hk hr hw
  · rw [exec_notopenTimeout hk hruns, notOpen_of_held hheld]

end Sys2Proof.Machine

/-! SUPPORT. FINISH on behalf of the update stream (R178): where the range lies in a frozen page it is refused whole. -/

namespace Sys2Proof.Machine

/-- A FINISH whose range is open ends FROZEN where the update stream may not write the range. -/
theorem rangeCmd_of_frozen {s : State} {k : Nat} {c : MseCmd} {x : ARange} (hop : c.op = 0x12) (hm : c.malformed = false)
    (hx : (s.mse k).rangeNamed c.dst = some x) (hd : c.dsp = noAddr) (hf : s.finishFrozen c x = true) :
    s.rangeCmd k c = (s, MseRes.of 0x0B) := by
  simp [State.rangeCmd, hm, hx, hop, hd, hf, MO.clear, MO.close]

/-- The state in which a die runs the command at the head of its ring, behind the walks of its checks. -/
def State.mseRunsFrom (s : State) (k r : Nat) (c : MseCmd) : State :=
  (((s.mseFetch k r).1.cplCheck k c.cpl).1.mseWalks k c).1

theorem takesMse_of_answers {s : State} {k r : Nat} {w : List DWord} (hk : k < 6) (hr : r < 4) (hturn : s.mseTurn k r = true)
    (hfetch : (s.mseFetch k r).2 = some (w, .ring)) (hcpl : ((s.mseFetch k r).1.cplCheck k (readMseCmd w).cpl).2 = none)
    (hwalk : (((s.mseFetch k r).1.cplCheck k (readMseCmd w).cpl).1.mseWalks k (readMseCmd w)).2 = false) :
    TakesMse s (s.mseRunsFrom k r (readMseCmd w)) k r (readMseCmd w) :=
  ⟨hk, hr, hturn, w, _, _, Prod.snd_eq_iff.mp hfetch, rfl, Prod.snd_eq_iff.mp hcpl, Prod.snd_eq_iff.mp hwalk⟩

/-- The words of a FINISH on behalf of the update stream of the range at 0x62000, with no flag map and no record. -/
def updFinishWords : List DWord :=
  [BitVec.ofNat 64 (0x12 * 2 ^ 56 + 2 ^ 45), 0, 0x62000, 0, BitVec.ofNat 64 noAddr, 0, 0, BitVec.ofNat 64 noAddr]

/-- A range of one B16 tile at 0x62000, which lies on stack 2 (R182), so that die 0 homes no part of it. -/
def rangeElsewhere : ARange := ⟨0x62000, 1, 2, [], 0, 0, [], none, [], false, []⟩

/-- Die 0 holds the range, its ring 0 at VA 0 holds the FINISH, and a page table at PA 0x10000 maps the first GiB to itself,
readable, writable and frozen (R177, R178). -/
def finishOfFrozen : State :=
  let s : State := { State.reset with pwr := { Pwr.reset with supply := .on, step := 10, hold := none } }
  let s := (s.setFld F.MEM_PTBASELO_BASELO 0x10).setFld F.MEM_MMUCTL_EN 1
  let s := (s.setReg .MSE_RINGHI 0 0 (BitVec.ofNat 32 (4 * 2 ^ 16))).setReg .MSE_RTAIL 0 0 1
  let put (t : State) (pa : Nat) (b : List Byte) : State := t.setHbmBytes ((List.range b.length).map fun i => t.paKey (pa + i)) b
  let s := put (put (put s 0x10000 (toBytes 8 0x11001)) 0x11000 (toBytes 8 0x3D)) 0 (ofWords updFinishWords)
  s.modMse 0 fun m => { m with ranges := [rangeElsewhere] }

/-- The state in which die 0 runs it. -/
def finishOfFrozenRuns : State := finishOfFrozen.mseRunsFrom 0 0 (readMseCmd updFinishWords)

theorem finishOfFrozen_taken : TakesMse finishOfFrozen finishOfFrozenRuns 0 0 (readMseCmd updFinishWords) :=
  takesMse_of_answers (by decide) (by decide) (by decide +kernel) (by decide +kernel) (by decide +kernel) (by decide +kernel)

/-- The statuses that await their records at die 0. -/
def doneStatuses (s : State) : List Nat := (s.mse 0).done.map (·.2.status)

/-- Refutes O21: the clause of FINISH leaves out the FROZEN refusal of R178 (`rangeCmd_of_frozen`). In `finishOfFrozen` the range of
a FINISH on behalf of the update stream lies in a frozen page, so that the die refuses it whole; the die homes no tile of it, so that
the hypothesis on the writes holds, and the statement has it end OK with the range freed. -/
theorem not_rangeCommands : ¬ Obligations.RangeCommands := by
  unfold Obligations.RangeCommands
  intro h
  have hm : (readMseCmd updFinishWords).malformed = false := by decide +kernel
  have hx : (finishOfFrozenRuns.mse 0).rangeNamed (readMseCmd updFinishWords).dst = some rangeElsewhere := by decide +kernel
  have hfrozen : finishOfFrozenRuns.finishFrozen (readMseCmd updFinishWords) rangeElsewhere = true := by decide +kernel
  have hruns : EndsMse (.finishRange 0 0) finishOfFrozen finishOfFrozenRuns 0 0 (readMseCmd updFinishWords) (MseRes.of 0x0B) :=
    finishOfFrozen_taken.ends (ok := (· == MO.finish)) rfl (by decide)
      (congrArg some (rangeCmd_of_frozen (by decide) hm hx (by decide) hfrozen))
  obtain ⟨-, -, hnamed, -⟩ := h finishOfFrozen finishOfFrozenRuns 0 0 (readMseCmd updFinishWords)
  obtain ⟨-, -, hfinish⟩ := hnamed rangeElsewhere finishOfFrozen_taken hm hx
  have hsays := hfinish finishOfFrozenRuns (by decide) (.inl (by decide)) rfl rfl rfl
  have heq := congrArg doneStatuses (Host.Outcome.next.inj (hruns.symm.trans hsays))
  exact absurd heq (by decide +kernel)

end Sys2Proof.Machine

/-! SUPPORT. DMA channels: the descriptor that a channel takes, its moves, and its end (R147, R162 to R170). -/

namespace Sys2Proof.Machine

/-! ## What becomes of a descriptor (R165) -/

/-- Behind the walks of its checks, a descriptor that a check rejects has its status; a misaligned one is logged and counted. -/
theorem dmaStart_of_rejected {s s1 : State} {n i st : Nat} {c : DmaCmd}
    (hw : (s.setFld F.DMA_CHSTAT_BUSY 1 n).dmaWalks c = (s1, false)) (hc : s1.dmaCheck n c = some (st, none)) :
    s.dmaStart n i c .ring =
      (if st = 0x04 then ((s1.setFld F.DMA_ALIGNLOG_CHAN n).setFld F.DMA_ALIGNLOG_INDEX i).count F.DMA_ALIGNCNT_COUNT 1
        else s1).setBusy n { DmaBusy.fresh c with status := st } := by
  simp only [State.dmaStart, Issuer.isShifts, Bool.false_eq_true, if_false, hw, hc]
  rfl

theorem dmaStart_of_nop {s s1 : State} {n i : Nat} {c : DmaCmd}
    (hw : (s.setFld F.DMA_CHSTAT_BUSY 1 n).dmaWalks c = (s1, false)) (hc : s1.dmaCheck n c = none) (hop : c.op = 0) :
    s.dmaStart n i c .ring = s1.setBusy n { DmaBusy.fresh c with moved := true } := by
  simp only [State.dmaStart, Issuer.isShifts, Bool.false_eq_true, if_false, hw, hc, hop, DO.nop, if_true]
  rfl

/-- The pieces of a transfer that lie at peers. -/
def State.farPieces (s : State) (n : Nat) (c : DmaCmd) : List (Nat × Nat) :=
  ((s.dmaMoves n c).flatMap (·.src)).filter fun p => s.farGa p.1

theorem dmaStart_of_accepted {s s1 : State} {n i : Nat} {c : DmaCmd}
    (hw : (s.setFld F.DMA_CHSTAT_BUSY 1 n).dmaWalks c = (s1, false)) (hc : s1.dmaCheck n c = none) (hop : c.op ≠ 0) :
    s.dmaStart n i c .ring =
      let y := if (s1.farPieces n c).isEmpty then s1.dmaMove n (DmaBusy.fresh c)
        else s1.dmaAsk n (DmaBusy.fresh c) ((s1.farPieces n c).flatMap splitPackets)
      y.1.setBusy n y.2 := by
  simp only [State.dmaStart, Issuer.isShifts, Bool.false_eq_true, if_false, hw, hc, hop, DO.nop]
  rfl

/-- The descriptor at the head of the ring starts, in a state whose walks leave `s1`. -/
theorem TakesDma.dmaTake {s s1 : State} {n i : Nat} {c : DmaCmd} {ok : Nat → Bool} (h : TakesDma s s1 n i c)
    (hok : ok c.op = true) :
    ∃ s3 : State, (s3.setFld F.DMA_CHSTAT_BUSY 1 n).dmaWalks c = (s1, false) ∧ s.dmaTake n ok = s3.dmaStart n i c .ring := by
  obtain ⟨w, s0, s2, s3, hread, rfl, hs2, hcpl, hwalk⟩ := h.head
  have hidle := h.idle
  simp only [State.dmaIdle, Bool.and_eq_true, Bool.not_eq_true'] at hidle
  obtain ⟨⟨hruns, hlogic⟩, -⟩ := hidle
  have hturn : (s0.ringPop dmaRing n 0).dmaTurn n 0 = s2 := hs2.symm
  have hwait : ((s.dma n).stopped || !s.ringHas dmaRing n 0) = false := by simp [h.runs, h.waits]
  have hnext : (!s.dmaIdle n || s.dmaNext n != some 0) = false := by simp [h.idle, h.turn]
  refine ⟨s3, hwalk, ?_⟩
  simp only [State.dmaTake, hruns, State.onDie, hlogic, hnext, h.own, hwait, hread, hok, hturn, hcpl, h.index,
    Bool.not_true, Bool.false_eq_true, if_false]

/-- A command of a channel that takes descriptors of its opcode. -/
theorem TakesDma.ends {cmd : Instr} {s s1 t : State} {n i : Nat} {c : DmaCmd} {ok : Nat → Bool} (h : TakesDma s s1 n i c)
    (hx : exec cmd s = answer (isDma n) s fun s => s.dmaTake n ok) (hok : ok c.op = true)
    (ht : ∀ s3 : State, (s3.setFld F.DMA_CHSTAT_BUSY 1 n).dmaWalks c = (s1, false) → s3.dmaStart n i c .ring = t) :
    exec cmd s = .next (keepFixed s t) := by
  obtain ⟨s3, hwalk, htake⟩ := h.dmaTake hok
  rw [hx, answer_next s _ (show isDma n = true from decide_eq_true h.chan), htake, ht s3 hwalk]

/-- Each command of a channel takes the descriptors of its opcode, the NOP the reserved ones too (log entry 39). -/
theorem exec_dmaCommand {cmd : Instr} {n : Nat} {c : DmaCmd}
    (h : (cmd = .dmaNop n ∧ (c.op = 0 ∨ 4 < c.op)) ∨ (cmd = .dmaLinear n ∧ c.op = 1) ∨ (cmd = .dmaTile n ∧ c.op = 2) ∨
      (cmd = .dmaTileSkew n ∧ c.op = 3) ∨ (cmd = .dmaTileUnskew n ∧ c.op = 4)) (s : State) :
    ∃ ok : Nat → Bool, ok c.op = true ∧ exec cmd s = answer (isDma n) s fun s => s.dmaTake n ok := by
  rcases h with ⟨rfl, hop⟩ | ⟨rfl, hop⟩ | ⟨rfl, hop⟩ | ⟨rfl, hop⟩ | ⟨rfl, hop⟩
  · exact ⟨fun op => op == DO.nop || decide (4 < op), by simpa [DO.nop] using hop, rfl⟩
  · exact ⟨(· == DO.linear), by rw [hop]; rfl, rfl⟩
  · exact ⟨(· == DO.tile), by rw [hop]; rfl, rfl⟩
  · exact ⟨(· == DO.skew), by rw [hop]; rfl, rfl⟩
  · exact ⟨(· == DO.unskew), by rw [hop]; rfl, rfl⟩

/-! ## Moves (R167) -/

/-- The last bytes written, once the pieces of a destination have been. -/
def lastOf (l : List (Nat × Nat)) (ps : List (Nat × Nat)) : List (Nat × Nat) :=
  ps.foldl (fun l p => lastBytes 256 (joinPiece l p.1 p.2)) l

theorem storePieces_of_writes {n : Nat} {ps : List (Nat × Nat)} {x : List Byte} {s s2 : State} {b : DmaBusy} (hst : b.status = 0)
    (h : GaWrites n b.cmd.upd s (deal ps x) s2) : s.storePieces n b ps x = (s2, { b with last := lastOf b.last ps }) := by
  induction ps generalizing s b x with
  | nil => rw [show s2 = s from h.symm]; rfl
  | cons p ps ih =>
    obtain ⟨hnear, s1, hw, hrest⟩ := h
    have hnext := ih (b := { b with last := lastBytes 256 (joinPiece b.last p.1 p.2) }) hst hrest
    simp only [State.storePieces, hnear, Bool.false_eq_true, if_false, hw]
    rw [if_neg (not_not_intro hst)]
    exact hnext

/-- Moves at home that all succeed leave none over, and nothing of the last bytes lies at a peer. -/
theorem dmaMoveAll_of_steps {n : Nat} {ms : List DMove} {s s2 : State} {b : DmaBusy} {last : List (Nat × Nat)}
    (hst : b.status = 0) (hgot : b.got = []) (h : DmaSteps n b.cmd s b.last ms s2 last) :
    s.dmaMoveAll n b ms = (s2, { b with last := last }, []) ∧ ∀ p ∈ lastBytes 256 last, s2.farGa p.1 = false := by
  induction ms generalizing s b with
  | nil =>
    obtain ⟨rfl, rfl, hfar⟩ := h
    exact ⟨rfl, hfar⟩
  | cons m ms ih =>
    obtain ⟨s1, x, s3, hf, hw, hrest⟩ := h
    obtain ⟨hnext, hfar⟩ := ih (b := { b with last := lastOf b.last m.dst }) hst hgot hrest
    refine ⟨?_, hfar⟩
    rw [State.dmaMoveAll, hgot, hf]
    dsimp only
    rw [storePieces_of_writes hst hw]
    dsimp only
    rw [if_neg (not_not_intro hst)]
    exact hgot ▸ hnext

theorem dmaAsk_nil (s : State) (n : Nat) (b : DmaBusy) : s.dmaAsk n b [] = (s, { b with need := [] }) := rfl

/-- A transfer at home makes its moves and awaits its read-back. -/
theorem dmaMove_of_steps {n : Nat} {c : DmaCmd} {s s2 : State} {last : List (Nat × Nat)}
    (h : DmaSteps n c s [] (s.dmaMoves n c) s2 last) : s.dmaMove n (DmaBusy.fresh c) =
      (s2, { DmaBusy.fresh c with
        moved := true, last := last
        bursts := burstsOf (s.dmaMoves n c) false + burstsOf (s.dmaMoves n c) true }) := by
  obtain ⟨hall, hfar⟩ := dmaMoveAll_of_steps (b := { DmaBusy.fresh c with moved := true }) rfl rfl h
  have hnone : (lastBytes 256 last).filter (fun p => s2.farGa p.1) = [] :=
    List.filter_eq_nil_iff.mpr fun p hp => by simp [hfar p hp]
  have hmoves : s.dmaMoveAll n { DmaBusy.fresh c with moved := true } (s.dmaMoves n (DmaBusy.fresh c).cmd) =
    (s2, { DmaBusy.fresh c with moved := true, last := last }, []) := hall
  simp only [State.dmaMove, hmoves, List.length_nil, Nat.sub_zero, List.take_length, hnone, List.flatMap_nil, dmaAsk_nil]
  rfl

/-! ## The end of a transfer (R167) -/

/-- The status fills the low byte of its word. -/
theorem DmaBusy.bytes_eq (b : DmaBusy) :
    b.bytes = toBytes 8 b.cmd.tag.toNat ++ toBytes 4 (b.status % 256) ++ toBytes 4 b.bursts := by
  have hz : b.status % 256 / 256 = 0 := Nat.div_eq_of_lt (Nat.mod_lt _ (by decide))
  have hb : BitVec.ofNat 8 (b.status % 256) = BitVec.ofNat 8 b.status := BitVec.eq_of_toNat_eq (by simp)
  have hword : toBytes 4 (b.status % 256) = toBytes 1 b.status ++ toBytes 3 0 := by
    simp only [toBytes, hz, hb, Nat.zero_div, List.cons_append, List.nil_append]
  rw [DmaBusy.bytes, hword, List.append_assoc (toBytes 8 _)]

/-- A failed transfer reads nothing back; another one that reads its last bytes keeps its status. -/
theorem dmaReadBack_keeps {s s1 : State} {n : Nat} {b : DmaBusy} {linkFail : Bool}
    (h : b.status ≠ 0 ∧ s1 = s ∨ b.status = 0 ∧ linkFail = false ∧
      s.readBack n ((lastBytes 256 b.last).filter fun p => !s.farGa p.1) = (s1, 0)) :
    s.dmaReadBack n b linkFail = (s1, b) := by
  rcases h with ⟨hst, rfl⟩ | ⟨hst, rfl, hr⟩
  · rw [State.dmaReadBack, if_pos hst]
  · rw [State.dmaReadBack, if_neg (by simp [hst]), hr]
    rfl

theorem dmaComplete_of_done {s s1 : State} {n : Nat} {b : DmaBusy} {linkFail : Bool} (hb : (s.dma n).busy = some b)
    (hasked : b.asked = []) (hneed : b.need = []) (hr : s.dmaReadBack n b linkFail = (s1, b)) :
    s.dmaComplete n linkFail = s1.dmaEnd n b := by
  have hsame : ({ b with need := [] } : DmaBusy) = b := by rw [← hneed]
  have hask : s.dmaAsk n b [] = (s, b) := (dmaAsk_nil s n b).trans (by rw [hsame])
  simp only [State.dmaComplete, hb, hneed, hask, hasked, List.isEmpty_nil, Bool.not_true, Bool.or_self, Bool.false_eq_true,
    if_false, hr]

theorem exec_dmaComplete {s : State} {n : Nat} (linkFail : Bool) (hn : n < 32) (hruns : s.mseRuns = true) :
    exec (.dmaComplete n linkFail) s = .next (keepFixed s (s.dmaComplete n linkFail)) := by
  have hx : exec (.dmaComplete n linkFail) s =
    answer (isDma n) s fun s => if s.mseRuns then s.dmaComplete n linkFail else s := rfl
  rw [hx, answer_next s _ (show isDma n = true from decide_eq_true hn), if_pos hruns]

theorem exec_dmaChtailWrite {s : State} {port n : Nat} (v : Word) (hp : port < 2) (hn : n < 32)
    (hw : s.writable port (Reg.addr .DMA_CHTAIL n 0) = true) :
    exec (.dmaChtailWrite port n v) s = .next (keepFixed s (s.dmaTailWrite n v)) := by
  have hx : exec (.dmaChtailWrite port n v) s = answer (isPort port && isDma n) s fun s =>
    s.bar0Write port .DMA_CHTAIL n 0 fun s => s.dmaTailWrite n v := rfl
  rw [hx, answer_next s _ (by simp [isPort, isDma, hp, hn]), bar0Write_reaches _ hw]

/-- Settles O22: a descriptor taken (`TakesDma.ends`) is rejected, has nothing to do, makes its moves (`dmaMove_of_steps`) or asks
peers first; a transfer with nothing outstanding ends with its record (`dmaComplete_of_done`). -/
theorem dmaTransfers : Obligations.DmaTransfers := by
  unfold Obligations.DmaTransfers
  refine ⟨fun s s1 n i c cmd h hcmd => ?_, fun s port n v hp hn hw => exec_dmaChtailWrite v hp hn hw,
    fun s s1 n b linkFail hn hruns hb hasked hneed hi hr => ?_⟩
  · obtain ⟨ok, hok, hx⟩ := exec_dmaCommand hcmd s
    refine ⟨fun st hc => ?_, fun hc hop => ?_, fun s2 last hc hop hnear hsteps => ?_, fun hc hop => ?_⟩
    · exact h.ends hx hok fun s3 hw => dmaStart_of_rejected hw hc
    · exact h.ends hx hok fun s3 hw => dmaStart_of_nop hw hc hop
    · have hnone : s1.farPieces n c = [] := List.filter_eq_nil_iff.mpr fun p hp => by
        obtain ⟨m, hm, hpm⟩ := List.mem_flatMap.mp hp
        simp [hnear m hm p hpm]
      refine h.ends hx hok fun s3 hw => ?_
      rw [dmaStart_of_accepted hw hc hop, hnone, List.isEmpty_nil, if_pos rfl, dmaMove_of_steps hsteps]
    · intro far hfar
      refine h.ends hx hok fun s3 hw => ?_
      have hsome : (s1.farPieces n c).isEmpty = false := List.isEmpty_eq_false_iff.mpr hfar
      rw [dmaStart_of_accepted hw hc hop, hsome, if_neg Bool.false_ne_true]
      rfl
  · rw [exec_dmaComplete linkFail hn hruns, dmaComplete_of_done hb hasked hneed (dmaReadBack_keeps hr), State.dmaEnd, hi]
    dsimp only
    rw [b.bytes_eq]

end Sys2Proof.Machine

/-! SUPPORT. Packets of the exchange: what a packet that comes in whole does at its target, and at SEQ (R155, R156, R251, R285 to
R306). -/

namespace Sys2Proof.Machine

/-! ## A packet that comes in whole (R251, R259) -/

theorem ArrivesHere.takeIn {s : State} {l : Nat} {p : Packet} {of : Packet → Bool} (h : ArrivesHere s l p) (hof : of p = true)
    (f : State → Packet → State) : s.takeIn l p of f = (f s p).freed l p := by
  have hfree : (List.range 6).any (fun k => (s.mse k).held.contains (l, p)) = false :=
    List.any_eq_false.mpr fun k hk => by simpa using h.free k (List.mem_range.mp hk)
  have hsame : s.restored l p = p := if_pos h.v2
  simp only [State.takeIn, h.runs, hfree, h.fresh, h.up, hof, h.fit, hsame, Bool.not_true, Bool.or_self, Bool.true_or,
    Bool.false_eq_true, if_false]

theorem ArrivesHere.deliver {s : State} {l : Nat} {p : Packet} {of : Packet → Bool} (h : ArrivesHere s l p) (hof : of p = true)
    (f : State → Packet → State) : s.deliver l p of f = (f s p).freed l p := by
  have hmine : s.mine p = true := by simp [State.mine, h.here]
  rw [State.deliver, h.takeIn (by simp [hmine, hof]), if_neg (by simp [h.open_])]

/-- A packet of the type that a command delivers does its work, and its slots leave the buffer. -/
theorem ArrivesHere.ends {cmd : Instr} {s : State} {l : Nat} {p : Packet} {of : Packet → Bool} {f : State → Packet → State}
    (h : ArrivesHere s l p) (hx : exec cmd s = answer (isLink l) s fun s => s.deliver l p of f) (hof : of p = true) :
    Ends cmd s ((f s p).freed l p) := by
  rw [Ends, hx, answer_next s _ (show isLink l = true from decide_eq_true h.link), h.deliver hof]

/-- A collective packet with the argument and the slots of Table 9.5 reaches SEQ, which goes on. -/
theorem ArrivesHere.collective {cmd : Instr} {s : State} {l : Nat} {p : Packet} {ty : BitVec 4} {other : Nat → Bool}
    {arg len : Nat} {f : State → Packet → State} (h : ArrivesHere s l p)
    (hx : exec cmd s = answer (isLink l) s fun s => s.collective l p ty other arg len f) (hty : p.ptype = ty)
    (harg : p.arg = arg) (hlen : p.len.toNat = len) : Ends cmd s ((f s p).pump.freed l p) := by
  have he := h.ends hx (by simp [hty, harg])
  simpa only [harg, hlen, beq_self_eq_true, Bool.and_self, if_true] using he

/-- A message of the class that a command delivers. -/
theorem ArrivesHere.message {cmd : Instr} {s : State} {l : Nat} {p : Packet} {cls : Nat → Bool} {f : State → Packet → State}
    (h : ArrivesHere s l p) (hx : exec cmd s = answer (isLink l) s fun s => s.onMessage l p cls f) (hty : p.ptype = PT.message)
    (hcls : cls p.tag.toNat = true) : Ends cmd s ((f s p).freed l p) :=
  h.ends hx (by simp [hty, hcls])

/-! ## Contributions (R155, R156) -/

/-- A contribution is delivered with what its target does of it. -/
theorem ArrivesHere.contrib {s t : State} {l : Nat} {p : Packet} (h : ArrivesHere s l p) (hty : p.ptype = PT.contrib)
    (ht : s.pktContrib l p = t) : Ends (.pktContrib l p) s (t.freed l p) := by
  rw [← ht]
  exact h.ends (of := fun q => q.ptype == PT.contrib) (f := fun t q => t.pktContrib l q) rfl (by simp [hty])

/-- A die that meets no word in error reads the accumulators as they are. -/
theorem meetRange_clean {r : ARange} (h : r.bad = []) (s : State) (k lo n : Nat) : s.meetRange k r lo n = (s, r) := by
  cases r
  simp_all [State.meetRange]

/-- A contribution to an open range: one of an earlier epoch is counted and dropped, another is added, and SEQ counts the last of a
contributor's part. -/
theorem contribute_of_range {s s1 : State} {l k : Nat} {p : Packet} {r : ARange}
    (h : s.homeFor l (16 * p.addr.toNat) = (s1, some k))
    (hr : (s1.mse k).ranges.find? (fun r => r.holds (16 * p.addr.toNat)) = some r) (hbad : r.bad = []) :
    s.contribute l p = (if p.tag.toNat < r.epoch then s1.count F.MSE_EVENT_STALE 1 k
      else
        let u := s1.feed k r (16 * p.addr.toNat) p.src (wireElems p.x.toNat p.payload) p.pf
        if p.pf then u.seqCount k r.dst else u, .done) := by
  by_cases he : p.tag.toNat < r.epoch
  · simp only [State.contribute, h, hr, if_pos he]
  · simp only [State.contribute, h, hr, if_neg he, meetRange_clean hbad]

theorem contribute_of_noRange {s s1 : State} {l k : Nat} {p : Packet} (h : s.homeFor l (16 * p.addr.toNat) = (s1, some k))
    (hr : ∀ r ∈ (s1.mse k).ranges, r.holds (16 * p.addr.toNat) = false) : s.contribute l p = (s1, .held k) := by
  have hnone : (s1.mse k).ranges.find? (fun r => r.holds (16 * p.addr.toNat)) = none :=
    List.find?_eq_none.mpr fun r hm => by simp [hr r hm]
  simp only [State.contribute, h, hnone]

theorem contribute_of_noHome {s s1 : State} {l : Nat} {p : Packet} (h : s.homeFor l (16 * p.addr.toNat) = (s1, none)) :
    s.contribute l p = (s1, .refused) := by
  simp only [State.contribute, h]

theorem pktContrib_of_done {s u : State} {l : Nat} {p : Packet} (h : s.contribute l p = (u, .done)) :
    s.pktContrib l p = u.pump := by
  simp only [State.pktContrib, h]

theorem pktContrib_of_held {s u : State} {l k : Nat} {p : Packet} (h : s.contribute l p = (u, .held k)) : s.pktContrib l p =
    (u.modLink l fun x => { x with rxBuf := x.rxBuf ++ [p] }).modMse k fun m => { m with held := m.held ++ [(l, p)] } := by
  simp only [State.pktContrib, h]

theorem pktContrib_of_refused {s u : State} {l : Nat} {p : Packet} (h : s.contribute l p = (u, .refused)) :
    s.pktContrib l p = u.refuse l := by
  simp only [State.pktContrib, h]

/-! ## What SEQ of a member does (R287 to R306) -/

section
variable {s : State} {x : Ex} {n : BitVec 16} {step : Word}

theorem cleanFrom_now (tag : Nat) (hx : s.ex = some x) (hp : x.isPeer n = true) (ha : s.ahead step = false)
    (hs : s.inStep = true) (hn : step = BitVec.ofNat 32 s.stepNo) :
    s.cleanFrom n tag step = s.modRange tag (x.stageOf n) (RangeSt.noteClean n) := by
  simp only [State.cleanFrom, hx, hp, ha, hs, ← hn, Bool.not_true, Bool.false_eq_true, if_false, beq_self_eq_true, Bool.and_self,
    if_true]

theorem resendFrom_now (tag ep : Nat) (hx : s.ex = some x) (hp : x.isPeer n = true) (ha : s.ahead step = false)
    (hs : s.inStep = true) (hn : step = BitVec.ofNat 32 s.stepNo) :
    s.resendFrom n tag step ep = s.modBucket tag (Bucket.asked x n ep) := by
  simp only [State.resendFrom, hx, hp, ha, hs, ← hn, Bool.not_true, Bool.false_eq_true, if_false, beq_self_eq_true, Bool.and_self,
    if_true]

theorem cleanFrom_ahead (tag : Nat) (hx : s.ex = some x) (hp : x.isPeer n = true) (ha : s.ahead step = true) :
    s.cleanFrom n tag step = s.modSeq fun q => { q with early := q.early ++ [(step, tag, n)] } := by
  simp only [State.cleanFrom, hx, hp, ha, Bool.not_true, Bool.false_eq_true, if_false, if_true]

/-- What is no peer of the member has no part in its exchange. -/
theorem fromStranger_ignored (tag ep : Nat) (hx : s.ex = some x) (hp : x.isPeer n = false) :
    s.cleanFrom n tag step = s ∧ s.resendFrom n tag step ep = s ∧ s.retractFrom n tag step = s := by
  simp only [State.cleanFrom, State.resendFrom, State.retractFrom, hx, hp, Bool.not_false, Bool.or_true, if_true, and_self]

theorem prog_of_ex (hx : s.ex = some x) : s.seq.prog.isNone = false := by
  cases hp : s.seq.prog with
  | none => simp [State.ex, hp] at hx
  | some p => rfl

/-- An UP is noted, unless it is one of this step for another round. -/
theorem upFrom_noted (v : Verdict) (hx : s.ex = some x)
    (h : step ≠ BitVec.ofNat 32 s.stepNo ∨ v.round = s.seq.round % 65536) : s.upFrom n step v = s.modSeq fun q => { q with
      ups := (step, v.round, n, v) :: q.ups.filter fun u => !(u.1 == step && u.2.1 == v.round && u.2.2.1 == n) } := by
  have hkeep : ¬ (s.seq.prog.isNone || (BitVec.ofNat 32 s.stepNo == step && v.round != s.seq.round % 65536)) = true := by
    rw [prog_of_ex hx]
    rcases h with h | h
    · simp [Ne.symm h]
    · simp [h]
  rw [State.upFrom, if_neg hkeep]

theorem downFrom_released (v : Verdict) (hx : s.ex = some x) (hr : s.isRunning = true) (hu : x.upTo = some n)
    (hn : step = BitVec.ofNat 32 s.stepNo) (hv : v.round = s.seq.round % 65536) (he : s.seq.entered = true)
    (ha : s.seq.applied = false) : s.downFrom n step v = s.releaseDown x v := by
  simp [State.downFrom, hx, hr, hu, hn, hv, he, ha]

theorem retractFrom_late (tag : Nat) (hx : s.ex = some x) (hp : x.isPeer n = true)
    (hs : s.inStep = true ∨ s.seqState = SQ.halted)
    (h : (step ≠ BitVec.ofNat 32 s.stepNo ∧ (BitVec.ofNat 32 s.stepNo - step).toNat < 2 ^ 31) ∨
      (step = BitVec.ofNat 32 s.stepNo ∧ s.seq.hasSealed = true)) :
    s.retractFrom n tag step = s.lateDetection step (if tag = 0xFFFF then none else some tag) := by
  have hin : ¬ (!(s.inStep || s.seqState == SQ.halted) || !x.isPeer n) = true := by
    rcases hs with hs | hs <;> simp [hs, hp]
  simp only [State.retractFrom, hx, if_neg hin, if_pos h]

theorem retractFrom_now (tag : Nat) (hx : s.ex = some x) (hp : x.isPeer n = true) (hs : s.inStep = true)
    (hn : step = BitVec.ofNat 32 s.stepNo) (hu : s.seq.hasSealed = false) : s.retractFrom n tag step =
      (if tag = 0xFFFF then s.seq.buckets.map (·.1) else [tag]).foldl (fun t b => t.retractOne x b n)
        ((s.modSeq fun q => { q with retracts := q.retracts + 1 }).event EV.retract tag) := by
  subst hn
  simp [State.retractFrom, hx, hp, hs, hu]

theorem arriveFrom_noted (hx : s.ex = some x) (hc : (x.p.children x.me.node).contains n = true)
    (hb : s.seq.barArrived.contains n = false) :
    s.arriveFrom n = s.modSeq fun q => { q with barArrived := q.barArrived ++ [n] } := by
  simp only [State.arriveFrom, hx, hc, hb, Bool.not_false, Bool.and_self, if_true]

/-- The RELEASE goes on down the tree, and the run begins. -/
theorem releaseFrom_parent {u : BarUse} (hx : s.ex = some x) (hb : s.seq.barrier = some u) (hr : s.isRunning = true)
    (hs : s.seq.barSent = true) (hp : x.p.parent x.me.node = some n) : s.releaseFrom n =
      ((x.p.children x.me.node).foldl (fun t c => t.send (t.barrierPacket c 2)) s).runBegins x u := by
  simp only [State.releaseFrom, hx, hb, hr, hs, hp, beq_self_eq_true, Bool.and_self, if_true]

end

/-! ## The obligation -/

/-- Settles O28: each packet is delivered (`ArrivesHere.ends`, `.collective`, `.message`, `.contrib`), and at a member SEQ does with
it what its lemma says. -/
theorem packetsOfAnExchange : Obligations.PacketsOfAnExchange := by
  unfold Obligations.PacketsOfAnExchange
  intro s l p h
  refine ⟨fun s1 k r ht hh hr hb => h.contrib ht (pktContrib_of_done (contribute_of_range hh hr hb)),
    fun s1 k ht hh hr => h.contrib ht (pktContrib_of_held (contribute_of_noRange hh hr)),
    fun s1 ht hh => h.contrib ht (pktContrib_of_refused (contribute_of_noHome hh)),
    fun ht ha hl => ?_, fun ht ha hl => ?_, fun ht ha hl => ?_, fun ht h1 h3 hl => ?_, fun ht ha hl => ?_, fun ht ha hl => ?_,
    fun ht ha hl => ?_, fun ht hc => ?_, fun ht hc => ?_, fun ht hc => ?_, fun x hx => ?_, fun ht hc hs => ?_,
    fun ht h1 h2 => ?_⟩
  · exact h.collective (f := fun t q => t.cleanFrom q.src q.tag.toNat q.step) rfl ht ha (congrArg BitVec.toNat hl)
  · exact h.collective (f := fun t q => t.upFrom q.src q.step (Verdict.ofBytes q.payload)) rfl ht ha (congrArg BitVec.toNat hl)
  · exact h.collective (f := fun t q => t.downFrom q.src q.step (Verdict.ofBytes q.payload)) rfl ht ha (congrArg BitVec.toNat hl)
  · have he := h.ends (cmd := .pktRetract l p) (of := fun q => q.ptype == PT.retract) rfl (by simp [ht])
    simpa only [if_pos (And.intro h1 (And.intro h3 hl))] using he
  · exact h.collective (f := fun t q => t.resendFrom q.src q.tag.toNat q.step (ofBytes (q.payload.take 2))) rfl ht ha
      (congrArg BitVec.toNat hl)
  · exact h.collective (f := fun t q => t.arriveFrom q.src) rfl ht ha (congrArg BitVec.toNat hl)
  · exact h.collective (f := fun t q => t.releaseFrom q.src) rfl ht ha (congrArg BitVec.toNat hl)
  · exact h.message (cls := (· == msgGathered)) (f := fun t q => (t.gatheredFrom q.src q.addr.toNat).pump) rfl ht (by simp [hc])
  · exact h.message (cls := (· == msgReplaying)) (f := fun t q => (t.replayingFrom q.src (BitVec.ofNat 16 q.addr.toNat)).pump) rfl
      ht (by simp [hc])
  · exact h.message (cls := (· == msgHaltstep)) (f := fun t q => t.haltstepFrom q.src (q.addr.toNat % 2 ^ 24)) rfl ht
      (by simp [hc])
  · refine ⟨fun hp ha hs hn => ⟨cleanFrom_now _ hx hp ha hs hn, resendFrom_now _ _ hx hp ha hs hn⟩,
      fun hp ha => cleanFrom_ahead _ hx hp ha, fun hp => fromStranger_ignored _ _ hx hp, fun v hv => upFrom_noted v hx hv,
      fun v hr hu hn hv he ha => downFrom_released v hx hr hu hn hv he ha, fun hp hs hl => retractFrom_late _ hx hp hs hl,
      fun hp hs hn hu => retractFrom_now _ hx hp hs hn hu, fun hc hb => arriveFrom_noted hx hc hb,
      fun u hb hr hs hp => releaseFrom_parent hx hb hr hs hp⟩
  · have he := h.message (cmd := .linkStateNotice l p) (cls := (· == 0x8000)) rfl ht (by simp [hc])
    simpa only [if_pos hs] using he
  · have he := h.message (cmd := .ndomirMessage l p) (cls := fun c => c == 0 || (decide (3 < c) && c != 0x8000)) rfl ht
      (by simp; omega)
    simpa only [if_pos (And.intro h1 h2)] using he

end Sys2Proof.Machine

/-! SUPPORT. The canonical form of the memories (R187, R221; log entry 6): every operation of the model keeps it. One lemma per
operation, in the order of the model's files, each by the operations that it is made of; then every command, and the step. -/

namespace Sys2Proof.Machine

/-! ## Answers, pairs, options and folds -/

/-- A next state that a command answers has its memories in canonical form. -/
def KeepsForm (o : Host.Outcome State Fault Refusal) : Prop := ∀ t, o = .next t → Memory.wf t

theorem KeepsForm.wf {o : Host.Outcome State Fault Refusal} (h : KeepsForm o) {t : State} (e : o = .next t) : Memory.wf t :=
  h t e

theorem answer_wf {ok : Bool} {s : State} {f : State → State} (h : Memory.wf s) (hf : ∀ s, Memory.wf s → Memory.wf (f s)) :
    KeepsForm (answer ok s f) := by
  intro t e
  obtain ⟨-, rfl⟩ := answer_cases e
  exact hf s h

theorem answerTap_wf {s : State} {f : State → State} (h : Memory.wf s) (hf : ∀ s, Memory.wf s → Memory.wf (f s)) :
    KeepsForm (answerTap s f) := by
  intro t e
  obtain rfl := answerTap_cases e
  exact hf s h

theorem wf_fst {α : Type} {p : State × α} {t : State} {a : α} (e : p = (t, a)) (h : Memory.wf p.1) : Memory.wf t := by
  rwa [e] at h

theorem foldl_fst_wf {α β : Type} (l : List α) (f : State × β → α → State × β) {p : State × β} (h : Memory.wf p.1)
    (hf : ∀ p x, Memory.wf p.1 → Memory.wf (f p x).1) : Memory.wf (l.foldl f p).1 := by
  induction l generalizing p with
  | nil => exact h
  | cons x r ih => exact ih (hf p x h)

theorem none_wf : ∀ t ∈ (none : Option State), Memory.wf t := by simp

theorem none_fst_wf {α : Type} : ∀ r ∈ (none : Option (State × α)), Memory.wf r.1 := by simp

theorem some_wf {s : State} (h : Memory.wf s) : ∀ t ∈ some s, Memory.wf t := by simpa using h

theorem some_fst_wf {α : Type} {p : State × α} (h : Memory.wf p.1) : ∀ r ∈ some p, Memory.wf r.1 := by simpa using h

theorem ite_fst_wf {α : Type} {c : Prop} [Decidable c] {p q : State × α} (hp : Memory.wf p.1) (hq : Memory.wf q.1) :
    Memory.wf (if c then p else q).1 := by
  split
  · exact hp
  · exact hq

theorem eachBucket_wf {s : State} {f : State → Nat → State} (h : Memory.wf s) (hf : ∀ s x, Memory.wf s → Memory.wf (f s x)) :
    Memory.wf (s.eachBucket f) := foldl_wf _ _ h hf

theorem findSome_wf {α : Type} (l : List α) (f : α → Option State) (hf : ∀ x, ∀ t ∈ f x, Memory.wf t) :
    ∀ t ∈ l.findSome? f, Memory.wf t := by
  intro t ht
  obtain ⟨x, -, hx⟩ := List.exists_of_findSome?_eq_some ht
  exact hf x t hx

/-! A definition whose callee counts over a ring or over the read ids has no equation that Lean's kernel can check: comparing the two
sides runs the callee. Below, such a definition is unfolded as a function, and the callee made a variable first; where it
recurses, the induction is one of these two. -/

theorem natRec_wf {F : (n : Nat) → Nat.below (motive := fun _ => State → State) n → State → State}
    (hzero : ∀ b s, Memory.wf s → Memory.wf (F 0 b s))
    (hsucc : ∀ n b s, (∀ t, Memory.wf t → Memory.wf (b.1 t)) → Memory.wf s → Memory.wf (F (n + 1) b s))
    (n : Nat) {s : State} (h : Memory.wf s) :
    Memory.wf (Nat.brecOn (motive := fun _ => State → State) n F s) := by
  induction n generalizing s with
  | zero => exact hzero _ _ h
  | succ n ih => exact hsucc n _ s (fun _ ht => ih ht) h

theorem listRec_wf {α β : Type}
    {F : (l : List α) → List.below (motive := fun _ => State → β → State × β) l → State → β → State × β}
    (hnil : ∀ b s y, Memory.wf s → Memory.wf (F [] b s y).1)
    (hcons : ∀ a l b s y, (∀ t z, Memory.wf t → Memory.wf (b.1 t z).1) → Memory.wf s → Memory.wf (F (a :: l) b s y).1)
    (l : List α) {s : State} {y : β} (h : Memory.wf s) :
    Memory.wf (List.brecOn (motive := fun _ => State → β → State × β) l F s y).1 := by
  induction l generalizing s y with
  | nil => exact hnil _ _ _ h
  | cons a l ih => exact hcons a l _ s y (fun _ _ ht => ih ht) h

theorem modHbm_bytes_wf {s : State} {f : Hbm → Hbm} (h : Memory.wf s)
    (hf : ∀ x, Sparse.wf (0 : Byte) x.bytes → Sparse.wf (0 : Byte) (f x).bytes) : Memory.wf (s.modHbm f) := by
  obtain ⟨hb, hl, hh⟩ := (Memory.wf_iff s).mp h
  exact (Memory.wf_iff _).mpr ⟨hf _ hb, hl, hh⟩

theorem copyInto_bytes_wf {x : Hbm} {blk dst : Nat} (h : Sparse.wf (0 : Byte) x.bytes) :
    Sparse.wf (0 : Byte) (x.copyInto blk dst).bytes := by
  have hold : Sparse.wf (0 : Byte) (x.bytes.filter fun e => e.1 / 4096 != dst) := by
    obtain ⟨hr, ha⟩ := Bool.and_eq_true_iff.mp h
    refine Bool.and_eq_true_iff.mpr ⟨Sparse.rising_filter _ hr, List.all_eq_true.mpr fun e he => ?_⟩
    exact List.all_eq_true.mp ha e (List.mem_filter.mp he).1
  exact List.foldlRecOn (motive := fun m => Sparse.wf (0 : Byte) m = true) _ _ hold fun _ hm _ _ => Sparse.wf_set 0 hm _ _

section

variable {b c g i id j k l n opc p port q r slot st status va : Nat} {step v : Word} {s : State} {w : IFields} {x : Ex}
  {md : Medium} {e : Eng} {src : CmdSrc} {f : State → State} {fail : Bool} {node : BitVec 16}

/-! ## Sys2Proof/Machine/Ops.lean -/

theorem modMse_wf {f : Mse → Mse} (h : Memory.wf s) : Memory.wf (s.modMse k f) := (Memory.wf_congr rfl rfl rfl).trans h

theorem modDma_wf {f : Dma → Dma} (h : Memory.wf s) : Memory.wf (s.modDma n f) := (Memory.wf_congr rfl rfl rfl).trans h

theorem setGroup_wf {x : Group} (h : Memory.wf s) : Memory.wf (s.setGroup c g x) := (modCore_wf ..).trans h

theorem modGroup_wf {f : Group → Group} (h : Memory.wf s) : Memory.wf (s.modGroup c g f) := by
  unfold State.modGroup
  split
  · exact h
  · exact setGroup_wf h

theorem modEng_wf {f : Engine → Engine} (h : Memory.wf s) : Memory.wf (s.modEng c e f) := (modCore_wf ..).trans h

theorem loadTimers_wf (h : Memory.wf s) : Memory.wf s.loadTimers := (Memory.wf_congr rfl rfl rfl).trans h

theorem resetBlocks_wf {bs : List BlockId} (h : Memory.wf s) : Memory.wf (s.resetBlocks bs) :=
  (Memory.wf_congr rfl rfl rfl).trans h

/-! ## Sys2Proof/Machine/Net.lean -/

theorem sendData_wf {f : DataFlit} (h : Memory.wf s) : Memory.wf (s.sendData l f) := (State.sendFlit_kept ..).wf h

theorem owes_wf {p : Packet} (h : Memory.wf s) : Memory.wf (s.owes l p) :=
  (State.returns_kept ..).wf ((State.modLink_kept ..).wf h)

theorem unbuffer_wf {p : Packet} (h : Memory.wf s) : Memory.wf (s.unbuffer l p) := owes_wf ((State.modLink_kept ..).wf h)

theorem refuse_wf (h : Memory.wf s) : Memory.wf (s.refuse l) := (State.count_kept ..).wf h

/-! ## Sys2Proof/Machine/Flags.lean -/

theorem snapshotFlags_wf (h : Memory.wf s) : Memory.wf (s.snapshotFlags).2 := by
  unfold State.snapshotFlags
  extract_lets +onlyGivenNames f clear s11
  have hs11 : Memory.wf s11 :=
    ite_wf (foldl_wf _ _ (foldl_wf _ _ h (fun _ _ h3 => (setReg_wf ..).trans h3)) (fun _ _ h2 => (setReg_wf ..).trans h2)) h
  exact hs11

/-! ## Sys2Proof/Machine/Records.lean -/

theorem onDie_wf {loc : Loc} {work : State} (h : Memory.wf s) (hwork : Memory.wf work) : Memory.wf (s.onDie loc work) := by
  unfold State.onDie
  split
  · exact (State.fatal_kept ..).wf ((modSaf_wf ..).trans h)
  · exact hwork

/-! ## Sys2Proof/Machine/Groups.lean -/

theorem trap_wf {cause addr : Nat} {partly : Bool} (h : Memory.wf s) : Memory.wf (s.trap c g cause opc addr partly) := by
  unfold State.trap
  extract_lets +onlyGivenNames s1
  have h1 : Memory.wf s1 := modGroup_wf h
  exact (reportTrap_kept ..).wf ((State.drawn_kept ..).wf ((State.record_kept ..).wf h1))

theorem settleMarks_wf (h : Memory.wf s) : Memory.wf (State.settleMarks k s c) := by
  induction k generalizing s with
  | zero => exact h
  | succ k ih =>
    unfold State.settleMarks
    extract_lets items
    split
    · exact h
    · exact ih (itemStatus_wf ((modCore_wf ..).trans h) ..)

theorem itemDone_wf {i : Item} (h : Memory.wf s) : Memory.wf (s.itemDone c i status) := by
  unfold State.itemDone
  extract_lets +onlyGivenNames n
  exact settleMarks_wf (itemStatus_wf ((modCore_wf ..).trans h) _ _ _)

theorem checkItem_wf (h : Memory.wf s) : Memory.wf (s.checkItem c id) := by
  unfold State.checkItem
  split
  · exact h
  · split
    · exact h
    · exact itemDone_wf h

theorem modItem_wf {f : Item → Item} (h : Memory.wf s) : Memory.wf (s.modItem c id f) := (modCore_wf ..).trans h

theorem modBlock_wf {f : Block → Block} (h : Memory.wf s) : Memory.wf (s.modBlock c id f) := (modCore_wf ..).trans h

theorem freeGroup_wf (h : Memory.wf s) : Memory.wf (s.freeGroup c g) := by
  unfold State.freeGroup
  split
  · exact h
  · extract_lets +onlyGivenNames s1 s2
    have h1 : Memory.wf s1 := (modCore_wf ..).trans h
    have h2 : Memory.wf s2 := modBlock_wf h1
    split
    · exact h2
    · split
      · extract_lets +onlyGivenNames s3
        have h3 : Memory.wf s3 := (modCore_wf ..).trans h2
        exact checkItem_wf (modItem_wf h3)
      · exact h2

theorem checkExit_wf (h : Memory.wf s) : Memory.wf (s.checkExit c g) := by
  unfold State.checkExit
  split
  · exact h
  · split
    · exact freeGroup_wf h
    · exact h

theorem completeBarrier_wf {b : Block} (h : Memory.wf s) : Memory.wf (s.completeBarrier c b n) := by
  unfold State.completeBarrier
  extract_lets +onlyGivenNames s1
  have h1 : Memory.wf s1 := modBlock_wf h
  exact foldl_wf _ _ h1 (fun _ _ h2 => modGroup_wf h2)

theorem settleBarriers_wf (h : Memory.wf s) : Memory.wf (State.settleBarriers k s c id) := by
  induction k generalizing s with
  | zero => exact h
  | succ k ih =>
    unfold State.settleBarriers
    split
    · exact h
    · extract_lets live
      split
      · exact h
      · exact ih (completeBarrier_wf h)

theorem trapWaiters_wf {b : Block} (h : Memory.wf s) : Memory.wf (s.trapWaiters c b) :=
  foldl_wf _ _ h (fun _ _ h1 => by
    split
    · split
      · exact trap_wf h1
      · exact h1
    · exact h1)

theorem barriers_wf (h : Memory.wf s) : Memory.wf (s.barriers c id) := by
  unfold State.barriers
  extract_lets +onlyGivenNames s1
  have h1 : Memory.wf s1 := settleBarriers_wf h
  split
  · exact h1
  · split
    · exact trapWaiters_wf h1
    · exact h1

theorem arrive_wf {m : BitVec 64} (h : Memory.wf s) : Memory.wf (s.arrive c g n m) := by
  unfold State.arrive
  split
  · exact h
  · exact modBlock_wf h

theorem pathEnds_wf (h : Memory.wf s) : Memory.wf (s.pathEnds c g) := by
  unfold State.pathEnds
  split
  · split
    · exact barriers_wf h
    · exact h
  · exact h

theorem goTo_wf {pc : BitVec 48} (h : Memory.wf s) : Memory.wf (s.goTo c g pc) := pathEnds_wf (modGroup_wf h)

theorem advance_wf (h : Memory.wf s) : Memory.wf (s.advance c g) := by
  unfold State.advance
  split
  · exact h
  · exact goTo_wf h

theorem kill_wf (h : Memory.wf s) : Memory.wf (s.kill c g) := by
  unfold State.kill
  split
  · exact h
  · extract_lets +onlyGivenNames all y s1 s2
    have h1 : Memory.wf s1 := setGroup_wf h
    have h2 : Memory.wf s2 := by
      unfold s2
      split
      · exact modItem_wf h1
      · exact h1
    exact barriers_wf (checkExit_wf h2)

/-! ## Sys2Proof/Machine/Contain.lean -/

theorem setCoreSlot_wf {sl : Nat} (h : Memory.wf s) : Memory.wf (s.setCoreSlot c sl) := (setFld_wf ..).trans h

theorem setSpare_wf {p : Option Nat} (h : Memory.wf s) : Memory.wf (s.setSpare q p) := (setFld_wf ..).trans h

theorem setAvail_wf {v : Bool} (h : Memory.wf s) : Memory.wf (s.setAvail c v) := (setFld_wf ..).trans h

theorem setRetired_wf (h : Memory.wf s) : Memory.wf (s.setRetired p) := (setFld_wf ..).trans h

theorem setIft_wf (h : Memory.wf s) : Memory.wf (s.setIft st p) :=
  (setFld_wf ..).trans ((setFld_wf ..).trans ((setFld_wf ..).trans h))

theorem beginTest_wf (h : Memory.wf s) : Memory.wf (s.beginTest st p) := setIft_wf ((modSlot_wf ..).trans h)

theorem holdAndTest_wf (h : Memory.wf s) : Memory.wf (s.holdAndTest c p) := by
  unfold State.holdAndTest
  extract_lets +onlyGivenNames s1 s2
  have h1 : Memory.wf s1 := (modCore_wf ..).trans h
  have h2 : Memory.wf s2 := (modSaf_wf ..).trans h1
  exact beginTest_wf ((modSlot_wf ..).trans h2)

theorem boundaryTest_wf (h : Memory.wf s) : Memory.wf s.boundaryTest := by
  unfold State.boundaryTest
  split
  · split
    · split
      · exact setIft_wf ((modSaf_wf ..).trans h)
      · split
        · exact holdAndTest_wf h
        · exact (modSaf_wf ..).trans h
    · exact setIft_wf ((modSaf_wf ..).trans h)
  · exact h

theorem coreFault_wf {r : Rec} (h : Memory.wf s) : Memory.wf (s.coreFault c r) := by
  unfold State.coreFault
  extract_lets +onlyGivenNames n
  exact coreError_wf ((State.record_kept ..).wf h) _ _

theorem failItem_wf (h : Memory.wf s) : Memory.wf (s.failItem c id) := by
  unfold State.failItem
  extract_lets +onlyGivenNames s1 gs
  have h1 : Memory.wf s1 := modItem_wf h
  exact foldl_wf _ _ h1 (fun _ _ h2 => by
    split
    · split
      · exact h2
      · exact kill_wf h2
    · exact h2)

theorem meetLane_wf {hdr : Nat → Nat} {b : BadLane} (h : Memory.wf s) : Memory.wf (s.meetLane c opc hdr b l).1 := by
  unfold State.meetLane
  extract_lets +onlyGivenNames p t1
  have ht1 : Memory.wf t1 := (modSaf_wf ..).trans h
  split
  · exact (State.record_kept ..).wf ht1
  · split
    · exact cellarChanged_wf ((modSlot_wf ..).trans ((State.record_kept ..).wf ht1))
    · exact coreFault_wf h

theorem checkLanes_wf {hdr : Nat → Nat} {lanes : List Nat} (h : Memory.wf s) :
    Memory.wf (s.checkLanes c opc hdr lanes).1 := by
  unfold State.checkLanes
  split
  · exact h
  · extract_lets +onlyGivenNames pipe
    split
    · exact (State.drawn_kept ..).wf h
    · extract_lets +onlyGivenNames y
      have hy : Memory.wf y.1 := meetLane_wf ((State.drawn_kept ..).wf h)
      split
      · exact hy
      · exact coreFault_wf hy

theorem engineFail_wf (h : Memory.wf s) : Memory.wf (s.engineFail c e) := by
  unfold State.engineFail
  extract_lets +onlyGivenNames gs s1
  have h1 : Memory.wf s1 := modEng_wf h
  exact foldl_wf _ _ h1 (fun _ _ h2 => failItem_wf h2)

/-! ## Sys2Proof/Machine/Rings.lean -/

theorem ringPop_wf {r : RingRegs} (h : Memory.wf s) : Memory.wf (s.ringPop r i j) := (setReg_wf ..).trans h

theorem ringRead_wf {r : RingRegs} {agent : Nat} (h : Memory.wf s) : Memory.wf (s.ringRead r i j agent).1 :=
  (State.readWords_tended ..).wf h

theorem ringResume_wf {r : RingRegs} (h : Memory.wf s) : Memory.wf (s.ringResume r i j) := by
  unfold State.ringResume
  split
  · exact modMse_wf h
  · exact modDma_wf h
  · split
    · exact h
    · exact (modCore_wf ..).trans h

theorem setTail_wf {r : RingRegs} {t : Nat} (h : Memory.wf s) : Memory.wf (s.setTail r i j t) :=
  ringResume_wf ((setReg_wf ..).trans h)

theorem ringPush_wf {r : RingRegs} {agent : Nat} {upd : Bool} {words : List DWord} (h : Memory.wf s) :
    Memory.wf (s.ringPush r i j agent upd words).1 := by
  unfold State.ringPush
  split
  · next e1 => exact wf_fst e1 (write_wf h _ _ _ _)
  · next e2 => exact setTail_wf (wf_fst e2 (write_wf h _ _ _ _))

theorem ringTailWrite_wf {r : RingRegs} {strict : Bool} (h : Memory.wf s) : Memory.wf (s.ringTailWrite r i j v strict) := by
  unfold State.ringTailWrite
  extract_lets +onlyGivenNames t
  split
  · exact h
  · exact setTail_wf h

/-! ## Sys2Proof/Machine/Operands.lean -/

theorem cacheCode_wf {pc : Nat} {v : DWord} (h : Memory.wf s) : Memory.wf (s.cacheCode c pc v) := by
  unfold State.cacheCode
  extract_lets +onlyGivenNames full s11
  have hs11 : Memory.wf s11 := (modCore_wf ..).trans h
  split
  · exact (State.drawn_kept ..).wf hs11
  · exact hs11

theorem fetchHbm_wf {pc : Nat} (h : Memory.wf s) : Memory.wf (s.fetchHbm c pc).1 := by
  unfold State.fetchHbm
  split
  · exact logFault_wf h _ _ _
  · split
    · exact h
    · split
      · next e1 => exact wf_fst e1 (read_wf h _ _ _)
      · next e2 => exact wf_fst e2 (read_wf h _ _ _)
      · next e3 => exact cacheCode_wf (wf_fst e3 (read_wf h _ _ _))

theorem cacheRead_wf {pc : Nat} {v : DWord} (h : Memory.wf s) : Memory.wf (s.cacheRead c pc v).1 := by
  unfold State.cacheRead
  extract_lets +onlyGivenNames y
  have hy : Memory.wf y.1 := (State.meetWords_tended ..).wf h
  exact hy

theorem fetchWord_wf {pc : Nat} (h : Memory.wf s) : Memory.wf (s.fetchWord c pc).1 := by
  unfold State.fetchWord
  split
  · exact fetchHbm_wf h
  · split
    · exact cacheRead_wf h
    · split
      · exact cacheRead_wf ((State.drawn_kept ..).wf h)
      · exact fetchHbm_wf ((State.drawn_kept ..).wf h)

theorem fetch_wf {pc : BitVec 48} {word : DWord} (h : Memory.wf s) : Memory.wf (s.fetch c pc word).1 := by
  unfold State.fetch
  split
  · next e1 => exact wf_fst e1 (fetchWord_wf h)
  · next e2 =>
      split
      · exact wf_fst e2 (fetchWord_wf h)
      · split
        · exact h
        · exact wf_fst e2 (fetchWord_wf h)

theorem readRegs_wf {f : Form} {x : Group} {body : State → Group → State} (h : Memory.wf s)
    (hbody : ∀ s x, Memory.wf s → Memory.wf (body s x)) : Memory.wf (s.readRegs c g opc w f x body) := by
  unfold State.readRegs
  extract_lets +onlyGivenNames y
  have hy : Memory.wf y.1 := (State.meetWords_tended ..).wf h
  split
  · exact hy
  · split
    · exact hbody _ _ hy
    · exact trap_wf hy

theorem takeSlot_wf {rs : List Stream} {st : Stream} (h : Memory.wf s) : Memory.wf (s.takeSlot c g opc rs st) :=
  (modCore_wf ..).trans h

theorem grant_wf {x : Group} (h : Memory.wf s) : ∀ t ∈ s.grant c g opc x, Memory.wf t := by
  unfold State.grant
  extract_lets +onlyGivenNames rv rs first second t1
  have ht1 : Memory.wf t1 := takeSlot_wf h
  split
  · exact some_wf ht1
  · split
    · exact some_wf ((State.drawn_kept ..).wf ht1)
    · exact none_wf

theorem issue_wf {f : Form} {body : State → Group → State} (h : Memory.wf s)
    (hbody : ∀ s x, Memory.wf s → Memory.wf (body s x)) : Memory.wf (s.issue c g opc w f body) := by
  unfold State.issue
  split
  · exact h
  · split
    · exact h
    · split
      · exact modGroup_wf h
      · split
        · exact trap_wf h
        · split
          · exact trap_wf h
          · split
            · exact h
            · next e1 =>
                split
                · exact h
                · next e3 =>
                    split
                    · exact wf_fst e3 (fetch_wf ((grant_wf h) _ e1))
                    · exact trap_wf (wf_fst e3 (fetch_wf ((grant_wf h) _ e1)))
                · next e4 =>
                    split
                    · exact wf_fst e4 (fetch_wf ((grant_wf h) _ e1))
                    · split
                      · exact readRegs_wf (wf_fst e4 (fetch_wf ((grant_wf h) _ e1))) (fun _ _ h5 => hbody _ _ h5)
                      · exact trap_wf (wf_fst e4 (fetch_wf ((grant_wf h) _ e1)))

theorem perLane_wf {f : Form} {op : State → Group → Nat → LaneRes} {after : State → State} (h : Memory.wf s)
    (hafter : ∀ s, Memory.wf s → Memory.wf (after s)) : Memory.wf (s.perLane c g opc w f op after) :=
  issue_wf h (fun _ _ h1 => by
    extract_lets +onlyGivenNames y
    have hy : Memory.wf y.1 := checkLanes_wf h1
    split
    · extract_lets +onlyGivenNames r
      exact advance_wf ((State.raiseVec_kept ..).wf (setGroup_wf (hafter _ hy)))
    · exact hy)

theorem perLanePred_wf {f : Form} {op : Group → Nat → Bool × Flags} (h : Memory.wf s) :
    Memory.wf (s.perLanePred c g opc w f op) :=
  issue_wf h (fun _ _ h1 => by
    extract_lets +onlyGivenNames y
    have hy : Memory.wf y.1 := checkLanes_wf h1
    split
    · extract_lets +onlyGivenNames r
      exact advance_wf ((State.raiseVec_kept ..).wf (setGroup_wf hy))
    · exact hy)

/-! ## Sys2Proof/Machine/ThreadMem.lean -/

theorem freezeItem_wf {x : Group} (h : Memory.wf s) : Memory.wf (s.freezeItem c x) := by
  unfold State.freezeItem
  split
  · exact h
  · exact modItem_wf h

theorem readSpans_wf {x : Group} {spans : List (Nat × Nat)} {next : State → State} (h : Memory.wf s)
    (hnext : ∀ s, Memory.wf s → Memory.wf (next s)) : Memory.wf (s.readSpans c g opc x spans next) := by
  unfold State.readSpans
  extract_lets +onlyGivenNames y
  have hy : Memory.wf y.1 := (State.meetWords_tended ..).wf h
  split
  · exact hy
  · split
    · exact hnext _ hy
    · exact trap_wf hy

theorem execLrd_wf (h : Memory.wf s) : KeepsForm (execLrd c g w s) :=
  answer_wf h (fun _ h1 => by
    extract_lets +onlyGivenNames wide n
    exact issue_wf h1 (fun _ _ h2 => by
      extract_lets +onlyGivenNames lanes
      split
      · exact trap_wf h2
      · exact readSpans_wf h2 (fun _ h3 => by
          extract_lets +onlyGivenNames y
          exact advance_wf (setGroup_wf h3))))

theorem storeLanes_wf {f : State → Nat → State × Option Nat} {lanes : List Nat} (h : Memory.wf s)
    (hf : ∀ s x, Memory.wf s → Memory.wf (f s x).1) : Memory.wf (s.storeLanes f lanes n).1 := by
  induction lanes generalizing s n with
  | nil => exact h
  | cons l r ih =>
    unfold State.storeLanes
    split
    · next e1 => exact wf_fst e1 (hf _ _ h)
    · next e2 => exact ih (wf_fst e2 (hf _ _ h))

theorem storeEnd_wf {x : Group} {r : State × Nat × Option Nat} (h : Memory.wf r.1) :
    Memory.wf (State.storeEnd c g opc x r) := by
  unfold State.storeEnd
  split
  · exact trap_wf h
  · exact advance_wf h

theorem execLwr_wf (h : Memory.wf s) : KeepsForm (execLwr c g w s) :=
  answer_wf h (fun _ h1 => by
    extract_lets +onlyGivenNames wide n
    exact issue_wf h1 (fun _ _ h2 => storeEnd_wf (storeLanes_wf h2 (fun _ _ h3 => by
      split
      · exact h3
      · exact setLocalBytes_wf h3 _ _ _))))

theorem startRead_wf {node slots waiter : Nat} {pin : Option Route} {pinned : Bool} {flow : Nat} (h : Memory.wf s) :
    ∀ r ∈ s.startRead node va slots waiter pin pinned flow, Memory.wf r.1 := by
  unfold State.startRead
  split
  · exact none_fst_wf
  · extract_lets +onlyGivenNames s1 was p
    have h1 : Memory.wf s1 := (State.modNet_kept ..).wf h
    exact some_fst_wf ((State.inject_kept ..).wf h1)

theorem loadLane_wf (h : Memory.wf s) : Memory.wf (s.loadLane c va n).1 := by
  unfold State.loadLane
  split
  · split
    · extract_lets +onlyGivenNames r
      have hr : Memory.wf r.1 := (State.readWalk_tended ..).wf h
      split
      · exact hr
      · exact logFault_wf hr _ _ _
    · extract_lets +onlyGivenNames r
      have hr : Memory.wf r.1 := (State.readWalk_tended ..).wf h
      split
      · split
        · exact hr
        · exact hold_wf hr _ _
      · exact hr
  · split
    · next e1 => exact wf_fst e1 (read_wf h _ _ _)
    · next e2 => exact wf_fst e2 (read_wf h _ _ _)

theorem loadOwn_wf {own : List (Nat × Nat)} {got : List (Nat × DWord)} (h : Memory.wf s) :
    Memory.wf (s.loadOwn c n own got).1 := by
  induction own generalizing s got with
  | nil => exact h
  | cons e r ih =>
    unfold State.loadOwn
    split
    · next e1 => exact wf_fst e1 (loadLane_wf h)
    · next e2 => exact ih (wf_fst e2 (loadLane_wf h))

theorem loadPeers_wf {peers ids : List (Nat × Nat)} (h : Memory.wf s) : Memory.wf (s.loadPeers c g peers ids).1 := by
  have hdef := Eq.refl State.loadPeers
  conv_rhs at hdef => delta State.loadPeers State.loadPeers._f
  have hread := @startRead_wf
  obtain ⟨read, e⟩ : ∃ f, f = State.startRead := ⟨_, rfl⟩
  rw [← e] at hdef hread
  rw [hdef]
  refine listRec_wf (F := _) ?_ ?_ peers h
  · exact fun _ _ _ h => h
  · intro p r b s ids ih h
    dsimp only
    split
    · exact h
    · next e1 => exact ih _ _ (hread h _ e1)

theorem load_wf {mods : Nat} (h : Memory.wf s) : Memory.wf (s.load c g opc w mods) := by
  unfold State.load
  extract_lets +onlyGivenNames wide n
  exact issue_wf h (fun _ _ h1 => by
    extract_lets +onlyGivenNames lanes own peers
    split
    · exact trap_wf h1
    · split
      · exact advance_wf h1
      · split
        · exact h1
        · split
          · next e2 => exact trap_wf (wf_fst e2 (loadOwn_wf h1))
          · next e3 =>
              extract_lets +onlyGivenNames r
              have hr : Memory.wf r.1 := loadPeers_wf (wf_fst e3 (loadOwn_wf h1))
              exact modGroup_wf hr)

theorem execLd_wf (h : Memory.wf s) : KeepsForm (execLd c g w s) := answer_wf h (fun _ h1 => load_wf h1)

theorem execLdAcq_wf (h : Memory.wf s) : KeepsForm (execLdAcq c g w s) := answer_wf h (fun _ h1 => load_wf h1)

theorem execLoadComplete_wf (h : Memory.wf s) : KeepsForm (execLoadComplete c g fail s) :=
  answer_wf h (fun _ h1 => by
    split
    · exact h1
    · split
      · split
        · exact h1
        · split
          · exact trap_wf ((State.readFailed_kept ..).wf h1)
          · extract_lets +onlyGivenNames y
            exact advance_wf (setGroup_wf h1)
      · exact h1)

theorem readBacks_wf {x : Group} {owed : List (Nat × DWord)} {ids : List (Nat × Nat)} (h : Memory.wf s) :
    Memory.wf (s.readBacks c g x owed ids).1 := by
  have hdef := Eq.refl State.readBacks
  conv_rhs at hdef => delta State.readBacks State.readBacks._f
  have hread := @startRead_wf
  obtain ⟨read, e⟩ : ∃ f, f = State.startRead := ⟨_, rfl⟩
  rw [← e] at hdef hread
  rw [hdef]
  apply listRec_wf (h := h)
  · exact fun _ _ _ h => h
  · intro p r b s ids ih h
    dsimp only
    split
    · exact h
    · next e1 => exact ih _ _ (hread h _ e1)

theorem release_wf {x : Group} {m : BitVec 64} {adv : Bool} {next : State → State} (h : Memory.wf s)
    (hnext : ∀ s, Memory.wf s → Memory.wf (next s)) : Memory.wf (s.release c g opc x m adv next) := by
  unfold State.release
  extract_lets +onlyGivenNames owed
  split
  · exact hnext _ (modGroup_wf h)
  · split
    · exact trap_wf (modGroup_wf h)
    · split
      · exact h
      · extract_lets +onlyGivenNames r
        have hr : Memory.wf r.1 := readBacks_wf h
        exact modGroup_wf hr

theorem execFence_wf (h : Memory.wf s) : KeepsForm (execFence c g w s) :=
  answer_wf h (fun _ h1 => issue_wf h1 (fun _ _ h2 => by
    split
    · exact release_wf h2 (fun _ h3 => advance_wf h3)
    · exact advance_wf h2))

theorem groupRead_wf {fence frozen : Bool} {data : List Byte} (h : Memory.wf s) :
    Memory.wf (s.groupRead c g fence id status frozen data) := by
  unfold State.groupRead
  split
  · exact h
  · split
    · exact h
    · split
      · exact h
      · extract_lets +onlyGivenNames s1
        have h1 : Memory.wf s1 := ite_wf (freezeItem_wf h) h
        split
        · exact trap_wf h1
        · extract_lets +onlyGivenNames ga v o'
          split
          · extract_lets +onlyGivenNames s12
            have hs12 : Memory.wf s12 := setGroup_wf h1
            split
            · exact advance_wf hs12
            · exact hs12
          · exact setGroup_wf h1

theorem storePeer_wf {ga v : Nat} {upd : Bool} (h : Memory.wf s) : Memory.wf (s.storePeer c g l ga n v upd) := by
  unfold State.storePeer
  split
  · exact h
  · extract_lets +onlyGivenNames k va was p pin known r
    have hr : Memory.wf r.1 := by
      unfold r
      split
      · exact h
      · exact (State.inject_kept ..).wf h
    exact modGroup_wf hr

theorem storeLane_wf {x : Group} {ga v : Nat} (h : Memory.wf s) : Memory.wf (s.storeLane c g x l ga n v).1 := by
  unfold State.storeLane
  split
  · exact h
  · split
    · exact storePeer_wf h
    · split
      · next e1 => exact freezeItem_wf (wf_fst e1 (write_wf h _ _ _ _))
      · next e2 => exact wf_fst e2 (write_wf h _ _ _ _)
      · next e3 => exact wf_fst e3 (write_wf h _ _ _ _)
      · next e4 =>
          split
          · exact modGroup_wf (wf_fst e4 (write_wf h _ _ _ _))
          · exact wf_fst e4 (write_wf h _ _ _ _)

theorem store_wf {x : Group} (h : Memory.wf s) : Memory.wf (s.store c g opc w x) := by
  unfold State.store
  extract_lets +onlyGivenNames wide
  exact storeEnd_wf (storeLanes_wf h (fun _ _ h1 => storeLane_wf h1))

theorem execSt_wf (h : Memory.wf s) : KeepsForm (execSt c g w s) :=
  answer_wf h (fun _ h1 => issue_wf h1 (fun _ _ h2 => store_wf h2))

theorem execStRel_wf (h : Memory.wf s) : KeepsForm (execStRel c g w s) :=
  answer_wf h (fun _ h1 => issue_wf h1 (fun _ _ h2 => by
    split
    · exact release_wf h2 (fun _ h3 => store_wf h3)
    · exact store_wf h2))

theorem rmw_wf {x : Group} {host : Bool} {f : Nat → Nat} (h : Memory.wf s) : Memory.wf (s.rmw c x va n host f).1 := by
  unfold State.rmw
  split
  · extract_lets +onlyGivenNames r
    have hr : Memory.wf r.1 := (State.readWalk_tended ..).wf h
    split
    · exact hr
    · extract_lets +onlyGivenNames s11
      have hs11 : Memory.wf s11 := logFault_wf hr _ _ _
      split
      · split
        · next e2 => exact wf_fst e2 (read_wf hs11 _ _ _)
        · next e3 => exact freezeItem_wf (wf_fst e3 (read_wf hs11 _ _ _))
      · exact hs11
  · extract_lets +onlyGivenNames r
    have hr : Memory.wf r.1 := (State.readWalk_tended ..).wf h
    split
    · exact hr
    · extract_lets +onlyGivenNames s14
      have hs14 : Memory.wf s14 := hold_wf hr _ _
      split
      · split
        · extract_lets +onlyGivenNames y old
          have hy : Memory.wf y.1 := (State.meetWords_tended ..).wf hs14
          split
          · exact hy
          · split
            · exact hy
            · exact setLocalBytes_wf hy _ _ _
        · exact logFault_wf hs14 _ _ _
      · split
        · next e5 => exact wf_fst e5 ((State.readHbm_tended ..).wf hs14)
        · next e6 =>
            extract_lets +onlyGivenNames old
            split
            · next e7 => exact wf_fst e7 (writeHbm_wf (wf_fst e6 ((State.readHbm_tended ..).wf hs14)) _ _)
            · next e8 => exact wf_fst e8 (writeHbm_wf (wf_fst e6 ((State.readHbm_tended ..).wf hs14)) _ _)
      · split
        · exact (State.drawn_kept ..).wf hs14
        · extract_lets +onlyGivenNames old
          exact setHostBytes_wf ((State.drawn_kept ..).wf hs14) _ _ _

theorem rmwEach_wf {x : Group} {host : Bool} {op : Nat → Nat → Nat} {lanes : List Nat} {got : List (Nat × Nat)}
    (h : Memory.wf s) : Memory.wf (s.rmwEach c x va n host op lanes got).1 := by
  induction lanes generalizing s got with
  | nil => exact h
  | cons l r ih =>
    unfold State.rmwEach
    split
    · next e1 => exact wf_fst e1 (rmw_wf h)
    · next e2 => exact ih (wf_fst e2 (rmw_wf h))

theorem atomicAt_wf {x : Group} {host each : Bool} {op : Nat → Nat → Nat} {ga : Nat} {lanes : List Nat} (h : Memory.wf s) :
    Memory.wf (s.atomicAt c x n host each op ga lanes).1 := by
  unfold State.atomicAt
  split
  · exact h
  · split
    · exact rmwEach_wf h
    · split
      · next e1 => exact wf_fst e1 (rmw_wf h)
      · next e2 => exact wf_fst e2 (rmw_wf h)

theorem perAddress_wf {f : State → Nat → List Nat → State × List (Nat × Nat) × Option Nat} {addr : Nat → Nat}
    {lanes gas : List Nat} {got : List (Nat × Nat)} (h : Memory.wf s) (hf : ∀ s x y, Memory.wf s → Memory.wf (f s x y).1) :
    Memory.wf (s.perAddress f addr lanes gas got).1 := by
  induction gas generalizing s got with
  | nil => exact h
  | cons ga r ih =>
    unfold State.perAddress
    split
    · next e1 => exact wf_fst e1 (hf _ _ _ h)
    · next e2 => exact ih (wf_fst e2 (hf _ _ _ h))

theorem atomicLanes_wf {x : Group} {f : State → Nat → List Nat → State × List (Nat × Nat) × Option Nat} (h : Memory.wf s)
    (hf : ∀ s x y, Memory.wf s → Memory.wf (f s x y).1) : Memory.wf (s.atomicLanes x w f).1 := by
  unfold State.atomicLanes
  extract_lets +onlyGivenNames lanes addr
  exact perAddress_wf h (fun _ _ _ h1 => hf _ _ _ h1)

theorem atomicEnd_wf {x : Group} {d : Nat} {wide : Bool} {r : State × List (Nat × Nat) × Option Nat} (h : Memory.wf r.1) :
    Memory.wf (State.atomicEnd c g opc x d wide r) := by
  unfold State.atomicEnd
  split
  · exact trap_wf h
  · exact advance_wf (modGroup_wf h)

theorem atomic_wf {useC host each : Bool} {op : Nat → Nat → Nat → Nat → Nat} (h : Memory.wf s) :
    Memory.wf (s.atomic c g opc w useC host each op) :=
  issue_wf h (fun _ _ h1 => by
    extract_lets +onlyGivenNames n go
    have hgo : ∀ s, Memory.wf s → Memory.wf (go s) :=
      fun _ h2 => atomicEnd_wf (atomicLanes_wf h2 (fun _ _ _ h3 => atomicAt_wf h3))
    split
    · exact release_wf h1 (fun _ h4 => hgo _ h4)
    · exact hgo _ h1)

theorem execAtAdd_wf (h : Memory.wf s) : KeepsForm (execAtAdd c g w s) := answer_wf h (fun _ h1 => atomic_wf h1)

theorem execAtAnd_wf (h : Memory.wf s) : KeepsForm (execAtAnd c g w s) := answer_wf h (fun _ h1 => atomic_wf h1)

theorem execAtOr_wf (h : Memory.wf s) : KeepsForm (execAtOr c g w s) := answer_wf h (fun _ h1 => atomic_wf h1)

theorem execAtXor_wf (h : Memory.wf s) : KeepsForm (execAtXor c g w s) := answer_wf h (fun _ h1 => atomic_wf h1)

theorem execAtMin_wf (h : Memory.wf s) : KeepsForm (execAtMin c g w s) := answer_wf h (fun _ h1 => atomic_wf h1)

theorem execAtMax_wf (h : Memory.wf s) : KeepsForm (execAtMax c g w s) := answer_wf h (fun _ h1 => atomic_wf h1)

theorem execAtSwap_wf (h : Memory.wf s) : KeepsForm (execAtSwap c g w s) := answer_wf h (fun _ h1 => atomic_wf h1)

theorem execAtCmpx_wf (h : Memory.wf s) : KeepsForm (execAtCmpx c g w s) := answer_wf h (fun _ h1 => atomic_wf h1)

theorem addwGroup_wf {x : Group} {ga : Nat} {lanes : List Nat} (h : Memory.wf s) :
    Memory.wf (s.addwGroup c x w ga lanes).1 := by
  unfold State.addwGroup
  split
  · exact h
  · split
    · exact h
    · extract_lets +onlyGivenNames chain total
      split
      · next e1 => exact wf_fst e1 (rmw_wf h)
      · next e2 =>
          extract_lets +onlyGivenNames old backs fl last s23
          have hs23 : Memory.wf s23 := by
            unfold s23
            split
            · exact (State.raiseMse_kept ..).wf ((State.raiseVec_kept ..).wf (wf_fst e2 (rmw_wf h)))
            · exact (State.raiseVec_kept ..).wf (wf_fst e2 (rmw_wf h))
          exact hs23

theorem execAtAddw_wf (h : Memory.wf s) : KeepsForm (execAtAddw c g w s) :=
  answer_wf h (fun _ h1 => issue_wf h1 (fun _ _ h2 => by
    split
    · exact trap_wf h2
    · extract_lets +onlyGivenNames go
      have hgo : ∀ s, Memory.wf s → Memory.wf (go s) :=
        fun _ h3 => atomicEnd_wf (atomicLanes_wf h3 (fun _ _ _ h4 => addwGroup_wf h4))
      split
      · exact release_wf h2 (fun _ h5 => hgo _ h5)
      · exact hgo _ h2))

/-! ## Sys2Proof/Machine/ThreadCtl.lean -/

theorem execBwait_wf (h : Memory.wf s) : KeepsForm (execBwait c g w s) :=
  answer_wf h (fun _ h1 => issue_wf h1 (fun _ _ h2 => by
    extract_lets +onlyGivenNames b t3
    have ht3 : Memory.wf t3 := arrive_wf h2
    split
    · extract_lets +onlyGivenNames t4
      have ht4 : Memory.wf t4 := by
        unfold t4
        split
        · exact completeBarrier_wf ht3
        · exact ht3
      exact barriers_wf (advance_wf ht4)
    · split
      · exact trap_wf h2
      · exact barriers_wf (modGroup_wf ht3)))

theorem execBmark_wf (h : Memory.wf s) : KeepsForm (execBmark c g w s) :=
  answer_wf h (fun _ h1 => issue_wf h1 (fun _ _ h2 => barriers_wf (advance_wf (arrive_wf h2))))

theorem execBarrierWatchdogExpiry_wf {blk : Nat} (h : Memory.wf s) : KeepsForm (execBarrierWatchdogExpiry c blk s) :=
  answer_wf h (fun _ h1 => by
    split
    · exact h1
    · extract_lets +onlyGivenNames halted
      split
      · exact h1
      · exact trapWaiters_wf h1)

theorem execTissue_wf (h : Memory.wf s) : KeepsForm (execTissue c g w s) :=
  answer_wf h (fun _ h1 => issue_wf h1 (fun _ _ h2 => by
    split
    · extract_lets +onlyGivenNames a
      split
      · exact trap_wf h2
      · split
        · exact modGroup_wf h2
        · exact readSpans_wf h2 (fun _ h3 => by
            extract_lets +onlyGivenNames d s4
            have h4 : Memory.wf s4 := modEng_wf h3
            exact advance_wf (modGroup_wf h4))
    · exact trap_wf h2))

theorem tileDesc_wf {x : Group} (h : Memory.wf s) : Memory.wf (s.tileDesc c g opc x) := trap_wf (modGroup_wf h)

theorem execTwait_wf (h : Memory.wf s) : KeepsForm (execTwait c g w s) :=
  answer_wf h (fun _ h1 => issue_wf h1 (fun _ _ h2 => by
    split
    · exact tileDesc_wf h2
    · split
      · exact advance_wf h2
      · exact modGroup_wf h2))

theorem exitAt_wf {x : Group} {m : BitVec 64} (h : Memory.wf s) : Memory.wf (s.exitAt c g x m) := by
  unfold State.exitAt
  extract_lets +onlyGivenNames y
  exact barriers_wf (checkExit_wf (setGroup_wf h))

theorem execDoneW_wf (h : Memory.wf s) : KeepsForm (execDoneW c g w s) :=
  answer_wf h (fun _ h1 => issue_wf h1 (fun _ _ h2 => by
    split
    · exact advance_wf h2
    · split
      · exact tileDesc_wf h2
      · split
        · exact exitAt_wf h2
        · exact modGroup_wf h2))

theorem wake_wf (h : Memory.wf s) : Memory.wf (s.wake c g) := by
  unfold State.wake
  split
  · exact h
  · split
    · exact checkExit_wf h
    · split
      · split
        · exact tileDesc_wf h
        · split
          · exact advance_wf (modGroup_wf h)
          · exact h
      · split
        · exact tileDesc_wf h
        · split
          · exact exitAt_wf h
          · exact h
      · exact h

theorem descDone_wf {bad : Bool} (h : Memory.wf s) : Memory.wf (s.descDone c g bad) := wake_wf (modGroup_wf h)

theorem wakeTissue_wf (h : Memory.wf s) : Memory.wf (s.wakeTissue c) := (modCore_wf ..).trans h

theorem request_wf {upd : Bool} {r : RingRegs} {words : List DWord} (h : Memory.wf s) :
    Memory.wf (s.request c upd r i j words).1 := by
  unfold State.request
  split
  · exact h
  · split
    · exact h
    · split
      · next e1 => exact wf_fst e1 (ringPush_wf h)
      · next e2 => exact wf_fst e2 (ringPush_wf h)

theorem requestDone_wf {x : Group} {d : Word} (h : Memory.wf s) : Memory.wf (s.requestDone c g w x d) :=
  advance_wf (modGroup_wf h)

theorem requestOp_wf {x : Group} {r : RingRegs} {updBit : Nat} (h : Memory.wf s) :
    Memory.wf (s.requestOp c g opc w x r i j updBit) := by
  unfold State.requestOp
  split
  · exact advance_wf h
  · extract_lets +onlyGivenNames a
    split
    · exact trap_wf h
    · exact readSpans_wf h (fun _ h1 => by
        extract_lets +onlyGivenNames words words1
        split
        · next e2 => exact (State.drawn_kept ..).wf (requestDone_wf (freezeItem_wf (wf_fst e2 (request_wf h1))))
        · next e3 => exact trap_wf (wf_fst e3 (request_wf h1))
        · next e4 => exact requestDone_wf (wf_fst e4 (request_wf h1)))

theorem execMsereq_wf (h : Memory.wf s) : KeepsForm (execMsereq c g w s) :=
  answer_wf h (fun _ h1 => issue_wf h1 (fun _ _ h2 => by
    extract_lets +onlyGivenNames k r
    split
    · exact trap_wf h2
    · exact requestOp_wf h2))

theorem execDmareq_wf (h : Memory.wf s) : KeepsForm (execDmareq c g w s) :=
  answer_wf h (fun _ h1 => issue_wf h1 (fun _ _ h2 => requestOp_wf h2))

theorem execSetctx_wf (h : Memory.wf s) : KeepsForm (execSetctx c g w s) :=
  answer_wf h (fun _ h1 => issue_wf h1 (fun _ _ h2 => by
    split
    · exact advance_wf h2
    · extract_lets +onlyGivenNames v
      split
      · exact trap_wf h2
      · exact advance_wf (modGroup_wf h2)))

theorem execJump_wf (h : Memory.wf s) : KeepsForm (execJump c g w s) :=
  answer_wf h (fun _ h1 => issue_wf h1 (fun _ _ h2 => by
    extract_lets +onlyGivenNames taken target
    split
    · exact goTo_wf h2
    · split
      · exact advance_wf h2
      · split
        · exact trap_wf h2
        · exact goTo_wf (modGroup_wf h2)))

theorem execJumpr_wf (h : Memory.wf s) : KeepsForm (execJumpr c g w s) := by
  refine answer_wf h fun _ h1 => issue_wf h1 fun _ _ h2 => ?_
  dsimp only
  split
  · exact advance_wf h2
  · exact ite_wf (trap_wf h2 ..) (ite_wf (trap_wf h2 ..) (goTo_wf h2))

theorem execCall_wf (h : Memory.wf s) : KeepsForm (execCall c g w s) :=
  answer_wf h (fun _ h1 => issue_wf h1 (fun _ _ h2 => goTo_wf (modGroup_wf h2)))

theorem execCede_wf (h : Memory.wf s) : KeepsForm (execCede c g w s) :=
  answer_wf h (fun _ h1 => issue_wf h1 (fun _ _ h2 => by
    extract_lets +onlyGivenNames s13
    have hs13 : Memory.wf s13 := advance_wf h2
    split
    · exact modGroup_wf hs13
    · exact hs13))

theorem trapOp_wf {cause : Nat} {x : Group} (h : Memory.wf s) : Memory.wf (s.trapOp c g cause opc w x) := by
  unfold State.trapOp
  split
  · exact advance_wf h
  · exact trap_wf h

theorem execProbe_wf (h : Memory.wf s) : KeepsForm (execProbe c g w s) :=
  answer_wf h (fun _ h1 => issue_wf h1 (fun _ _ h2 => trapOp_wf h2))

theorem execTrapSoft_wf (h : Memory.wf s) : KeepsForm (execTrapSoft c g w s) :=
  answer_wf h (fun _ h1 => issue_wf h1 (fun _ _ h2 => trapOp_wf h2))

/-! ## Sys2Proof/Machine/FrontEnd.lean -/

theorem takeItem_wf {st : Stream} {kind : Nat} {body : State → List DWord → State} (h : Memory.wf s)
    (hbody : ∀ s x, Memory.wf s → Memory.wf (body s x)) : Memory.wf (s.takeItem c st kind body) := by
  unfold State.takeItem
  split
  · exact h
  · split
    · next e1 => exact (modCore_wf ..).trans (wf_fst e1 (ringRead_wf h))
    · next e2 =>
        split
        · exact h
        · extract_lets +onlyGivenNames s23
          have hs23 : Memory.wf s23 := ringPop_wf (wf_fst e2 (ringRead_wf h))
          split
          · exact hbody _ _ hs23
          · exact itemStatus_wf hs23 _ _ _

theorem addItem_wf {st : Stream} {mark : Bool} {w : List DWord} (h : Memory.wf s) : Memory.wf (s.addItem c st mark w) :=
  (modCore_wf ..).trans h

theorem execWorkItemNop_wf {st : Stream} (h : Memory.wf s) : KeepsForm (execWorkItemNop c st s) :=
  answer_wf h (fun _ h1 => takeItem_wf h1 (fun _ _ h2 => itemStatus_wf h2 _ _ _))

theorem execLaunch_wf {st : Stream} (h : Memory.wf s) : KeepsForm (execLaunch c st s) :=
  answer_wf h (fun _ h1 => takeItem_wf h1 (fun _ _ h2 => by
    extract_lets +onlyGivenNames cnt
    split
    · exact itemStatus_wf h2 _ _ _
    · split
      · exact itemStatus_wf h2 _ _ _
      · exact addItem_wf h2))

theorem execWorkItemMark_wf {st : Stream} (h : Memory.wf s) : KeepsForm (execWorkItemMark c st s) :=
  answer_wf h (fun _ h1 => takeItem_wf h1 (fun _ _ h2 => by
    extract_lets +onlyGivenNames s13
    have hs13 : Memory.wf s13 := addItem_wf h2
    exact settleMarks_wf hs13))

theorem bar0Write_wf {r : Reg} (h : Memory.wf s) (hf : ∀ s, Memory.wf s → Memory.wf (f s)) :
    Memory.wf (s.bar0Write port r i j f) := by
  unfold State.bar0Write
  split
  · exact hf _ h
  · exact h

theorem pstailWrite_wf (h : Memory.wf s) : Memory.wf (s.pstailWrite slot st v) := by
  unfold State.pstailWrite
  split
  · exact h
  · exact ringTailWrite_wf h

theorem execPstailWrite_wf (h : Memory.wf s) : KeepsForm (execPstailWrite port slot st v s) :=
  answer_wf h (fun _ h1 => bar0Write_wf h1 (fun _ h2 => pstailWrite_wf h2))

theorem execBlockStart_wf {st : Stream} (h : Memory.wf s) : KeepsForm (execBlockStart c st s) :=
  answer_wf h (fun _ h1 => by
    extract_lets +onlyGivenNames k
    split
    · exact h1
    · extract_lets +onlyGivenNames ahead
      split
      · exact h1
      · split
        · exact h1
        · exact (modCore_wf ..).trans h1)

theorem controlWith_wf {ok : Group → Bool} {f : State → Nat → State} (h : Memory.wf s)
    (hf : ∀ s x, Memory.wf s → Memory.wf (f s x)) : Memory.wf (s.control_ slot g ok f) := by
  unfold State.control_
  split
  · exact h
  · split
    · exact h
    · split
      · exact hf _ _ h
      · exact h

theorem resumeGroup_wf {step : Bool} (h : Memory.wf s) : Memory.wf (s.resumeGroup c g step) := by
  unfold State.resumeGroup
  split
  · exact h
  · extract_lets +onlyGivenNames y
    exact barriers_wf (checkExit_wf (setGroup_wf h))

theorem gctlReplay_wf (h : Memory.wf s) : Memory.wf (s.gctlReplay slot g) :=
  controlWith_wf h (fun _ _ h1 => resumeGroup_wf ((setFld_wf ..).trans h1))

theorem gctlKill_wf (h : Memory.wf s) : Memory.wf (s.gctlKill slot g) := controlWith_wf h (fun _ _ h1 => kill_wf h1)

theorem gctlStep_wf (h : Memory.wf s) : Memory.wf (s.gctlStep slot g) :=
  controlWith_wf h (fun _ _ h1 => by
    split
    · exact resumeGroup_wf h1
    · exact h1)

theorem gctlHalt_wf (h : Memory.wf s) : Memory.wf (s.gctlHalt slot g) :=
  controlWith_wf h (fun _ _ h1 => by
    split
    · exact modGroup_wf ((setFld_wf ..).trans h1)
    · exact h1)

theorem execGroupReplay_wf (h : Memory.wf s) : KeepsForm (execGroupReplay port slot g s) :=
  answer_wf h (fun _ h1 => bar0Write_wf h1 (fun _ h2 => gctlReplay_wf h2))

theorem execGroupKill_wf (h : Memory.wf s) : KeepsForm (execGroupKill port slot g s) :=
  answer_wf h (fun _ h1 => bar0Write_wf h1 (fun _ h2 => gctlKill_wf h2))

theorem execGroupStep_wf (h : Memory.wf s) : KeepsForm (execGroupStep port slot g s) :=
  answer_wf h (fun _ h1 => bar0Write_wf h1 (fun _ h2 => gctlStep_wf h2))

theorem execGroupHalt_wf (h : Memory.wf s) : KeepsForm (execGroupHalt port slot g s) :=
  answer_wf h (fun _ h1 => bar0Write_wf h1 (fun _ h2 => gctlHalt_wf h2))

theorem gctlWrite_wf (h : Memory.wf s) : Memory.wf (s.gctlWrite slot g v) := by
  unfold State.gctlWrite
  split
  · exact gctlKill_wf h
  · split
    · exact gctlReplay_wf h
    · split
      · exact gctlStep_wf h
      · split
        · exact gctlHalt_wf h
        · exact (setFld_wf ..).trans h

theorem execParkTimeout_wf (h : Memory.wf s) : KeepsForm (execParkTimeout c g s) :=
  answer_wf h (fun _ h1 => by
    split
    · exact h1
    · split
      · exact kill_wf h1
      · exact h1)

theorem fectlWrite_wf (h : Memory.wf s) : Memory.wf (s.fectlWrite slot v) := by
  unfold State.fectlWrite
  extract_lets +onlyGivenNames s1
  have h1 : Memory.wf s1 := (setReg_wf ..).trans h
  split
  · exact h1
  · split
    · exact (modCore_wf ..).trans h1
    · exact h1

theorem execIcinv_wf (h : Memory.wf s) : KeepsForm (execIcinv port slot v s) :=
  answer_wf h (fun _ h1 => bar0Write_wf h1 (fun _ h2 => fectlWrite_wf h2))

theorem dbgdataWrite_wf (h : Memory.wf s) : Memory.wf (s.dbgdataWrite slot v) := by
  unfold State.dbgdataWrite
  extract_lets +onlyGivenNames sel g
  split
  · exact h
  · split
    · exact h
    · split
      · exact (State.drawn_kept ..).wf (setGroup_wf h)
      · exact h

theorem execDbgdataWrite_wf (h : Memory.wf s) : KeepsForm (execDbgdataWrite port slot v s) :=
  answer_wf h (fun _ h1 => bar0Write_wf h1 (fun _ h2 => dbgdataWrite_wf h2))

/-! ## Sys2Proof/Machine/Ranges.lean -/

theorem feed_wf {r : ARange} {es : List Elem} {last : Bool} (h : Memory.wf s) : Memory.wf (s.feed k r va node es last) := by
  unfold State.feed
  extract_lets +onlyGivenNames x
  exact (State.raiseMse_kept ..).wf (modMse_wf h)

/-! ## Sys2Proof/Machine/Exchange.lean -/

theorem seqFill_wf {l : List (List DWord × Issuer)} (h : Memory.wf s) : Memory.wf (s.seqFill k l) := by
  induction l generalizing s with
  | nil => exact modMse_wf h
  | cons e l ih =>
    unfold State.seqFill
    extract_lets i
    split
    · exact modMse_wf h
    · split
      · next e1 => exact modMse_wf (wf_fst e1 (ringPush_wf h))
      · next e2 => exact ih (modMse_wf (wf_fst e2 (ringPush_wf h)))

theorem seqRetry_wf (h : Memory.wf s) : Memory.wf (s.seqRetry k) := seqFill_wf h

theorem showOpenWait_wf (h : Memory.wf s) : Memory.wf (s.showOpenWait k) := (setFld_wf ..).trans h

theorem seqTakeBack_wf (h : Memory.wf s) : Memory.wf (s.seqTakeBack k) := by
  unfold State.seqTakeBack
  extract_lets +onlyGivenNames s1
  have h1 : Memory.wf s1 := by
    unfold s1
    split
    · exact h
    · exact setTail_wf h
  exact showOpenWait_wf (modMse_wf h1)

theorem seqMseOne_wf {w : List DWord} {t : SeqTag} (h : Memory.wf s) : Memory.wf (s.seqMseOne k w t) := seqFill_wf h

theorem seqMse_wf {w : List DWord} {t : SeqTag} (h : Memory.wf s) : Memory.wf (s.seqMse w t) :=
  foldl_wf _ _ h (fun _ _ h1 => seqMseOne_wf h1)

theorem modRange_wf {f : RangeSt → RangeSt} (h : Memory.wf s) : Memory.wf (s.modRange b st f) :=
  (State.modBucket_kept ..).wf h

theorem openRange_wf {e : BucketEnt} {k : Bucket} (h : Memory.wf s) : Memory.wf (s.openRange x e b st k) := by
  unfold State.openRange
  extract_lets +onlyGivenNames r
  exact seqMse_wf ((State.setBucket_kept ..).wf h)

theorem resendAll_wf (h : Memory.wf s) : Memory.wf (s.resendAll x b st) := by
  unfold State.resendAll
  split
  · exact h
  · extract_lets +onlyGivenNames r pay
    exact foldl_wf _ _ h (fun _ _ h1 => (State.control_kept ..).wf h1)

theorem sendRouted_wf {ps : List Packet} {pin : Option Route} (h : Memory.wf s) : Memory.wf (s.sendRouted ps pin) := by
  induction ps generalizing s pin with
  | nil => exact h
  | cons p r ih => exact ih ((State.inject_kept ..).wf h)

theorem sendPart_wf {e : BucketEnt} {dst : BitVec 16} {ep : Nat} (h : Memory.wf s) :
    Memory.wf (s.sendPart x e b st dst n ep).1 := by
  unfold State.sendPart
  split
  · next e1 => exact wf_fst e1 (read_wf h _ _ _)
  · next e2 =>
      extract_lets +onlyGivenNames ps s23 ok s34
      have hs23 : Memory.wf s23 := sendRouted_wf (wf_fst e2 (read_wf h _ _ _))
      have hs34 : Memory.wf s34 := (State.modBucket_kept ..).wf hs23
      split
      · exact (State.control_kept ..).wf hs34
      · exact hs34

theorem checkCount_wf (h : Memory.wf s) : Memory.wf (s.checkCount x b st) := by
  unfold State.checkCount
  split
  · extract_lets +onlyGivenNames r
    split
    · exact seqMse_wf ((State.setBucket_kept ..).wf h)
    · exact h
  · exact h

theorem seqCount_wf {dst : Nat} (h : Memory.wf s) : Memory.wf (s.seqCount k dst) := by
  unfold State.seqCount
  split
  · exact h
  · split
    · exact h
    · exact eachBucket_wf h (fun _ _ h1 => by
        split
        · exact foldl_wf _ _ h1 (fun _ _ h2 => by
            extract_lets +onlyGivenNames r
            split
            · exact checkCount_wf (modRange_wf h2)
            · exact h2)
        · exact h1)

theorem selfContribute_wf {e : BucketEnt} (h : Memory.wf s) : Memory.wf (s.selfContribute x e b st).1 := by
  unfold State.selfContribute
  split
  · next e1 => exact wf_fst e1 (read_wf h _ _ _)
  · next e2 =>
      extract_lets +onlyGivenNames s23 ps
      have hs23 : Memory.wf s23 := modRange_wf (wf_fst e2 (read_wf h _ _ _))
      exact foldl_wf _ _ hs23 (fun _ _ h4 => by
        split
        · exact h4
        · split
          · exact h4
          · extract_lets +onlyGivenNames s5
            have h5 : Memory.wf s5 := feed_wf h4
            split
            · exact seqCount_wf h5
            · exact h5)

theorem restartRange_wf (h : Memory.wf s) : Memory.wf (s.restartRange x b st node) := by
  unfold State.restartRange
  split
  · extract_lets +onlyGivenNames r k
    split
    · extract_lets +onlyGivenNames s1
      have h1 : Memory.wf s1 := (State.setBucket_kept ..).wf h
      exact foldl_wf _ _ h1 (fun _ _ h2 => (State.hmRecord_kept ..).wf h2)
    · split
      · exact seqMse_wf ((State.setBucket_kept ..).wf h)
      · exact (State.setBucket_kept ..).wf h
      · exact (State.setBucket_kept ..).wf h
  · exact h

theorem drained_wf (h : Memory.wf s) : Memory.wf (s.drained x b st) := by
  unfold State.drained
  split
  · extract_lets +onlyGivenNames r
    split
    · split
      · exact modRange_wf h
      · exact seqMse_wf (modRange_wf h)
    · exact h
  · exact h

theorem ownerRestart_wf (h : Memory.wf s) : Memory.wf (s.ownerRestart x b st node) := by
  unfold State.ownerRestart
  split
  · exact h
  · extract_lets +onlyGivenNames s11
    have hs11 : Memory.wf s11 := restartRange_wf h
    split
    · extract_lets +onlyGivenNames ps s22 s33
      have hs22 : Memory.wf s22 := (State.modBucket_kept ..).wf hs11
      have hs33 : Memory.wf s33 := foldl_wf _ _ hs22 (fun _ _ h4 => (State.control_kept ..).wf h4)
      split
      · exact hs33
      · exact restartRange_wf hs33
    · exact hs11

theorem zeroGrads_wf (h : Memory.wf s) : Memory.wf (s.zeroGrads x) :=
  eachBucket_wf h (fun _ _ h1 => by
    split
    · exact h1
    · exact (modSeq_wf ..).trans (seqMse_wf h1))

theorem replayHere_wf {reason : Nat} (h : Memory.wf s) : Memory.wf (s.replayHere x reason) := by
  unfold State.replayHere
  extract_lets +onlyGivenNames s1
  have h1 : Memory.wf s1 := foldl_wf _ _ h (fun _ _ h2 => (State.control_kept ..).wf h2)
  split
  · exact (State.halt_kept ..).wf ((modSeq_wf ..).trans h1)
  · extract_lets +onlyGivenNames s3 s4 s5
    have h3 : Memory.wf s3 := (modSeq_wf ..).trans h1
    have h4 : Memory.wf s4 := (State.event_kept ..).wf h3
    have h5 : Memory.wf s5 := eachBucket_wf h4 (fun _ _ h6 => by
      extract_lets +onlyGivenNames s7
      have h7 : Memory.wf s7 := (State.modBucket_kept ..).wf h6
      exact foldl_wf _ _ h7 (fun _ _ h8 => by
        split
        · split
          · exact h8
          · exact restartRange_wf h8
        · exact h8))
    exact zeroGrads_wf h5

theorem announceReplay_wf {replica : BitVec 16} (h : Memory.wf s) : Memory.wf (s.announceReplay x replica) :=
  (modSeq_wf ..).trans ((State.messageDown_kept ..).wf h)

theorem seqFault_wf {reason : Nat} (h : Memory.wf s) : Memory.wf (s.seqFault reason) := by
  unfold State.seqFault
  split
  · exact h
  · split
    · split
      · exact h
      · exact (owe_wf ..).trans h
    · extract_lets +onlyGivenNames s11
      have hs11 : Memory.wf s11 := replayHere_wf h
      split
      · exact hs11
      · split
        · exact announceReplay_wf hs11
        · exact (State.message_kept ..).wf hs11

theorem noteNotOpen_wf {r : RangeSt} (h : Memory.wf s) : Memory.wf (s.noteNotOpen b st r) := by
  unfold State.noteNotOpen
  split
  · exact (State.event_kept ..).wf (modRange_wf h)
  · exact h

theorem rangeOpened_wf {recs : List DieRec} (h : Memory.wf s) : Memory.wf (s.rangeOpened x b st recs) := by
  unfold State.rangeOpened
  split
  · extract_lets +onlyGivenNames r
    split
    · exact seqFault_wf (seqMse_wf (modRange_wf h))
    · extract_lets +onlyGivenNames dies s11 s22
      have hs11 : Memory.wf s11 := modRange_wf h
      have hs22 : Memory.wf s22 := noteNotOpen_wf hs11
      split
      · exact ownerRestart_wf hs22
      · split
        · exact ownerRestart_wf hs22
        · exact checkCount_wf (ite_wf (resendAll_wf hs22) hs22)
  · exact h

theorem rangeCleared_wf (h : Memory.wf s) : Memory.wf (s.rangeCleared x b st) := by
  unfold State.rangeCleared
  split
  · exact h
  · extract_lets +onlyGivenNames s11 s22
    have hs11 : Memory.wf s11 := modRange_wf h
    have hs22 : Memory.wf s22 := noteNotOpen_wf hs11
    split
    · exact ownerRestart_wf hs22
    · split
      · exact ownerRestart_wf hs22
      · exact resendAll_wf hs22

theorem rangeFinished_wf {recs : List DieRec} (h : Memory.wf s) : Memory.wf (s.rangeFinished x b st recs) := by
  unfold State.rangeFinished
  split
  · exact h
  · split
    · exact ownerRestart_wf (modRange_wf h)
    · split
      · exact h
      · extract_lets +onlyGivenNames s11
        have hs11 : Memory.wf s11 := (State.modBucket_kept ..).wf h
        split
        · exact ownerRestart_wf hs11
        · exact hs11

theorem rangeClosed_wf (h : Memory.wf s) : Memory.wf (s.rangeClosed x b st) := modRange_wf h

theorem rangeRecord_wf {ph : RPhase} {y : DieRec} {f : State → List DieRec → State} (h : Memory.wf s)
    (hf : ∀ s x, Memory.wf s → Memory.wf (f s x)) : Memory.wf (s.rangeRecord b st ph y f) := by
  unfold State.rangeRecord
  split
  · exact h
  · extract_lets +onlyGivenNames r
    split
    · exact h
    · split
      · exact modRange_wf h
      · exact hf _ _ (modRange_wf h)

theorem retractOne_wf (h : Memory.wf s) : Memory.wf (s.retractOne x b node) := by
  unfold State.retractOne
  split
  · exact h
  · exact ownerRestart_wf ((State.setBucket_kept ..).wf h)

theorem retractFrom_wf {tag : Nat} (h : Memory.wf s) : Memory.wf (s.retractFrom node tag step) := by
  unfold State.retractFrom
  split
  · exact h
  · extract_lets +onlyGivenNames now
    split
    · exact h
    · split
      · exact (State.lateDetection_kept ..).wf h
      · split
        · exact h
        · extract_lets +onlyGivenNames s11
          have hs11 : Memory.wf s11 := (State.event_kept ..).wf ((modSeq_wf ..).trans h)
          exact foldl_wf _ _ hs11 (fun _ _ h2 => retractOne_wf h2)

theorem resendFrom_wf {tag ep : Nat} (h : Memory.wf s) : Memory.wf (s.resendFrom node tag step ep) := by
  unfold State.resendFrom
  split
  · exact h
  · split
    · exact h
    · split
      · exact (modSeq_wf ..).trans h
      · split
        · exact (State.modBucket_kept ..).wf h
        · exact h

theorem cleanFrom_wf {tag : Nat} (h : Memory.wf s) : Memory.wf (s.cleanFrom node tag step) := by
  unfold State.cleanFrom
  split
  · exact h
  · split
    · exact h
    · split
      · exact (modSeq_wf ..).trans h
      · split
        · exact modRange_wf h
        · exact h

theorem seqNotOpen_wf (h : Memory.wf s) : Memory.wf (s.seqNotOpen va) := by
  unfold State.seqNotOpen
  split
  · exact h
  · split
    · exact h
    · exact eachBucket_wf h (fun _ _ h1 => by
        split
        · exact foldl_wf _ _ h1 (fun _ _ h2 => by
            extract_lets +onlyGivenNames r
            split
            · split
              · exact ownerRestart_wf ((State.event_kept ..).wf h2)
              · exact modRange_wf h2
            · exact h2)
        · exact h1)

theorem stageRule_wf {e : BucketEnt} {k : Bucket} (h : Memory.wf s) : ∀ t ∈ s.stageRule x e b st k, Memory.wf t := by
  unfold State.stageRule
  split
  · exact none_wf
  · split
    · exact some_wf (openRange_wf h)
    · split
      · extract_lets +onlyGivenNames y
        have hy : Memory.wf y.1 := selfContribute_wf h
        exact some_wf (ite_wf (checkCount_wf hy) (seqFault_wf hy))
      · split
        · exact none_wf
        · extract_lets +onlyGivenNames y
          have hy : Memory.wf y.1 := sendPart_wf h
          exact some_wf (ite_wf hy (seqFault_wf hy))

theorem bucketRule_wf (h : Memory.wf s) : ∀ t ∈ s.bucketRule x b, Memory.wf t := by
  unfold State.bucketRule
  split
  · split
    · exact none_wf
    · split
      · exact some_wf ((State.setBucket_kept ..).wf h)
      · split
        · exact some_wf ((State.setBucket_kept ..).wf h)
        · exact (findSome_wf _ _ fun _ => (stageRule_wf h))
  · exact none_wf

/-! ## Sys2Proof/Machine/Passes.lean -/

theorem dataWait_wf (h : Memory.wf s) : Memory.wf s.dataWait := (modSeq_wf ..).trans ((State.event_kept ..).wf h)

theorem fetchInput_wf {p : Prog} (h : Memory.wf s) : Memory.wf (s.fetchInput p) := by
  unfold State.fetchInput
  split
  · exact dataWait_wf h
  · split
    · next e1 => exact dataWait_wf (wf_fst e1 ((State.readWords_tended ..).wf h))
    · next e2 =>
        extract_lets +onlyGivenNames bytes
        split
        · exact (State.halt_kept ..).wf (wf_fst e2 ((State.readWords_tended ..).wf h))
        · split
          · next e3 => exact dataWait_wf (wf_fst e3 (read_wf (wf_fst e2 ((State.readWords_tended ..).wf h)) _ _ _))
          · next e4 =>
              extract_lets +onlyGivenNames slot
              exact (modSeq_wf ..).trans (put_wf (wf_fst e4 (read_wf (wf_fst e2 ((State.readWords_tended ..).wf h)) _ _ _)) _ _ _)

theorem setOut_wf {use : CntUse} {items : List (Nat × Nat × List Nat)} {arg : Nat} {rep : Bool} (h : Memory.wf s) :
    Memory.wf (s.setOut use st items arg rep) :=
  (modSeq_wf ..).trans h

theorem launchItem_wf {t : ToLaunch} (h : Memory.wf s) : Memory.wf (s.launchItem t) := by
  have hdef := Eq.refl State.launchItem
  conv_rhs at hdef => delta State.launchItem
  have hpush := @ringPush_wf
  obtain ⟨push, e⟩ : ∃ f, f = State.ringPush := ⟨_, rfl⟩
  rw [← e] at hdef hpush
  rw [hdef]
  beta_reduce
  extract_lets +onlyGivenNames s1
  have h1 : Memory.wf s1 := (modSeq_wf ..).trans h
  split
  · exact itemStatus_wf h1 _ _ _
  · split
    · next e2 => exact itemStatus_wf (wf_fst e2 ((State.readWords_tended ..).wf h1)) _ _ _
    · next e3 =>
      have h3 := wf_fst e3 ((State.readWords_tended ..).wf h1)
      split
      · next e4 => exact itemStatus_wf (wf_fst e4 (hpush h3)) _ _ _
      · next e5 => exact wf_fst e5 (hpush h3)

theorem startF_wf {p : Prog} (h : Memory.wf s) : Memory.wf (s.startF p) := by
  unfold State.startF
  extract_lets +onlyGivenNames i items s1
  have h1 : Memory.wf s1 := (modSeq_wf ..).trans h
  split
  · exact (modSeq_wf ..).trans h1
  · exact setOut_wf h1

theorem startR_wf {p : Prog} (h : Memory.wf s) : Memory.wf (s.startR p) := by
  unfold State.startR
  extract_lets +onlyGivenNames i items s1
  have h1 : Memory.wf s1 := (modSeq_wf ..).trans h
  split
  · exact (modSeq_wf ..).trans h1
  · exact setOut_wf h1

theorem startB_wf {p : Prog} (h : Memory.wf s) : Memory.wf (s.startB p) := by
  unfold State.startB
  extract_lets +onlyGivenNames i items s1
  have h1 : Memory.wf s1 := (modSeq_wf ..).trans h
  split
  · exact (modSeq_wf ..).trans h1
  · exact setOut_wf h1

theorem passRule_wf {p : Prog} (h : Memory.wf s) : ∀ t ∈ s.passRule p, Memory.wf t := by
  unfold State.passRule
  split
  · exact some_wf (launchItem_wf h)
  · split
    · exact some_wf (fetchInput_wf h)
    · split
      · exact some_wf (startF_wf h)
      · split
        · exact some_wf (startR_wf h)
        · split
          · exact some_wf (startB_wf h)
          · split
            · exact some_wf ((modSeq_wf ..).trans h)
            · exact none_wf

theorem passDone_wf {use : CntUse} (h : Memory.wf s) : Memory.wf (s.passDone use status) := by
  unfold State.passDone
  extract_lets +onlyGivenNames s1
  have h1 : Memory.wf s1 := ite_wf ((modSeq_wf ..).trans h) h
  split
  · exact (modSeq_wf ..).trans h1
  · exact (modSeq_wf ..).trans h1
  · exact (modSeq_wf ..).trans h1
  · exact h1

/-! ## Sys2Proof/Machine/Verdict.lean -/

theorem sealMsg_wf {dst : BitVec 16} {arg : Nat} {v : Verdict} (h : Memory.wf s) : Memory.wf (s.sealMsg x dst arg v) := by
  unfold State.sealMsg
  extract_lets +onlyGivenNames step
  exact (State.control_kept ..).wf ((modSeq_wf ..).trans h)

theorem enterVerdict_wf (h : Memory.wf s) : Memory.wf (s.enterVerdict x) := by
  unfold State.enterVerdict
  extract_lets +onlyGivenNames nf
  exact (modSeq_wf ..).trans h

theorem stepLoss_wf {p : Prog} (h : Memory.wf s) : Memory.wf (s.stepLoss p).1 := by
  unfold State.stepLoss
  extract_lets +onlyGivenNames one
  have hone : ∀ s x1, Memory.wf s → Memory.wf (one s x1).1 := fun _ _ h1 => by
    unfold one
    split
    · next e2 => exact wf_fst e2 (read_wf h1 _ _ _)
    · next e3 => exact wf_fst e3 (read_wf h1 _ _ _)
  exact foldl_fst_wf _ _ (hone _ _ h) (fun _ _ h4 => by
    extract_lets +onlyGivenNames y
    have hy : Memory.wf y.1 := hone _ _ h4
    exact hy)

theorem keepLoss_wf {p : Prog} (h : Memory.wf s) : Memory.wf (s.keepLoss p) := by
  unfold State.keepLoss
  extract_lets +onlyGivenNames y
  have hy : Memory.wf y.1 := stepLoss_wf h
  exact (modSeq_wf ..).trans hy

theorem openGate_wf (h : Memory.wf s) : Memory.wf (s.openGate b step) := (modSeq_wf ..).trans h

theorem checkGathered_wf (h : Memory.wf s) : Memory.wf (s.checkGathered x b) := by
  unfold State.checkGathered
  split
  · exact h
  · split
    · exact h
    · split
      · exact openGate_wf h
      · exact h

theorem mapShifts_wf {e : BucketEnt} {f : Nat → Nat → Nat} (h : Memory.wf s) : Memory.wf (s.mapShifts x e f) := by
  unfold State.mapShifts
  split
  · next e1 => exact wf_fst e1 (read_wf h _ _ _)
  · next e2 => exact put_wf (wf_fst e2 (read_wf h _ _ _)) _ _ _

theorem eachOwn_wf {f : State → BucketEnt → State} (h : Memory.wf s) (hf : ∀ s x, Memory.wf s → Memory.wf (f s x)) :
    Memory.wf (s.eachOwn x f) :=
  foldl_wf _ _ h (fun _ _ h1 => by
    split
    · exact hf _ _ h1
    · exact h1)

theorem allShifts_wf {f : Nat → Nat} (h : Memory.wf s) : Memory.wf (s.allShifts x f) :=
  eachOwn_wf h (fun _ _ h1 => mapShifts_wf h1)

theorem clearFlagMaps_wf (h : Memory.wf s) : Memory.wf (s.clearFlagMaps x) := eachOwn_wf h (fun _ _ h1 => put_wf h1 _ _ _)

theorem settleFallBack_wf (h : Memory.wf s) : Memory.wf s.settleFallBack := by
  unfold State.settleFallBack
  extract_lets +onlyGivenNames now s1
  have h1 : Memory.wf s1 := ite_wf ((by
    split
    · exact clearFlagMaps_wf (allShifts_wf ((State.event_kept ..).wf h))
    · exact h)) h
  exact (setFld_wf ..).trans h1

theorem flagTiles_wf {e : BucketEnt} (h : Memory.wf s) : Memory.wf (s.flagTiles x e b).1 := by
  unfold State.flagTiles
  split
  · next e1 _ =>
      extract_lets +onlyGivenNames hit ts s22
      have hs22 : Memory.wf s22 := mapShifts_wf (wf_fst e1 (read_wf h _ _ _))
      exact foldl_wf _ _ hs22 (fun _ _ h3 => (State.event_kept ..).wf h3)
  · next e4 _ => exact wf_fst e4 (read_wf h _ _ _)

theorem skipStep_wf {v : Verdict} {mismatch : Bool} (h : Memory.wf s) : Memory.wf (s.skipStep x v mismatch) := by
  unfold State.skipStep
  extract_lets +onlyGivenNames s1
  have h1 : Memory.wf s1 := eachBucket_wf h (fun _ _ h2 => openGate_wf ((State.modBucket_kept ..).wf h2))
  exact (modSeq_wf ..).trans (zeroGrads_wf h1)

theorem sealStep_wf {v : Verdict} (h : Memory.wf s) : Memory.wf (s.sealStep x v) := by
  unfold State.sealStep
  extract_lets +onlyGivenNames s1 s2
  have h1 : Memory.wf s1 := (modSeq_wf ..).trans h
  have h2 : Memory.wf s2 := eachBucket_wf h1 (fun _ _ h3 => by
    split
    · exact h3
    · extract_lets +onlyGivenNames y s4 s5
      have hy : Memory.wf y.1 := by
        unfold y
        split
        · exact flagTiles_wf h3
        · exact h3
      have h4 : Memory.wf s4 := (modSeq_wf ..).trans hy
      have h5 : Memory.wf s5 := (State.modBucket_kept ..).wf h4
      split
      · exact openGate_wf h5
      · exact h5)
  exact (State.writeStatus_kept ..).wf (zeroGrads_wf h2)

theorem applyVerdict_wf {v : Verdict} (h : Memory.wf s) : Memory.wf (s.applyVerdict x v) := by
  unfold State.applyVerdict
  extract_lets +onlyGivenNames s1
  have h1 : Memory.wf s1 := (setReg_wf ..).trans h
  split
  · exact (State.lateDetection_kept ..).wf h1
  · split
    · exact (modSeq_wf ..).trans h1
    · extract_lets +onlyGivenNames mine mism s2 s3 s4
      have h2 : Memory.wf s2 := keepLoss_wf ((modSeq_wf ..).trans h1)
      have h3 : Memory.wf s3 := ite_wf (skipStep_wf h2) (sealStep_wf h2)
      have h4 : Memory.wf s4 := (modSeq_wf ..).trans h3
      split
      · exact (modSeq_wf ..).trans h4
      · exact h4

theorem releaseDown_wf {v : Verdict} (h : Memory.wf s) : Memory.wf (s.releaseDown x v) := by
  unfold State.releaseDown
  extract_lets +onlyGivenNames s1
  have h1 : Memory.wf s1 := (modSeq_wf ..).trans h
  exact applyVerdict_wf (foldl_wf _ _ h1 (fun _ _ h2 => sealMsg_wf h2))

theorem verdictRule_wf (h : Memory.wf s) : ∀ t ∈ s.verdictRule x, Memory.wf t := by
  unfold State.verdictRule
  split
  · exact some_wf (enterVerdict_wf h)
  · split
    · exact none_wf
    · split
      · exact none_wf
      · split
        · split
          · exact some_wf (releaseDown_wf h)
          · exact none_wf
        · split
          · exact none_wf
          · exact some_wf (sealMsg_wf ((modSeq_wf ..).trans h))

theorem updFail_wf {ph : UpdPhase} (h : Memory.wf s) : Memory.wf (s.updFail x b ph) := by
  unfold State.updFail
  split
  · exact h
  · split
    · exact (State.halt_kept ..).wf h
    · exact (State.setBucket_kept ..).wf h

theorem freezeBucket_wf (h : Memory.wf s) : Memory.wf (s.freezeBucket b) :=
  openGate_wf ((State.event_kept ..).wf ((State.modBucket_kept ..).wf h))

theorem commitCopy_wf {e : BucketEnt} {stage : Nat} {first : Bool} (h : Memory.wf s) :
    Memory.wf (s.commitCopy x e b stage first) := by
  unfold State.commitCopy
  extract_lets +onlyGivenNames n s1
  have h1 : Memory.wf s1 := (State.modBucket_kept ..).wf h
  split
  · exact seqMse_wf h1
  · exact seqMse_wf h1

theorem kernelEvents_wf (h : Memory.wf s) : Memory.wf (s.kernelEvents id) := by
  unfold State.kernelEvents
  split
  · exact h
  · split
    · next e1 =>
        extract_lets +onlyGivenNames s22
        have hs22 : Memory.wf s22 := ite_wf ((State.event_kept ..).wf (wf_fst e1 (read_wf h _ _ _))) (wf_fst e1 (read_wf h _ _ _))
        split
        · exact (State.event_kept ..).wf hs22
        · exact hs22
    · next e3 => exact wf_fst e3 (read_wf h _ _ _)

theorem updateDone_wf (h : Memory.wf s) : Memory.wf (s.updateDone x b status) := by
  unfold State.updateDone
  split
  · split
    · exact h
    · split
      · exact freezeBucket_wf (kernelEvents_wf h)
      · split
        · exact updFail_wf h
        · exact commitCopy_wf ((State.setBucket_kept ..).wf (kernelEvents_wf h))
  · exact h

theorem startUpdate_wf {e : BucketEnt} {area : Nat} (h : Memory.wf s) : Memory.wf (s.startUpdate x e b area) := by
  unfold State.startUpdate
  extract_lets +onlyGivenNames stage s1
  have h1 : Memory.wf s1 := (State.modBucket_kept ..).wf h
  split
  · next e2 => exact updFail_wf (wf_fst e2 (write_wf h1 _ _ _ _))
  · next e3 =>
      split
      · next e4 => exact updFail_wf (wf_fst e4 ((State.readWords_tended ..).wf (wf_fst e3 (write_wf h1 _ _ _ _))))
      · next e5 =>
          extract_lets +onlyGivenNames items
          split
          · exact updateDone_wf (wf_fst e5 ((State.readWords_tended ..).wf (wf_fst e3 (write_wf h1 _ _ _ _))))
          · exact setOut_wf (wf_fst e5 ((State.readWords_tended ..).wf (wf_fst e3 (write_wf h1 _ _ _ _))))

theorem updateRule_wf (h : Memory.wf s) : ∀ t ∈ s.updateRule x, Memory.wf t := by
  unfold State.updateRule
  split
  · exact none_wf
  · split
    · exact some_wf (startUpdate_wf h)
    · exact none_wf

theorem seqDma_wf {w : List DWord} {t : SeqTag} (h : Memory.wf s) : Memory.wf (s.seqDma w t) := modDma_wf h

theorem gatherTo_wf {e : BucketEnt} {n : BitVec 16} {wide : Bool} (h : Memory.wf s) :
    Memory.wf (s.gatherTo x e b n wide) := by
  unfold State.gatherTo
  extract_lets +onlyGivenNames sl va
  exact seqDma_wf h

theorem shiftsTo_wf {e : BucketEnt} {n : BitVec 16} (h : Memory.wf s) : Memory.wf (s.shiftsTo x e b n) := seqDma_wf h

theorem gatherOut_wf {e : BucketEnt} {wide : Bool} (h : Memory.wf s) : Memory.wf (s.gatherOut x e b step wide) :=
  foldl_wf _ _ h (fun _ _ h1 => by
    extract_lets +onlyGivenNames s2 s3
    have h2 : Memory.wf s2 := gatherTo_wf h1
    have h3 : Memory.wf s3 := ite_wf (shiftsTo_wf h2) h2
    exact (modSeq_wf ..).trans h3)

theorem commit_wf {e : BucketEnt} (h : Memory.wf s) : Memory.wf (s.commit x e b) := by
  unfold State.commit
  extract_lets +onlyGivenNames n s1 s2
  have h1 : Memory.wf s1 := (State.modBucket_kept ..).wf h
  have h2 : Memory.wf s2 := (modSeq_wf ..).trans h1
  exact checkGathered_wf (gatherOut_wf h2)

theorem copyRecord_wf {first : Bool} {y : DieRec} (h : Memory.wf s) : Memory.wf (s.copyRecord x b first y) := by
  unfold State.copyRecord
  split
  · extract_lets +onlyGivenNames ph
    split
    · exact h
    · split
      · exact (State.modBucket_kept ..).wf h
      · extract_lets +onlyGivenNames rs
        split
        · exact freezeBucket_wf h
        · split
          · extract_lets +onlyGivenNames s11
            have hs11 : Memory.wf s11 := updFail_wf h
            split
            · exact commitCopy_wf hs11
            · exact hs11
          · split
            · exact commitCopy_wf h
            · exact commit_wf h
  · exact h

theorem gatherDone_wf {n : BitVec 16} {shifts : Bool} (h : Memory.wf s) : Memory.wf (s.gatherDone b n shifts status) := by
  unfold State.gatherDone
  split
  · extract_lets +onlyGivenNames upd
    split
    · split
      · exact (modSeq_wf ..).trans h
      · exact (State.message_kept ..).wf ((modSeq_wf ..).trans h)
    · split
      · exact (State.halt_kept ..).wf h
      · split
        · exact h
        · extract_lets +onlyGivenNames s11
          have hs11 : Memory.wf s11 := (modSeq_wf ..).trans h
          split
          · exact shiftsTo_wf hs11
          · exact gatherTo_wf hs11
  · exact h

theorem takeCrush_wf (h : Memory.wf s) : Memory.wf s.takeCrush := by
  unfold State.takeCrush
  extract_lets +onlyGivenNames c
  exact foldl_wf _ _ ((modSeq_wf ..).trans h) (fun _ _ h1 => (setReg_wf ..).trans h1)

theorem applyPending_wf (h : Memory.wf s) : Memory.wf s.applyPending := by
  unfold State.applyPending
  extract_lets +onlyGivenNames put s2
  have hput : ∀ s x1 x2, Memory.wf s → Memory.wf (put s x1 x2) := fun _ _ _ h1 => by
    unfold put
    split
    · exact h1
    · exact (setReg_wf ..).trans h1
  have h2 : Memory.wf s2 := hput _ _ _ (hput _ _ _ (hput _ _ _ h))
  exact (modSeq_wf ..).trans h2

theorem setLsexp_wf {v : Nat} (h : Memory.wf s) : Memory.wf (s.setLsexp v) := (setFld_wf ..).trans h

theorem sealedScale_wf (h : Memory.wf s) : Memory.wf (s.sealedScale x) := by
  unfold State.sealedScale
  extract_lets +onlyGivenNames s1
  have h1 : Memory.wf s1 := (modSeq_wf ..).trans h
  split
  · exact setLsexp_wf ((setFld_wf ..).trans h1)
  · extract_lets +onlyGivenNames clean grow e
    split
    · exact setLsexp_wf ((setFld_wf ..).trans h1)
    · extract_lets +onlyGivenNames s2
      have h2 : Memory.wf s2 := (setFld_wf ..).trans h1
      split
      · extract_lets +onlyGivenNames s3 s4
        have h3 : Memory.wf s3 := setLsexp_wf h2
        have h4 : Memory.wf s4 := (State.event_kept ..).wf h3
        split
        · exact allShifts_wf h4
        · exact h4
      · exact setLsexp_wf h2

theorem floorSkip_wf (h : Memory.wf s) : Memory.wf s.floorSkip := by
  unfold State.floorSkip
  split
  · extract_lets +onlyGivenNames n
    exact (State.event_kept ..).wf ((modSeq_wf ..).trans h)
  · exact (modSeq_wf ..).trans h

theorem skippedScale_wf (h : Memory.wf s) : Memory.wf s.skippedScale := by
  unfold State.skippedScale
  extract_lets +onlyGivenNames s1 s2
  have h1 : Memory.wf s1 := floorSkip_wf ((setFld_wf ..).trans ((State.count_kept ..).wf h))
  have h2 : Memory.wf s2 := ite_wf (setLsexp_wf ((State.event_kept ..).wf h1)) (setLsexp_wf h1)
  exact (State.event_kept ..).wf h2

theorem fallBackRules_wf (h : Memory.wf s) : Memory.wf s.fallBackRules := by
  unfold State.fallBackRules
  extract_lets +onlyGivenNames w s1 _ _ s2
  have h1 : Memory.wf s1 := (modSeq_wf ..).trans h
  have h2 : Memory.wf s2 :=
    ite_wf (ite_wf ((State.event_kept ..).wf ((modSeq_wf ..).trans ((modSeq_wf ..).trans h1)))
      ((modSeq_wf ..).trans h1)) (ite_wf ((modSeq_wf ..).trans h1) h1)
  exact (setFld_wf ..).trans (settleFallBack_wf h2)

theorem evaluateClass_wf (h : Memory.wf s) : Memory.wf (s.evaluateClass c) := by
  unfold State.evaluateClass
  extract_lets +onlyGivenNames t n
  split
  · exact h
  · extract_lets +onlyGivenNames exceeds s1
    have h1 : Memory.wf s1 := foldl_wf _ _ h (fun _ _ h2 => (setFld_wf ..).trans h2)
    split
    · exact h1
    · extract_lets +onlyGivenNames s3
      have h3 : Memory.wf s3 := (State.event_kept ..).wf h1
      split
      · exact (State.event_kept ..).wf ((setFld_wf ..).trans h3)
      · exact h3

theorem evaluateBlotter_wf (h : Memory.wf s) : Memory.wf s.evaluateBlotter :=
  foldl_wf _ _ h (fun _ _ h1 => evaluateClass_wf h1)

theorem freshBuckets_wf (h : Memory.wf s) : Memory.wf (s.freshBuckets x step) := by
  unfold State.freshBuckets
  extract_lets +onlyGivenNames old s1 s2 es as s4 s5
  have h1 : Memory.wf s1 := (modSeq_wf ..).trans h
  have h2 : Memory.wf s2 := foldl_wf _ _ h1 (fun _ _ h3 => (State.clearKstat_kept ..).wf ((State.setBucket_kept ..).wf h3))
  have h4 : Memory.wf s4 := (modSeq_wf ..).trans h2
  have h5 : Memory.wf s5 := foldl_wf _ _ h4 (fun _ _ h6 => modRange_wf h6)
  exact foldl_wf _ _ h5 (fun _ _ h7 => (State.modBucket_kept ..).wf h7)

theorem beginStep_wf (h : Memory.wf s) : Memory.wf (s.beginStep x step) := by
  unfold State.beginStep
  extract_lets +onlyGivenNames s1 s2 s3
  have h1 : Memory.wf s1 := (setReg_wf ..).trans h
  have h2 : Memory.wf s2 := (modSeq_wf ..).trans h1
  have h3 : Memory.wf s3 := ite_wf (clearFlagMaps_wf h2) h2
  exact (State.writeStatus_kept ..).wf (freshBuckets_wf h3)

/-! ## Sys2Proof/Machine/Checkpoint.lean -/

theorem bucketRecords_wf {e : BucketEnt} (h : Memory.wf s) : Memory.wf (s.bucketRecords x e b).1 := by
  unfold State.bucketRecords
  extract_lets +onlyGivenNames ps step r
  have hr : Memory.wf r.1 := foldl_fst_wf _ _ h (fun _ _ h1 => (by
    unfold step
    split
    · next e2 => exact wf_fst e2 (read_wf h1 _ _ _)
    · next e3 _ => exact wf_fst e3 (read_wf h1 _ _ _)))
  split
  · exact hr
  · split
    · next e4 => exact wf_fst e4 (read_wf hr _ _ _)
    · next e5 _ => exact wf_fst e5 (read_wf hr _ _ _)

theorem ckRecords_wf (h : Memory.wf s) : Memory.wf (s.ckRecords x).1 :=
  foldl_fst_wf _ _ h (fun _ _ h1 => by
    split
    · split
      · next e2 => exact wf_fst e2 (bucketRecords_wf h1)
      · next e3 => exact wf_fst e3 (bucketRecords_wf h1)
    · exact h1)

theorem nvmeBlock_wf {p : Prog} (h : Memory.wf s) : Memory.wf (s.nvmeBlock p).1 := by
  unfold State.nvmeBlock
  split
  · next e1 => exact wf_fst e1 ((State.readWords_tended ..).wf h)
  · next e2 => exact wf_fst e2 ((State.readWords_tended ..).wf h)

theorem nvmeWords_wf {k : NvmeBlock} {c : NvmeCmd} (h : Memory.wf s) : Memory.wf (s.nvmeWords k c).1 := by
  unfold State.nvmeWords
  extract_lets +onlyGivenNames cid
  split
  · exact (State.emit_kept ..).wf ((State.drawn_kept ..).wf ((State.drawn_kept ..).wf h))
  · exact (State.emit_kept ..).wf h

theorem nvmeBell_wf (h : Memory.wf s) : Memory.wf (s.nvmeBell va i).1 := by
  unfold State.nvmeBell
  split
  · next e1 => exact (State.emit_kept ..).wf (wf_fst e1 (write_wf h _ _ _ _))
  · next e2 => exact wf_fst e2 (write_wf h _ _ _ _)

theorem nvmeSubmit_wf {k : NvmeBlock} {cs : List NvmeCmd} (h : Memory.wf s) : Memory.wf (s.nvmeSubmit k cs).1 := by
  induction cs generalizing s with
  | nil => exact nvmeBell_wf h
  | cons c l ih =>
    unfold State.nvmeSubmit
    extract_lets y
    have hy : Memory.wf y.1 := nvmeWords_wf h
    split
    · next e1 => exact wf_fst e1 (write_wf hy ..)
    · next e2 => exact ih ((modSeq_wf ..).trans (wf_fst e2 (write_wf hy ..)))

theorem nvmeReap_wf (h : Memory.wf s) : Memory.wf (s.nvmeReap x).1 := by
  unfold State.nvmeReap
  split
  · next e1 => exact wf_fst e1 (nvmeBlock_wf h)
  · next e2 =>
      split
      · exact wf_fst e2 (nvmeBlock_wf h)
      · exact nvmeBell_wf ((modSeq_wf ..).trans (wf_fst e2 (nvmeBlock_wf h)))

theorem nvmeBegin_wf (h : Memory.wf s) : Memory.wf (s.nvmeBegin x).1 := by
  unfold State.nvmeBegin
  split
  · next e1 => exact wf_fst e1 (nvmeBlock_wf h)
  · next e2 =>
      split
      · next e3 => exact wf_fst e3 (ckRecords_wf (wf_fst e2 (nvmeBlock_wf h)))
      · next e4 =>
          extract_lets +onlyGivenNames img
          split
          · exact wf_fst e4 (ckRecords_wf (wf_fst e2 (nvmeBlock_wf h)))
          · exact nvmeSubmit_wf (wf_fst e4 (ckRecords_wf (wf_fst e2 (nvmeBlock_wf h))))

theorem startCheckpoint_wf (h : Memory.wf s) : Memory.wf (s.startCheckpoint x) := by
  unfold State.startCheckpoint
  extract_lets +onlyGivenNames y
  have hy : Memory.wf y.1 := by
    unfold y
    split
    · exact nvmeBegin_wf h
    · exact h
  exact (modSeq_wf ..).trans hy

theorem nvmeHeader_wf (h : Memory.wf s) : Memory.wf (s.nvmeHeader x).1 := by
  unfold State.nvmeHeader
  split
  · next e1 => exact wf_fst e1 (nvmeBlock_wf h)
  · next e2 =>
      split
      · next e3 => exact wf_fst e3 (ckRecords_wf (wf_fst e2 (nvmeBlock_wf h)))
      · next e4 => exact nvmeSubmit_wf (wf_fst e4 (ckRecords_wf (wf_fst e2 (nvmeBlock_wf h))))

theorem saveCheckpoint_wf (h : Memory.wf s) : Memory.wf (s.saveCheckpoint x).1 := by
  unfold State.saveCheckpoint
  split
  · next e1 => exact wf_fst e1 (ckRecords_wf h)
  · next e2 =>
      split
      · next e3 => exact wf_fst e3 (write_wf (wf_fst e2 (ckRecords_wf h)) _ _ _ _)
      · next e4 =>
          split
          · next e5 => exact wf_fst e5 (write_wf (wf_fst e4 (write_wf (wf_fst e2 (ckRecords_wf h)) _ _ _ _)) _ _ _ _)
          · next e6 => exact wf_fst e6 (write_wf (wf_fst e4 (write_wf (wf_fst e2 (ckRecords_wf h)) _ _ _ _)) _ _ _ _)

theorem readRecords_wf (h : Memory.wf s) : Memory.wf (s.readRecords k va).1 := by
  induction k generalizing s va with
  | zero => exact h
  | succ k ih =>
    unfold State.readRecords
    split
    · next e1 => exact wf_fst e1 (read_wf h ..)
    · next e1 =>
      have h1 := wf_fst e1 (read_wf h ..)
      extract_lets w n
      split
      · next e2 => exact wf_fst e2 (read_wf h1 ..)
      · next e2 =>
        have h2 := wf_fst e2 (read_wf h1 ..)
        split
        · exact h2
        · extract_lets r
          split
          · exact h2
          · split
            · next e3 => exact wf_fst e3 (ih h2)
            · next e3 => exact wf_fst e3 (ih h2)

theorem readCheckpoint_wf (h : Memory.wf s) : Memory.wf (s.readCheckpoint x va).1 := by
  unfold State.readCheckpoint
  split
  · next e1 => exact wf_fst e1 (read_wf h _ _ _)
  · next e2 =>
      extract_lets +onlyGivenNames w
      split
      · exact wf_fst e2 (read_wf h _ _ _)
      · extract_lets +onlyGivenNames n
        split
        · next e3 => exact wf_fst e3 (readRecords_wf (wf_fst e2 (read_wf h _ _ _)))
        · next e4 =>
            split
            · split
              · exact wf_fst e4 (readRecords_wf (wf_fst e2 (read_wf h _ _ _)))
              · exact wf_fst e4 (readRecords_wf (wf_fst e2 (read_wf h _ _ _)))
            · exact wf_fst e4 (readRecords_wf (wf_fst e2 (read_wf h _ _ _)))

theorem restoreRecord_wf {r : CkRead} (h : Memory.wf s) : Memory.wf (s.restoreRecord x r) := by
  unfold State.restoreRecord
  split
  · exact h
  · split
    · exact put_wf h _ _ _
    · exact put_wf h _ _ _

theorem putF8_wf {e : BucketEnt} {xs : List Num} (h : Memory.wf s) : Memory.wf (s.putF8 x e xs) := by
  unfold State.putF8
  extract_lets +onlyGivenNames ts
  exact put_wf (put_wf h _ _ _) _ _ _

theorem encodeWeights_wf {e : BucketEnt} (h : Memory.wf s) : Memory.wf (s.encodeWeights x e b step) := by
  unfold State.encodeWeights
  extract_lets +onlyGivenNames np
  split
  · next e1 _ =>
      extract_lets +onlyGivenNames xs wide s22 s33
      have hs22 : Memory.wf s22 := ite_wf (put_wf (wf_fst e1 (read_wf h _ _ _)) _ _ _) (putF8_wf (wf_fst e1 (read_wf h _ _ _)))
      have hs33 : Memory.wf s33 := (modSeq_wf ..).trans hs22
      exact checkGathered_wf (gatherOut_wf hs33)
  · next e4 _ => exact wf_fst e4 (read_wf h _ _ _)

theorem encodeAll_wf (h : Memory.wf s) : Memory.wf (s.encodeAll x) :=
  eachBucket_wf h (fun _ _ h1 => by
    split
    · exact encodeWeights_wf h1
    · exact h1)

/-! ## Sys2Proof/Machine/Queues.lean -/

theorem modFetched_wf {f : Fetched → Fetched} (h : Memory.wf s) : Memory.wf (s.modFetched p q i f) :=
  (State.modPair_kept ..).wf h

theorem started_wf (h : Memory.wf s) : Memory.wf (s.started p q i) := modFetched_wf h

theorem finished_wf {flags : BitVec 4} {val cnt : Word} (h : Memory.wf s) :
    Memory.wf (s.finished p q i status flags val cnt) :=
  modFetched_wf h

theorem startDesc_wf {op : Nat} {f : State → Fetched → State} (h : Memory.wf s)
    (hf : ∀ s x, Memory.wf s → Memory.wf (f s x)) : Memory.wf (s.startDesc p q i op f) := by
  unfold State.startDesc
  split
  · exact h
  · split
    · exact h
    · split
      · exact finished_wf h
      · exact hf _ _ (started_wf h)

theorem markRead_wf {pf other : Bool} (h : Memory.wf s) : Memory.wf (s.markRead p q status pf other) := by
  unfold State.markRead
  split
  · exact finished_wf h
  · exact h

/-! ## Sys2Proof/Machine/SeqPump.lean -/

theorem boundary_wf (h : Memory.wf s) : Memory.wf (s.boundary x) := by
  unfold State.boundary
  extract_lets +onlyGivenNames n next y s1 s2 s3 s4 stall s5 s6 due stop s7 s8 s9 s10
  have hy : Memory.wf y.2 := snapshotFlags_wf h
  have h1 : Memory.wf s1 := takeCrush_wf ((modSeq_wf ..).trans hy)
  have h2 : Memory.wf s2 := applyPending_wf h1
  have h3 : Memory.wf s3 := ite_wf (skippedScale_wf h2) (sealedScale_wf h2)
  have h4 : Memory.wf s4 := evaluateBlotter_wf (fallBackRules_wf h3)
  have h5 : Memory.wf s5 := ite_wf ((State.event_kept ..).wf ((modSeq_wf ..).trans h4)) h4
  have h6 : Memory.wf s6 := (State.writeStatus_kept ..).wf h5
  have h7 : Memory.wf s7 := (modSeq_wf ..).trans h6
  have h8 : Memory.wf s8 := (modSeq_wf ..).trans h7
  have h9 : Memory.wf s9 := beginStep_wf (boundaryTest_wf h8)
  have h10 : Memory.wf s10 := ite_wf (startCheckpoint_wf h9) h9
  split
  · exact (State.halt_kept ..).wf h10
  · split
    · exact (State.writeStatus_kept ..).wf ((modSeq_wf ..).trans ((State.setSeqState_kept ..).wf h10))
    · exact h10

theorem runBegins_wf {u : BarUse} (h : Memory.wf s) : Memory.wf (s.runBegins x u) := by
  unfold State.runBegins
  extract_lets +onlyGivenNames s1 s2
  have h1 : Memory.wf s1 := (modSeq_wf ..).trans h
  have h2 : Memory.wf s2 := beginStep_wf h1
  split
  · exact h2
  · exact zeroGrads_wf h2
  · exact encodeAll_wf ((modSeq_wf ..).trans (zeroGrads_wf h2))

theorem barrierRule_wf {u : BarUse} (h : Memory.wf s) : ∀ t ∈ s.barrierRule x u, Memory.wf t := by
  unfold State.barrierRule
  extract_lets +onlyGivenNames kids
  split
  · exact some_wf (runBegins_wf h)
  · split
    · exact none_wf
    · split
      · exact some_wf ((State.send_kept ..).wf ((modSeq_wf ..).trans h))
      · exact some_wf (runBegins_wf (foldl_wf _ _ h (fun _ _ h1 => (State.send_kept ..).wf h1)))

theorem runRule_wf (h : Memory.wf s) : ∀ t ∈ s.runRule x, Memory.wf t := by
  unfold State.runRule
  split
  · exact some_wf ((modSeq_wf ..).trans h)
  · split
    · next e1 => exact some_wf ((passRule_wf h) _ e1)
    · split
      · next e2 => exact some_wf ((findSome_wf _ _ fun _ => (bucketRule_wf h)) _ e2)
      · split
        · next e3 => exact some_wf ((verdictRule_wf h) _ e3)
        · split
          · next e4 => exact some_wf ((updateRule_wf h) _ e4)
          · split
            · exact some_wf (boundary_wf h)
            · exact none_wf

theorem seqRule_wf (h : Memory.wf s) : ∀ t ∈ s.seqRule, Memory.wf t := by
  unfold State.seqRule
  split
  · exact none_wf
  · split
    · exact none_wf
    · split
      · exact (barrierRule_wf h)
      · split
        · exact (runRule_wf h)
        · exact some_wf (seqFault_wf ((modSeq_wf ..).trans h))
      · exact (runRule_wf h)

theorem pumpN_wf (h : Memory.wf s) : Memory.wf (State.pumpN k s) := by
  induction k generalizing s with
  | zero => exact h
  | succ k ih =>
    unfold State.pumpN
    split
    · exact h
    · next e => exact ih (seqRule_wf h _ e)

theorem answerStops_wf (h : Memory.wf s) : Memory.wf s.answerStops := by
  unfold State.answerStops
  split
  · exact h
  · exact foldl_wf _ _ h (fun _ _ h1 => by
      split
      · exact h1
      · exact (State.hmRecord_kept ..).wf ((modSeq_wf ..).trans h1))

theorem pump_wf (h : Memory.wf s) : Memory.wf s.pump := by
  unfold State.pump
  split
  · exact (State.enterSafe_kept ..).wf h
  · split
    · exact answerStops_wf (pumpN_wf h)
    · exact h

theorem seqMseRecord_wf {t : SeqTag} {y : DieRec} (h : Memory.wf s) : Memory.wf (s.seqMseRecord t y) := by
  unfold State.seqMseRecord
  split
  · exact h
  · split
    · exact h
    · split
      · exact rangeRecord_wf h (fun _ _ h1 => rangeOpened_wf h1)
      · exact rangeRecord_wf h (fun _ _ h2 => rangeCleared_wf h2)
      · exact rangeRecord_wf h (fun _ _ h3 => rangeFinished_wf h3)
      · exact rangeRecord_wf h (fun _ _ h4 => rangeClosed_wf h4)
      · split
        · exact (modSeq_wf ..).trans h
        · split
          · exact seqMseOne_wf h
          · exact h
      · exact copyRecord_wf h
      · exact copyRecord_wf h
      · exact h
      · exact h

theorem counterStep_wf {k : Counter} {die : Nat} (h : Memory.wf s) : Memory.wf (s.counterStep x k die status) := by
  unfold State.counterStep
  extract_lets +onlyGivenNames left st s1
  have h1 : Memory.wf s1 := (modSeq_wf ..).trans h
  split
  · split
    · exact updateDone_wf h1
    · exact h1
  · split
    · exact seqFault_wf h1
    · split
      · exact passDone_wf h1
      · exact h1

theorem upFrom_wf {n : BitVec 16} {v : Verdict} (h : Memory.wf s) : Memory.wf (s.upFrom n step v) := by
  unfold State.upFrom
  split
  · exact h
  · exact (modSeq_wf ..).trans h

theorem downFrom_wf {n : BitVec 16} {v : Verdict} (h : Memory.wf s) : Memory.wf (s.downFrom n step v) := by
  unfold State.downFrom
  split
  · exact h
  · split
    · exact releaseDown_wf h
    · exact h

theorem replayOrder_wf {leader : Bool} (h : Memory.wf s) : Memory.wf (s.replayOrder x leader) := by
  unfold State.replayOrder
  split
  · exact h
  · split
    · exact replayHere_wf h
    · split
      · exact replayHere_wf ((State.drawn_kept ..).wf h)
      · exact (State.drawn_kept ..).wf h

theorem replayingFrom_wf {n replica : BitVec 16} (h : Memory.wf s) : Memory.wf (s.replayingFrom n replica) := by
  unfold State.replayingFrom
  split
  · exact h
  · extract_lets +onlyGivenNames leader
    split
    · exact h
    · extract_lets +onlyGivenNames s1
      have h1 : Memory.wf s1 := ite_wf (ite_wf h (announceReplay_wf h)) ((State.messageDown_kept ..).wf h)
      split
      · exact replayOrder_wf h1
      · exact h1

theorem haltstepFrom_wf {n : BitVec 16} {arg : Nat} (h : Memory.wf s) : Memory.wf (s.haltstepFrom n arg) := by
  unfold State.haltstepFrom
  split
  · exact h
  · extract_lets +onlyGivenNames leader now s1
    have h1 : Memory.wf s1 := ite_wf ((modSeq_wf ..).trans ((State.messageDown_kept ..).wf h)) h
    exact (State.haltHere_kept ..).wf h1

theorem gatheredFrom_wf {n : BitVec 16} {arg : Nat} (h : Memory.wf s) : Memory.wf (s.gatheredFrom n arg) := by
  unfold State.gatheredFrom
  split
  · exact h
  · extract_lets +onlyGivenNames e
    exact checkGathered_wf ((modSeq_wf ..).trans h)

theorem seqLost_wf {p : Packet} (h : Memory.wf s) : Memory.wf (s.seqLost p) := by
  unfold State.seqLost
  split
  · exact h
  · split
    · split
      · exact h
      · split
        · exact h
        · split
          · exact h
          · split
            · exact h
            · split
              · exact (State.halt_kept ..).wf h
              · extract_lets +onlyGivenNames _ s1
                have h1 : Memory.wf s1 := (State.setBucket_kept ..).wf h
                exact (State.control_kept ..).wf ((modSeq_wf ..).trans h1)
    · split
      · extract_lets +onlyGivenNames key
        split
        · exact (State.halt_kept ..).wf h
        · extract_lets +onlyGivenNames pay
          exact (State.send_kept ..).wf ((modSeq_wf ..).trans h)
      · exact h

theorem leaveRun_wf (h : Memory.wf s) : Memory.wf s.leaveRun := by
  unfold State.leaveRun
  extract_lets +onlyGivenNames s1 drop s5 s7 s8
  have h1 : Memory.wf s1 := ite_wf ((State.event_kept ..).wf h) h
  have hdrop : ∀ s x1, Memory.wf s → Memory.wf (drop s x1) := fun _ _ h2 => by
    unfold drop
    extract_lets +onlyGivenNames s3 s4
    have h3 : Memory.wf s3 := seqTakeBack_wf h2
    have h4 : Memory.wf s4 := modMse_wf h3
    split
    · exact (setFld_wf ..).trans h4
    · exact h4
  have h5 : Memory.wf s5 := foldl_wf _ _ h1 (fun _ _ h6 => hdrop _ _ h6)
  have h7 : Memory.wf s7 := modDma_wf h5
  have h8 : Memory.wf s8 := by
    unfold s8
    split
    · exact h7
    · exact eachBucket_wf h7 (fun _ _ h9 => by
        split
        · exact foldl_wf _ _ h9 (fun _ _ h10 => by
            split
            · exact h10
            · exact h10
            · exact h10
            · exact seqMse_wf h10)
        · exact h9)
  exact (modSeq_wf ..).trans h8

theorem leaveForRetry_wf {p : Prog} (h : Memory.wf s) : Memory.wf (s.leaveForRetry p) := by
  unfold State.leaveForRetry
  extract_lets +onlyGivenNames n owed wanted t1 t2
  have ht1 : Memory.wf t1 := leaveRun_wf ((modSeq_wf ..).trans h)
  have ht2 : Memory.wf t2 := modDma_wf ht1
  exact (modSeq_wf ..).trans ht2

theorem enterRun_wf {u : BarUse} (h : Memory.wf s) : Memory.wf (s.enterRun u step) := by
  unfold State.enterRun
  extract_lets +onlyGivenNames s1 s2 s3
  have h1 : Memory.wf s1 := (Memory.wf_congr rfl rfl rfl).trans h
  have h2 : Memory.wf s2 := (setFld_wf ..).trans ((State.setSeqState_kept ..).wf h1)
  have h3 : Memory.wf s3 := (setReg_wf ..).trans h2
  exact (State.writeStatus_kept ..).wf ((modSeq_wf ..).trans h3)

/-! ## Sys2Proof/Machine/Matrix.lean -/

theorem setHead_wf {d : QDesc} (h : Memory.wf s) : Memory.wf (s.setHead c e d) := modEng_wf h

theorem popHead_wf {bad : Bool} (h : Memory.wf s) : Memory.wf (s.popHead c e g bad) := by
  unfold State.popHead
  extract_lets +onlyGivenNames s1
  have h1 : Memory.wf s1 := modEng_wf h
  exact wakeTissue_wf (descDone_wf h1)

theorem queueSample_wf {cl : Nat} {x : BlotSample} (h : Memory.wf s) : Memory.wf (s.queueSample cl x) := by
  unfold State.queueSample
  split
  · exact (Memory.wf_congr rfl rfl rfl).trans h
  · exact (State.count_kept ..).wf h

theorem sampleTiles_wf {done : State} {d : TileDesc} {src : Nat × Nat} (h : Memory.wf s) :
    Memory.wf (s.sampleTiles done c d src) :=
  foldl_wf _ _ h (fun _ _ h1 => foldl_wf _ _ h1 (fun _ _ h2 => by
    split
    · split
      · exact queueSample_wf h2
      · exact h2
    · exact h2))

theorem putLocal_wf {l : List (Nat × Byte)} (h : Memory.wf s) : Memory.wf (s.putLocal c l) :=
  foldl_wf _ _ h (fun _ _ h1 => setLocalByte_wf h1 _ _ _)

theorem runMma_wf {q : QDesc} {d : TileDesc} (h : Memory.wf s) : Memory.wf (s.runMma c e q d) := by
  unfold State.runMma
  split
  · exact setHead_wf h
  · extract_lets +onlyGivenNames bank outs kept new skipped cpFlags s11 s22
    have hs11 : Memory.wf s11 := modEng_wf h
    have hs22 : Memory.wf s22 := setHead_wf hs11
    split
    · split
      · exact sampleTiles_wf hs22
      · exact hs22
    · exact hs22

theorem readAndRun_wf {q : QDesc} {d : TileDesc} (h : Memory.wf s) : Memory.wf (s.readAndRun c e q d) := by
  unfold State.readAndRun
  extract_lets +onlyGivenNames y
  have hy : Memory.wf y.1 := (State.meetWords_tended ..).wf h
  split
  · exact hy
  · split
    · exact runMma_wf hy
    · exact setHead_wf (modEng_wf hy)

theorem execMma_wf (h : Memory.wf s) : KeepsForm (execMma c e s) :=
  answer_wf h (fun _ h1 => by
    split
    · exact h1
    · extract_lets +onlyGivenNames d
      split
      · exact h1
      · split
        · exact popHead_wf h1
        · extract_lets +onlyGivenNames st
          split
          · exact readAndRun_wf h1
          · exact setHead_wf h1)

theorem execTileNop_wf (h : Memory.wf s) : KeepsForm (execTileNop c e s) :=
  answer_wf h (fun _ h1 => by
    split
    · exact h1
    · extract_lets +onlyGivenNames d
      split
      · exact h1
      · split
        · exact popHead_wf h1
        · exact setHead_wf h1)

theorem flushBlocks_wf {q : QDesc} (h : Memory.wf s) : Memory.wf (s.flushBlocks c e q) :=
  (State.raiseEng_kept ..).wf (putLocal_wf h)

theorem descRecord_wf {q : QDesc} (h : Memory.wf s) : Memory.wf (s.descRecord c q) := by
  unfold State.descRecord
  extract_lets +onlyGivenNames d
  exact setLocalBytes_wf h _ _ _

theorem execDescriptorComplete_wf (h : Memory.wf s) : KeepsForm (execDescriptorComplete c e s) :=
  answer_wf h (fun _ h1 => by
    extract_lets +onlyGivenNames x
    split
    · exact h1
    · split
      · exact h1
      · extract_lets +onlyGivenNames d q1
        split
        · exact popHead_wf h1
        · extract_lets +onlyGivenNames s12 s23 s34
          have hs12 : Memory.wf s12 := ite_wf (flushBlocks_wf h1) h1
          have hs23 : Memory.wf s23 := descRecord_wf hs12
          have hs34 : Memory.wf s34 := by
            unfold s34
            split
            · exact failItem_wf hs23
            · exact hs23
          exact popHead_wf hs34)

theorem execEngineIdle_wf (h : Memory.wf s) : KeepsForm (execEngineIdle c e s) :=
  answer_wf h (fun _ h1 => by
    split
    · exact modEng_wf h1
    · exact h1)

theorem execBlotterSampleComplete_wf {cl : Nat} (h : Memory.wf s) : KeepsForm (execBlotterSampleComplete cl s) :=
  answer_wf h (fun _ h1 => by
    split
    · exact h1
    · split
      · exact h1
      · extract_lets +onlyGivenNames s12
        have hs12 : Memory.wf s12 := (Memory.wf_congr rfl rfl rfl).trans h1
        split
        · exact (State.count_kept ..).wf hs12
        · exact (State.count_kept ..).wf hs12)

theorem nibRecord_wf {r : Recomp} {cls level : Nat} (h : Memory.wf s) : Memory.wf (s.nibRecord c e r cls level) :=
  (State.record_kept ..).wf h

theorem faultHead_wf {blk : Nat} (h : Memory.wf s) : Memory.wf (s.faultHead c e blk) := by
  unfold State.faultHead
  split
  · exact h
  · extract_lets +onlyGivenNames d kept q1
    exact setHead_wf (flushBlocks_wf h)

theorem escalate_wf {r : Recomp} {core : Bool} (h : Memory.wf s) : Memory.wf (s.escalate c e r core) := by
  unfold State.escalate
  extract_lets +onlyGivenNames s1
  have h1 : Memory.wf s1 := (State.count_kept ..).wf (faultHead_wf h)
  split
  · extract_lets +onlyGivenNames n s2 s3
    have h2 : Memory.wf s2 := nibRecord_wf h1
    have h3 : Memory.wf s3 := by
      unfold s3
      split
      · exact descRecord_wf h2
      · exact h2
    exact coreError_wf h3 _ _
  · exact engineFail_wf (nibRecord_wf h1)

theorem execChunkMismatch_wf {m : NibMismatch} (h : Memory.wf s) : KeepsForm (execChunkMismatch c e m s) :=
  answer_wf h (fun _ h1 => by
    extract_lets +onlyGivenNames x
    split
    · exact h1
    · extract_lets +onlyGivenNames d
      split
      · exact h1
      · split
        · exact h1
        · split
          · exact h1
          · extract_lets +onlyGivenNames r
            split
            · exact escalate_wf h1
            · exact modEng_wf h1)

theorem retireNib_wf {row col : Nat} (h : Memory.wf s) : Memory.wf (s.retireNib p e row col) := by
  unfold State.retireNib
  extract_lets +onlyGivenNames s1 s2
  have h1 : Memory.wf s1 := (modSlot_wf ..).trans h
  have h2 : Memory.wf s2 := by
    unfold s2
    split
    · exact (setFld_wf ..).trans h1
    · exact (setFld_wf ..).trans h1
  exact cellarChanged_wf ((State.count_kept ..).wf h2)

theorem recomputed_wf (h : Memory.wf s) : Memory.wf (s.recomputed c e n) := modEng_wf h

theorem execRecomputationComplete_wf {r : RecompResult} (h : Memory.wf s) : KeepsForm (execRecomputationComplete c e r s) :=
  answer_wf h (fun _ h1 => by
    split
    · exact h1
    · split
      · exact h1
      · extract_lets +onlyGivenNames p used remap
        have hremap : ∀ s, Memory.wf s → Memory.wf (remap s) := fun _ h2 => retireNib_wf (nibRecord_wf h2)
        split
        · exact recomputed_wf (nibRecord_wf ((State.count_kept ..).wf h1))
        · split
          · exact escalate_wf (recomputed_wf h1)
          · exact recomputed_wf (hremap _ h1)
        · exact escalate_wf h1
        · split
          · exact escalate_wf (recomputed_wf h1)
          · exact escalate_wf (recomputed_wf (hremap _ h1)))

/-! ## Sys2Proof/Machine/MseOps.lean -/

theorem mseWrites_wf {upd : Bool} {r : MseRes} {ws : List (Nat × List Byte)} (h : Memory.wf s) :
    Memory.wf (s.mseWrites k upd r ws).1 := by
  induction ws generalizing s with
  | nil => exact h
  | cons e l ih =>
    unfold State.mseWrites
    split
    · next e1 => exact wf_fst e1 (write_wf h ..)
    · next e2 => exact ih (wf_fst e2 (write_wf h ..))

theorem mseTile_wf {base f t : Nat} (h : Memory.wf s) : Memory.wf (s.mseTile k base f t).1 := read_wf h _ _ _

theorem mseTileEntry_wf {base f sp t : Nat} (h : Memory.wf s) : Memory.wf (s.mseTileEntry k base f sp t).1 := by
  unfold State.mseTileEntry
  split
  · next e1 => exact wf_fst e1 (mseTile_wf h)
  · next e2 =>
      split
      · exact wf_fst e2 (mseTile_wf h)
      · split
        · next e3 => exact wf_fst e3 (read_wf (wf_fst e2 (mseTile_wf h)) _ _ _)
        · next e4 => exact wf_fst e4 (read_wf (wf_fst e2 (mseTile_wf h)) _ _ _)

theorem mseTileOp_wf {c : MseCmd} {r : MseRes} {t : Nat} (h : Memory.wf s) : Memory.wf (s.mseTileOp k c r t).1 := by
  unfold State.mseTileOp
  extract_lets +onlyGivenNames out
  have hout : ∀ s x1 x2 x3 x4, Memory.wf s → Memory.wf (out s x1 x2 x3 x4).1 := fun _ _ _ _ _ h1 => mseWrites_wf h1
  split
  · split
    · exact hout _ _ _ _ _ h
    · extract_lets +onlyGivenNames y
      exact hout _ _ _ _ _ h
  · split
    · next e2 => exact wf_fst e2 (mseTileEntry_wf h)
    · next e3 =>
        split
        · extract_lets +onlyGivenNames y
          exact wf_fst e3 (mseTileEntry_wf h)
        · extract_lets +onlyGivenNames y
          exact hout _ _ _ _ _ (wf_fst e3 (mseTileEntry_wf h))
        · extract_lets +onlyGivenNames y
          exact hout _ _ _ _ _ (wf_fst e3 (mseTileEntry_wf h))
        · extract_lets +onlyGivenNames d
          split
          · exact hout _ _ _ _ _ (wf_fst e3 (mseTileEntry_wf h))
          · exact hout _ _ _ _ _ (wf_fst e3 (mseTileEntry_wf h))
        · extract_lets +onlyGivenNames r1
          split
          · dsimp only
            exact foldl_wf _ _ (wf_fst e3 (mseTileEntry_wf h)) (fun _ _ h4 => (State.count_kept ..).wf h4)
          · split
            · next e5 => exact wf_fst e5 (mseTile_wf (wf_fst e3 (mseTileEntry_wf h)))
            · next e6 =>
                split
                · exact (State.count_kept ..).wf (wf_fst e6 (mseTile_wf (wf_fst e3 (mseTileEntry_wf h))))
                · exact (State.count_kept ..).wf (wf_fst e6 (mseTile_wf (wf_fst e3 (mseTileEntry_wf h))))

theorem mseTiles_wf {c : MseCmd} {r : MseRes} {ts : List Nat} (h : Memory.wf s) : Memory.wf (s.mseTiles k c r ts).1 := by
  have hdef := Eq.refl State.mseTiles
  conv_rhs at hdef => delta State.mseTiles State.mseTiles._f
  have hop := @mseTileOp_wf
  obtain ⟨op, e⟩ : ∃ f, f = State.mseTileOp := ⟨_, rfl⟩
  rw [← e] at hdef hop
  rw [hdef]
  apply listRec_wf (h := h)
  · exact fun _ _ _ h => h
  · intro t l b s r ih h
    dsimp only
    split
    · exact ih _ _ (hop h)
    · exact hop h

theorem mseTensor_wf {c : MseCmd} (h : Memory.wf s) : Memory.wf (s.mseTensor k c).1 := by
  unfold State.mseTensor
  extract_lets +onlyGivenNames y s1
  have hy : Memory.wf y.1 := mseTiles_wf h
  have h1 : Memory.wf s1 := (State.raiseMse_kept ..).wf hy
  split
  · exact (State.count_kept ..).wf h1
  · exact h1

theorem loseGranule_wf (h : Memory.wf s) : Memory.wf (s.loseGranule k) := (setFld_wf ..).trans h

theorem mseWord_wf {corrected again : Bool} (h : Memory.wf s) : Memory.wf (s.mseWord k va corrected again) := by
  unfold State.mseWord
  extract_lets +onlyGivenNames cls s1
  have h1 : Memory.wf s1 := (State.drawn_kept ..).wf ((State.record_kept ..).wf h)
  split
  · exact loseGranule_wf h1
  · exact h1

theorem meetRange_wf {r : ARange} {lo : Nat} (h : Memory.wf s) : Memory.wf (s.meetRange k r lo n).1 := by
  unfold State.meetRange
  extract_lets +onlyGivenNames met
  exact foldl_wf _ _ h (fun _ _ h1 => mseWord_wf h1)

theorem showSram_wf {free : Nat} (h : Memory.wf s) : Memory.wf (s.showSram k free) :=
  (setFld_wf ..).trans ((setFld_wf ..).trans h)

theorem openSeed_wf {c : MseCmd} {ts : List Nat} (h : Memory.wf s) : Memory.wf (s.openSeed k c ts).1 := by
  induction ts generalizing s with
  | nil => exact h
  | cons t l ih =>
    unfold State.openSeed
    split
    · next e1 => exact wf_fst e1 (mseTile_wf h)
    · next e2 _ => exact ih (feed_wf (wf_fst e2 (mseTile_wf h)))
    · next e3 _ => exact wf_fst e3 (mseTile_wf h)

theorem openHere_wf {c : MseCmd} (h : Memory.wf s) : Memory.wf (s.openHere k c).1 := by
  unfold State.openHere
  extract_lets +onlyGivenNames home free r s1
  have h1 : Memory.wf s1 := showSram_wf (modMse_wf h)
  split
  · exact h1
  · extract_lets +onlyGivenNames before y f
    have hy : Memory.wf y.1 := openSeed_wf ((setReg_wf ..).trans h1)
    exact (setReg_wf ..).trans hy

theorem freeRange_wf {r : ARange} (h : Memory.wf s) : Memory.wf (s.freeRange k r) := by
  unfold State.freeRange
  extract_lets +onlyGivenNames free
  exact showSram_wf (modMse_wf h)

theorem clearHere_wf {r : ARange} (h : Memory.wf s) : Memory.wf (s.clearHere k r) := modMse_wf h

theorem mapBit_wf {dsp t : Nat} {v upd : Bool} {r : MseRes} (h : Memory.wf s) : Memory.wf (s.mapBit k dsp t v upd r).1 := by
  unfold State.mapBit
  extract_lets +onlyGivenNames va
  split
  · next e1 => exact wf_fst e1 (read_wf h _ _ _)
  · next e2 => exact mseWrites_wf (wf_fst e2 (read_wf h _ _ _))

theorem finishTiles_wf {c : MseCmd} {x : ARange} {r : MseRes} {ts : List Nat} (h : Memory.wf s) :
    Memory.wf (s.finishTiles k c x r ts).1 := by
  induction ts generalizing s r with
  | nil => exact h
  | cons t l ih =>
    unfold State.finishTiles
    extract_lets o y z
    have hy : Memory.wf y.1 := mseWrites_wf h
    have hz : Memory.wf z.1 := by
      unfold z
      split
      · exact hy
      · exact mapBit_wf hy
    split
    · exact hy
    · split
      · exact hz
      · exact ih hz

theorem finishHere_wf {c : MseCmd} {x : ARange} (h : Memory.wf s) : Memory.wf (s.finishHere k c x).1 := by
  unfold State.finishHere
  extract_lets +onlyGivenNames m s1 x1 was r y
  have hm : Memory.wf m.1 := meetRange_wf h
  have h1 : Memory.wf s1 := hm
  have hy : Memory.wf y.1 := by
    unfold y
    split
    · exact h1
    · exact finishTiles_wf h1
  exact freeRange_wf ((State.raiseMse_kept ..).wf hy)

theorem rangeCmd_wf {c : MseCmd} (h : Memory.wf s) : Memory.wf (s.rangeCmd k c).1 := by
  unfold State.rangeCmd
  split
  · exact h
  · split
    · exact h
    · split
      · exact clearHere_wf h
      · split
        · exact freeRange_wf h
        · split
          · exact h
          · extract_lets +onlyGivenNames m
            split
            · exact logFault_wf h _ _ _
            · exact h
            · split
              · exact h
              · exact finishHere_wf h

theorem homeFor_wf (h : Memory.wf s) : Memory.wf (s.homeFor l va).1 := by
  unfold State.homeFor
  split
  · extract_lets +onlyGivenNames w
    have hw : Memory.wf w.1 := (State.readWalk_tended ..).wf h
    split
    · exact hw
    · exact logFault_wf hw _ _ _
  · extract_lets +onlyGivenNames w
    have hw : Memory.wf w.1 := (State.readWalk_tended ..).wf h
    split
    · exact hw
    · split
      · exact hw
      · exact logFault_wf hw _ _ _

theorem contribute_wf {p : Packet} (h : Memory.wf s) : Memory.wf (s.contribute l p).1 := by
  unfold State.contribute
  extract_lets +onlyGivenNames va
  split
  · next e1 => exact wf_fst e1 (homeFor_wf h)
  · next e2 =>
      split
      · exact wf_fst e2 (homeFor_wf h)
      · split
        · exact (State.count_kept ..).wf (wf_fst e2 (homeFor_wf h))
        · extract_lets +onlyGivenNames es m s13
          have hm : Memory.wf m.1 := meetRange_wf (wf_fst e2 (homeFor_wf h))
          have hs13 : Memory.wf s13 := feed_wf hm
          split
          · exact seqCount_wf hs13
          · exact hs13

theorem feedHeld_wf (h : Memory.wf s) : Memory.wf (s.feedHeld k) :=
  foldl_wf _ _ h (fun _ _ h1 => by
    extract_lets +onlyGivenNames y done
    have hy : Memory.wf y.1 := contribute_wf h1
    have hdone : ∀ s, Memory.wf s → Memory.wf (done s) := fun _ h2 => unbuffer_wf (modMse_wf h2)
    split
    · exact hy
    · exact hdone _ (refuse_wf hy)
    · exact hdone _ hy)

theorem queueResult_wf {flags : BitVec 4} {value count : Word} (h : Memory.wf s) :
    Memory.wf (s.queueResult p q i k st flags value count) :=
  modFetched_wf h

theorem mseAppend_wf {w : List DWord} (h : Memory.wf s) : Memory.wf (s.mseAppend k r p q i w) := by
  unfold State.mseAppend
  split
  · exact queueResult_wf h
  · split
    · exact modMse_wf h
    · extract_lets +onlyGivenNames at_
      split
      · next e1 => exact queueResult_wf (wf_fst e1 (ringPush_wf h))
      · next e2 => exact modMse_wf (wf_fst e2 (ringPush_wf h))

theorem retryAppend_wf (h : Memory.wf s) : Memory.wf (s.retryAppend k r) := by
  unfold State.retryAppend
  split
  · split
    · exact h
    · extract_lets +onlyGivenNames l s11 s22
      have hs11 : Memory.wf s11 := modMse_wf h
      have hs22 : Memory.wf s22 := mseAppend_wf hs11
      exact modMse_wf hs22
  · exact h

theorem mseFetch_wf (h : Memory.wf s) : Memory.wf (s.mseFetch k r).1 := by
  have hdef := Eq.refl State.mseFetch
  conv_rhs at hdef => delta State.mseFetch
  have hread := @ringRead_wf
  obtain ⟨read, e⟩ : ∃ f, f = State.ringRead := ⟨_, rfl⟩
  rw [← e] at hdef hread
  rw [hdef]
  beta_reduce
  split
  · next e1 => exact wf_fst e1 (hread h)
  · next e1 => exact wf_fst e1 (hread h)

theorem msePop_wf (h : Memory.wf s) : Memory.wf (s.msePop k r) := by
  unfold State.msePop
  extract_lets +onlyGivenNames i s1 s2
  have h1 : Memory.wf s1 := modMse_wf h
  have h2 : Memory.wf s2 := retryAppend_wf (ringPop_wf h1)
  split
  · exact seqRetry_wf h2
  · exact h2

theorem cplCheck_wf {cpl : Nat} (h : Memory.wf s) : Memory.wf (s.cplCheck k cpl).1 := by
  unfold State.cplCheck
  extract_lets +onlyGivenNames t1
  have ht1 : Memory.wf t1 := ite_wf h ((State.walkRanges_tended ..).wf h)
  exact ht1

theorem mseWalks_wf {c : MseCmd} (h : Memory.wf s) : Memory.wf (s.mseWalks k c).1 := (State.walkRanges_tended ..).wf h

theorem mseRan_wf {op cpl : Nat} {is : Issuer} {y : MseRes} (h : Memory.wf s) : Memory.wf (s.mseRan k r op cpl is y) := by
  unfold State.mseRan
  extract_lets +onlyGivenNames s1
  have h1 : Memory.wf s1 := modMse_wf h
  exact (setFld_wf ..).trans h1

theorem mseRun_wf {c : MseCmd} (h : Memory.wf s) : Memory.wf (s.mseRun k c).1 := by
  unfold State.mseRun
  split
  · exact logFault_wf h _ _ _
  · exact h
  · split
    · exact h
    · exact mseTensor_wf h

theorem openRun_wf {c : MseCmd} (h : Memory.wf s) : ∀ r ∈ s.openRun k c, Memory.wf r.1 := by
  unfold State.openRun
  split
  · exact some_fst_wf (logFault_wf h _ _ _)
  · exact some_fst_wf h
  · split
    · exact some_fst_wf h
    · split
      · exact none_fst_wf
      · extract_lets +onlyGivenNames y
        have hy : Memory.wf y.1 := openHere_wf h
        exact some_fst_wf (feedHeld_wf hy)

theorem mseAct_wf {c : MseCmd} {run : State → MseCmd → Option (State × MseRes)} (h : Memory.wf s)
    (hrun : ∀ s x, Memory.wf s → ∀ r ∈ run s x, Memory.wf r.1) : ∀ r ∈ s.mseAct k c run, Memory.wf r.1 := by
  unfold State.mseAct
  split
  · next e1 => exact some_fst_wf (wf_fst e1 (mseWalks_wf h))
  · next e2 => exact (hrun _ _ (wf_fst e2 (mseWalks_wf h)))

theorem mseTake_wf {ok : Nat → Bool} {run : State → MseCmd → Option (State × MseRes)} (h : Memory.wf s)
    (hrun : ∀ s x, Memory.wf s → ∀ r ∈ run s x, Memory.wf r.1) : Memory.wf (s.mseTake k r ok run) := by
  have hdef := Eq.refl State.mseTake
  conv_rhs at hdef => delta State.mseTake
  have hfetch := @mseFetch_wf
  have hcheck := @cplCheck_wf
  obtain ⟨fetch, ef⟩ : ∃ f, f = State.mseFetch := ⟨_, rfl⟩
  obtain ⟨check, ec⟩ : ∃ f, f = State.cplCheck := ⟨_, rfl⟩
  rw [← ef] at hdef hfetch
  rw [← ec] at hdef hcheck
  rw [hdef]
  beta_reduce
  split
  · next e1 => exact modMse_wf (wf_fst e1 (hfetch h))
  · next e1 =>
    have h1 := wf_fst e1 (hfetch h)
    extract_lets c
    split
    · exact h
    · split
      · next e2 => exact showOpenWait_wf (logFault_wf (msePop_wf (wf_fst e2 (ite_fst_wf (hcheck h1) h1))) ..)
      · next e2 =>
        have h2 := wf_fst e2 (ite_fst_wf (hcheck h1) h1)
        split
        · exact showOpenWait_wf (modMse_wf h2)
        · next e3 => exact showOpenWait_wf (mseRan_wf (msePop_wf (mseAct_wf h2 hrun _ e3)))

theorem mseDo_wf {ok : Nat → Bool} {run : State → MseCmd → Option (State × MseRes)} (h : Memory.wf s)
    (hrun : ∀ s x, Memory.wf s → ∀ r ∈ run s x, Memory.wf r.1) : Memory.wf (s.mseDo k r ok run) := by
  unfold State.mseDo
  split
  · exact onDie_wf h (ite_wf (pump_wf (mseTake_wf h (fun _ _ h1 => (hrun _ _ h1)))) h)
  · exact h

theorem execMseNop_wf (h : Memory.wf s) : KeepsForm (execMseNop k r s) :=
  answer_wf h (fun _ h1 => mseDo_wf h1 (fun _ _ h2 => some_fst_wf (mseRun_wf h2)))

theorem execMseAmax_wf (h : Memory.wf s) : KeepsForm (execMseAmax k r s) :=
  answer_wf h (fun _ h1 => mseDo_wf h1 (fun _ _ h2 => some_fst_wf (mseRun_wf h2)))

theorem execMseEncode_wf (h : Memory.wf s) : KeepsForm (execMseEncode k r s) :=
  answer_wf h (fun _ h1 => mseDo_wf h1 (fun _ _ h2 => some_fst_wf (mseRun_wf h2)))

theorem execMseWiden_wf (h : Memory.wf s) : KeepsForm (execMseWiden k r s) :=
  answer_wf h (fun _ h1 => mseDo_wf h1 (fun _ _ h2 => some_fst_wf (mseRun_wf h2)))

theorem execMseFill_wf (h : Memory.wf s) : KeepsForm (execMseFill k r s) :=
  answer_wf h (fun _ h1 => mseDo_wf h1 (fun _ _ h2 => some_fst_wf (mseRun_wf h2)))

theorem execMseCopy_wf (h : Memory.wf s) : KeepsForm (execMseCopy k r s) :=
  answer_wf h (fun _ h1 => mseDo_wf h1 (fun _ _ h2 => some_fst_wf (mseRun_wf h2)))

theorem execMseHist_wf (h : Memory.wf s) : KeepsForm (execMseHist k r s) :=
  answer_wf h (fun _ h1 => mseDo_wf h1 (fun _ _ h2 => some_fst_wf (mseRun_wf h2)))

theorem execOpenRange_wf (h : Memory.wf s) : KeepsForm (execOpenRange k r s) :=
  answer_wf h (fun _ h1 => mseDo_wf h1 (fun _ _ h2 => (openRun_wf h2)))

theorem execClearRange_wf (h : Memory.wf s) : KeepsForm (execClearRange k r s) :=
  answer_wf h (fun _ h1 => mseDo_wf h1 (fun _ _ h2 => some_fst_wf (rangeCmd_wf h2)))

theorem execFinishRange_wf (h : Memory.wf s) : KeepsForm (execFinishRange k r s) :=
  answer_wf h (fun _ h1 => mseDo_wf h1 (fun _ _ h2 => some_fst_wf (rangeCmd_wf h2)))

theorem execCloseRange_wf (h : Memory.wf s) : KeepsForm (execCloseRange k r s) :=
  answer_wf h (fun _ h1 => mseDo_wf h1 (fun _ _ h2 => some_fst_wf (rangeCmd_wf h2)))

theorem execOpenWaitEnd_wf (h : Memory.wf s) : KeepsForm (execOpenWaitEnd k r s) :=
  answer_wf h (fun _ h1 => by
    split
    · extract_lets +onlyGivenNames s02
      have hs02 : Memory.wf s02 := modMse_wf h1
      split
      · exact pump_wf (mseTake_wf hs02 (fun _ _ h3 => (openRun_wf h3)))
      · exact showOpenWait_wf hs02
    · exact h1)

theorem mseDeliver_wf {d : MseDone} (h : Memory.wf s) : Memory.wf (s.mseDeliver k d) := by
  unfold State.mseDeliver
  split
  · split
    · exact h
    · exact put_wf h _ _ _
  · exact pump_wf (seqMseRecord_wf h)
  · exact queueResult_wf h

theorem mseFree_wf (h : Memory.wf s) : Memory.wf (s.mseFree k) := (setFld_wf ..).trans (modMse_wf h)

theorem mseComplete_wf (h : Memory.wf s) : Memory.wf (s.mseComplete k r) := by
  unfold State.mseComplete
  split
  · exact h
  · split
    · exact h
    · exact mseDeliver_wf (mseFree_wf h)

theorem execMseCommandComplete_wf (h : Memory.wf s) : KeepsForm (execMseCommandComplete k r s) :=
  answer_wf h (fun _ h1 => by
    split
    · exact mseComplete_wf h1
    · exact h1)

theorem mseTailWrite_wf (h : Memory.wf s) : Memory.wf (s.mseTailWrite k r v) := ringTailWrite_wf h

theorem execMseRtailWrite_wf (h : Memory.wf s) : KeepsForm (execMseRtailWrite port k r v s) :=
  answer_wf h (fun _ h1 => bar0Write_wf h1 (fun _ h2 => mseTailWrite_wf h2))

theorem notOpen_wf (h : Memory.wf s) : Memory.wf (s.notOpen k) := by
  unfold State.notOpen
  split
  · exact h
  · extract_lets +onlyGivenNames s1
    have h1 : Memory.wf s1 := unbuffer_wf (modMse_wf h)
    exact pump_wf (seqNotOpen_wf ((State.count_kept ..).wf h1))

theorem execNotopenTimeout_wf (h : Memory.wf s) : KeepsForm (execNotopenTimeout k s) :=
  answer_wf h (fun _ h1 => by
    split
    · exact notOpen_wf h1
    · exact h1)

/-! ## Sys2Proof/Machine/DmaOps.lean -/

theorem dmaWalks_wf {c : DmaCmd} (h : Memory.wf s) : Memory.wf (s.dmaWalks c).1 := (State.walkRanges_tended ..).wf h

theorem gaRead_wf {ga : Nat} (h : Memory.wf s) : Memory.wf (s.gaRead n ga k).1 := by
  unfold State.gaRead
  split
  · extract_lets +onlyGivenNames p
    split
    · exact (State.drawn_kept ..).wf h
    · split
      · exact (State.readFailed_kept ..).wf ((State.drawn_kept ..).wf h)
      · exact (State.drawn_kept ..).wf h
  · exact read_wf h _ _ _

theorem gaWrite_wf {upd : Bool} {ga : Nat} {b : List Byte} (h : Memory.wf s) : Memory.wf (s.gaWrite n upd ga b).1 := by
  unfold State.gaWrite
  split
  · extract_lets +onlyGivenNames p
    split
    · exact setHostBytes_wf h _ _ _
    · exact h
  · exact write_wf h _ _ _ _

theorem fetchPieces_wf {got : Sparse Byte} {ps : List (Nat × Nat)} (h : Memory.wf s) :
    Memory.wf (s.fetchPieces n got ps).1 := by
  induction ps generalizing s with
  | nil => exact h
  | cons e r ih =>
    unfold State.fetchPieces
    extract_lets y
    have hy : Memory.wf y.1 := ite_fst_wf h (gaRead_wf h)
    clear_value y
    obtain ⟨s1, e1 | b⟩ := y
    · exact hy
    · dsimp only
      split
      · next e2 => exact wf_fst e2 (ih hy)
      · next e2 => exact wf_fst e2 (ih hy)

theorem sendWrites_wf {b : DmaBusy} {ps : List (Nat × Nat)} {bytes : List Byte} (h : Memory.wf s) :
    Memory.wf (s.sendWrites n b ps bytes).1 := by
  induction ps generalizing s b bytes with
  | nil => exact h
  | cons e r ih => exact ih ((State.inject_kept ..).wf h)

theorem sendMasked_wf {b : DmaBusy} {ps : List (Nat × BitVec 16 × List Byte)} (h : Memory.wf s) :
    Memory.wf (s.sendMasked n b ps).1 := by
  induction ps generalizing s b with
  | nil => exact h
  | cons e r ih => exact ih ((State.inject_kept ..).wf h)

theorem storePieces_wf {b : DmaBusy} {ps : List (Nat × Nat)} {bytes : List Byte} (h : Memory.wf s) :
    Memory.wf (s.storePieces n b ps bytes).1 := by
  induction ps generalizing s b bytes with
  | nil => exact h
  | cons e r ih =>
    unfold State.storePieces
    extract_lets y
    have hy : Memory.wf y.1 := by
      unfold y
      split
      · exact sendWrites_wf h
      · split
        · next e1 => exact wf_fst e1 (gaWrite_wf h)
        · next e2 => exact wf_fst e2 (gaWrite_wf h)
    split
    · exact hy
    · exact ih hy

theorem dmaMoveAll_wf {b : DmaBusy} {ms : List DMove} (h : Memory.wf s) : Memory.wf (s.dmaMoveAll n b ms).1 := by
  induction ms generalizing s b with
  | nil => exact h
  | cons m r ih =>
    unfold State.dmaMoveAll
    split
    · next e1 => exact wf_fst e1 (fetchPieces_wf h)
    · next e2 =>
      extract_lets y
      have hy : Memory.wf y.1 := storePieces_wf (wf_fst e2 (fetchPieces_wf h))
      split
      · exact hy
      · exact ih hy

theorem dmaAsk_wf {b : DmaBusy} {need : List (Nat × Nat)} (h : Memory.wf s) : Memory.wf (s.dmaAsk n b need).1 := by
  have hdef := Eq.refl State.dmaAsk
  conv_rhs at hdef => delta State.dmaAsk State.dmaAsk._f
  have hread := @startRead_wf
  obtain ⟨read, e⟩ : ∃ f, f = State.startRead := ⟨_, rfl⟩
  rw [← e] at hdef hread
  rw [hdef]
  apply listRec_wf (h := h)
  · exact fun _ _ _ h => h
  · intro p r b s ids ih h
    dsimp only
    split
    · exact h
    · next e1 => exact ih _ _ (hread h _ e1)

theorem dmaMove_wf {b : DmaBusy} (h : Memory.wf s) : Memory.wf (s.dmaMove n b).1 := by
  unfold State.dmaMove
  extract_lets +onlyGivenNames ms y made was b1
  have hy : Memory.wf y.1 := dmaMoveAll_wf h
  split
  · exact hy
  · exact dmaAsk_wf hy

theorem setBusy_wf {b : DmaBusy} (h : Memory.wf s) : Memory.wf (s.setBusy n b) := modDma_wf h

theorem dmaShifts_wf {b : DmaBusy} (h : Memory.wf s) : Memory.wf (s.dmaShifts n b).1 := by
  unfold State.dmaShifts
  split
  · next e1 => exact wf_fst e1 (gaRead_wf h)
  · next e2 =>
      extract_lets +onlyGivenNames y
      have hy : Memory.wf y.1 := sendMasked_wf (wf_fst e2 (gaRead_wf h))
      split
      · exact hy
      · exact dmaAsk_wf hy

theorem dmaStart_wf {index : Nat} {c : DmaCmd} {is : Issuer} (h : Memory.wf s) : Memory.wf (s.dmaStart n index c is) := by
  unfold State.dmaStart
  extract_lets +onlyGivenNames s1 b
  have h1 : Memory.wf s1 := (setFld_wf ..).trans h
  split
  · extract_lets +onlyGivenNames y
    have hy : Memory.wf y.1 := dmaShifts_wf h1
    exact setBusy_wf hy
  · split
    · next e2 => exact setBusy_wf (wf_fst e2 (dmaWalks_wf h1))
    · next e3 =>
        split
        · extract_lets +onlyGivenNames s4 s5
          have h4 : Memory.wf s4 := by
            unfold s4
            split
            · exact logFault_wf (wf_fst e3 (dmaWalks_wf h1)) _ _ _
            · exact wf_fst e3 (dmaWalks_wf h1)
          have h5 : Memory.wf s5 := ite_wf ((State.count_kept ..).wf ((setFld_wf ..).trans ((setFld_wf ..).trans h4))) h4
          exact setBusy_wf h5
        · split
          · exact setBusy_wf (wf_fst e3 (dmaWalks_wf h1))
          · extract_lets +onlyGivenNames far y
            have hy : Memory.wf y.1 := by
              unfold y
              split
              · exact dmaMove_wf (wf_fst e3 (dmaWalks_wf h1))
              · exact dmaAsk_wf (wf_fst e3 (dmaWalks_wf h1))
            exact setBusy_wf hy

theorem dmaGoOn_wf {b : DmaBusy} (h : Memory.wf s) : Memory.wf (s.dmaGoOn n b).1 := by
  unfold State.dmaGoOn
  split
  · exact dmaMove_wf h
  · exact h

theorem dmaResponse_wf {pf other : Bool} {data : List Byte} (h : Memory.wf s) :
    Memory.wf (s.dmaResponse n id status pf other data) := by
  unfold State.dmaResponse
  split
  · exact h
  · split
    · exact h
    · extract_lets +onlyGivenNames b _ b1 y z
      have hy : Memory.wf y.1 := dmaAsk_wf h
      have hz : Memory.wf z.1 := dmaGoOn_wf hy
      exact setBusy_wf hz

theorem dmaCplCheck_wf {cpl : Nat} (h : Memory.wf s) : Memory.wf (s.dmaCplCheck cpl).1 := by
  unfold State.dmaCplCheck
  extract_lets +onlyGivenNames t1
  have ht1 : Memory.wf t1 := ite_wf ((State.walkRanges_tended ..).wf h) h
  exact ht1

theorem dmaTurn_wf {code : Nat} (h : Memory.wf s) : Memory.wf (s.dmaTurn n code) := modDma_wf h

theorem dmaTake_wf {ok : Nat → Bool} (h : Memory.wf s) : Memory.wf (s.dmaTake n ok) := by
  unfold State.dmaTake
  split
  · exact h
  · exact onDie_wf h (ite_wf h ((by
      split
      · split
        · exact h
        · exact dmaStart_wf (dmaTurn_wf (modDma_wf h))
      · split
        · exact h
        · extract_lets +onlyGivenNames i
          split
          · next e1 => exact modDma_wf (wf_fst e1 (ringRead_wf h))
          · next e2 =>
              extract_lets +onlyGivenNames c
              split
              · exact h
              · extract_lets +onlyGivenNames s23
                have hs23 : Memory.wf s23 := dmaTurn_wf (ringPop_wf (wf_fst e2 (ringRead_wf h)))
                split
                · next e4 => exact (setFld_wf ..).trans (logFault_wf (wf_fst e4 (dmaCplCheck_wf hs23)) _ _ _)
                · next e5 => exact dmaStart_wf (wf_fst e5 (dmaCplCheck_wf hs23)))))

theorem execDmaNop_wf (h : Memory.wf s) : KeepsForm (execDmaNop n s) := answer_wf h (fun _ h1 => dmaTake_wf h1)

theorem execDmaLinear_wf (h : Memory.wf s) : KeepsForm (execDmaLinear n s) := answer_wf h (fun _ h1 => dmaTake_wf h1)

theorem execDmaTile_wf (h : Memory.wf s) : KeepsForm (execDmaTile n s) := answer_wf h (fun _ h1 => dmaTake_wf h1)

theorem execDmaTileSkew_wf (h : Memory.wf s) : KeepsForm (execDmaTileSkew n s) := answer_wf h (fun _ h1 => dmaTake_wf h1)

theorem execDmaTileUnskew_wf (h : Memory.wf s) : KeepsForm (execDmaTileUnskew n s) := answer_wf h (fun _ h1 => dmaTake_wf h1)

theorem dmaTailWrite_wf (h : Memory.wf s) : Memory.wf (s.dmaTailWrite n v) := ringTailWrite_wf h

theorem execDmaChtailWrite_wf (h : Memory.wf s) : KeepsForm (execDmaChtailWrite port n v s) :=
  answer_wf h (fun _ h1 => bar0Write_wf h1 (fun _ h2 => dmaTailWrite_wf h2))

theorem readBack_wf {ps : List (Nat × Nat)} (h : Memory.wf s) : Memory.wf (s.readBack n ps).1 := by
  induction ps generalizing s with
  | nil => exact h
  | cons e r ih =>
    unfold State.readBack
    split
    · next e1 => exact wf_fst e1 (gaRead_wf h)
    · next e2 => exact ih (wf_fst e2 (gaRead_wf h))

theorem dmaReadBack_wf {b : DmaBusy} {linkFail : Bool} (h : Memory.wf s) : Memory.wf (s.dmaReadBack n b linkFail).1 := by
  unfold State.dmaReadBack
  split
  · exact h
  · extract_lets +onlyGivenNames y far
    have hy : Memory.wf y.1 := readBack_wf h
    split
    · exact hy
    · split
      · exact hy
      · exact hy

theorem dmaEnd_wf {b : DmaBusy} (h : Memory.wf s) : Memory.wf (s.dmaEnd n b) := by
  unfold State.dmaEnd
  extract_lets +onlyGivenNames s1 s2
  have h1 : Memory.wf s1 := (setFld_wf ..).trans (modDma_wf h)
  have h2 : Memory.wf s2 := (setFld_wf ..).trans h1
  split
  · exact put_wf h2 _ _ _
  · exact pump_wf (gatherDone_wf h2)
  · exact pump_wf (gatherDone_wf h2)
  · exact h2
  · exact finished_wf h2

theorem dmaComplete_wf {linkFail : Bool} (h : Memory.wf s) : Memory.wf (s.dmaComplete n linkFail) := by
  unfold State.dmaComplete
  split
  · exact h
  · extract_lets +onlyGivenNames y
    have hy : Memory.wf y.1 := dmaAsk_wf h
    split
    · exact setBusy_wf hy
    · extract_lets +onlyGivenNames z
      have hz : Memory.wf z.1 := dmaReadBack_wf hy
      exact dmaEnd_wf hz

theorem execDmaComplete_wf {linkFail : Bool} (h : Memory.wf s) : KeepsForm (execDmaComplete n linkFail s) :=
  answer_wf h (fun _ h1 => by
    split
    · exact dmaComplete_wf h1
    · exact h1)

/-! ## Sys2Proof/Machine/SeqCmds.lean -/

theorem readTable_wf {α : Type} {f : List DWord → α} (h : Memory.wf s) : Memory.wf (s.readTable va n k f).1 := by
  unfold State.readTable
  split
  · next e1 => exact wf_fst e1 ((State.readWords_tended ..).wf h)
  · next e2 => exact wf_fst e2 ((State.readWords_tended ..).wf h)

theorem readTables_wf {w : List DWord} {p : Prog} (h : Memory.wf s) : Memory.wf (s.readTables w p).1 := by
  unfold State.readTables
  extract_lets +onlyGivenNames f m b t c l
  have hm : Memory.wf m.1 := readTable_wf h
  have hb : Memory.wf b.1 := readTable_wf hm
  have ht : Memory.wf t.1 := readTable_wf hb
  have hc : Memory.wf c.1 := readTable_wf ht
  have hl : Memory.wf l.1 := readTable_wf hc
  split
  · exact hl
  · exact hl

theorem cmdLoad_wf {arg : DWord} (h : Memory.wf s) : Memory.wf (s.cmdLoad arg).1 := by
  unfold State.cmdLoad
  split
  · exact h
  · split
    · next e1 => exact wf_fst e1 (read_wf h _ _ _)
    · next e2 =>
        extract_lets +onlyGivenNames w
        split
        · exact wf_fst e2 (read_wf h _ _ _)
        · split
          · exact wf_fst e2 (read_wf h _ _ _)
          · split
            · next e3 => exact wf_fst e3 (readTables_wf (wf_fst e2 (read_wf h _ _ _)))
            · next e4 =>
                split
                · exact wf_fst e4 (readTables_wf (wf_fst e2 (read_wf h _ _ _)))
                · split
                  · exact wf_fst e4 (readTables_wf (wf_fst e2 (read_wf h _ _ _)))
                  · extract_lets +onlyGivenNames s35 s46 s57
                    have hs35 : Memory.wf s35 :=
                      (modSeq_wf ..).trans (leaveRun_wf (wf_fst e4 (readTables_wf (wf_fst e2 (read_wf h _ _ _)))))
                    have hs46 : Memory.wf s46 := settleFallBack_wf ((setFld_wf ..).trans ((State.setSeqState_kept ..).wf hs35))
                    have hs57 : Memory.wf s57 := (setReg_wf ..).trans ((setReg_wf ..).trans hs46)
                    exact (State.writeStatus_kept ..).wf hs57

theorem loadLimits_wf {p : Prog} (h : Memory.wf s) : Memory.wf (s.loadLimits p) := by
  unfold State.loadLimits
  extract_lets +onlyGivenNames s1 s2
  have h1 : Memory.wf s1 := (setFld_wf ..).trans ((setFld_wf ..).trans h)
  have h2 : Memory.wf s2 := (setFld_wf ..).trans ((setFld_wf ..).trans h1)
  exact (modSeq_wf ..).trans ((setFld_wf ..).trans h2)

theorem setSeed_wf {v : DWord} (h : Memory.wf s) : Memory.wf (s.setSeed v) := (setReg_wf ..).trans ((setReg_wf ..).trans h)

theorem cmdStart_wf {arg : DWord} (h : Memory.wf s) : Memory.wf (s.cmdStart arg).1 := by
  unfold State.cmdStart
  split
  · exact h
  · split
    · exact h
    · extract_lets +onlyGivenNames s1 s2 s3
      have h1 : Memory.wf s1 := setSeed_wf (loadLimits_wf h)
      have h2 : Memory.wf s2 := (setReg_wf ..).trans ((setFld_wf ..).trans h1)
      have h3 : Memory.wf s3 := (modSeq_wf ..).trans ((setReg_wf ..).trans h2)
      exact enterRun_wf (settleFallBack_wf h3)

theorem restoreHeader_wf {w : List DWord} (h : Memory.wf s) : Memory.wf (s.restoreHeader w) := by
  unfold State.restoreHeader
  extract_lets +onlyGivenNames f s1 s2 s3 auto_
  have h1 : Memory.wf s1 := (setFld_wf ..).trans ((setFld_wf ..).trans h)
  have h2 : Memory.wf s2 := (setFld_wf ..).trans ((setFld_wf ..).trans h1)
  have h3 : Memory.wf s3 := (setReg_wf ..).trans (setSeed_wf h2)
  exact settleFallBack_wf ((modSeq_wf ..).trans h3)

theorem cmdResume_wf {arg : DWord} (h : Memory.wf s) : Memory.wf (s.cmdResume arg).1 := by
  unfold State.cmdResume
  split
  · exact h
  · split
    · exact h
    · split
      · next e1 => exact wf_fst e1 (readCheckpoint_wf h)
      · next e2 =>
          extract_lets +onlyGivenNames s23 s34
          have hs23 : Memory.wf s23 := loadLimits_wf (leaveRun_wf (wf_fst e2 (readCheckpoint_wf h)))
          have hs34 : Memory.wf s34 := restoreHeader_wf (foldl_wf _ _ hs23 (fun _ _ h5 => restoreRecord_wf h5))
          exact enterRun_wf hs34

theorem cmdRetry_wf (h : Memory.wf s) : Memory.wf s.cmdRetry.1 := by
  unfold State.cmdRetry
  split
  · exact h
  · split
    · exact h
    · dsimp only
      exact enterRun_wf (leaveForRetry_wf h)

theorem cmdPause_wf (h : Memory.wf s) : Memory.wf s.cmdPause.1 := by
  unfold State.cmdPause
  split
  · exact (modSeq_wf ..).trans h
  · exact h

theorem cmdContinue_wf (h : Memory.wf s) : Memory.wf s.cmdContinue.1 := by
  unfold State.cmdContinue
  split
  · exact (State.writeStatus_kept ..).wf ((State.setSeqState_kept ..).wf h)
  · exact h

theorem cmdHalt_wf (h : Memory.wf s) : Memory.wf s.cmdHalt.1 := by
  unfold State.cmdHalt
  split
  · exact (State.halt_kept ..).wf h
  · exact h

theorem cmdCheckpoint_wf (h : Memory.wf s) : Memory.wf s.cmdCheckpoint.1 := by
  unfold State.cmdCheckpoint
  split
  · exact (modSeq_wf ..).trans h
  · split
    · split
      · exact startCheckpoint_wf h
      · exact h
    · exact h

theorem cmdUnload_wf (h : Memory.wf s) : Memory.wf s.cmdUnload.1 := by
  unfold State.cmdUnload
  split
  · extract_lets +onlyGivenNames s1
    have h1 : Memory.wf s1 :=
      (State.writeStatus_kept ..).wf ((setFld_wf ..).trans ((State.setSeqState_kept ..).wf (leaveRun_wf h)))
    exact settleFallBack_wf ((modSeq_wf ..).trans h1)
  · exact h

theorem drainedFrom_wf {n : BitVec 16} (h : Memory.wf s) : Memory.wf (s.drainedFrom x n b) := by
  unfold State.drainedFrom
  extract_lets +onlyGivenNames st
  exact drained_wf (modRange_wf h)

theorem stopFrom_wf {owner : BitVec 16} (h : Memory.wf s) : Memory.wf (s.stopFrom x owner b step) := by
  unfold State.stopFrom
  extract_lets +onlyGivenNames st s1
  have h1 : Memory.wf s1 := ite_wf ((State.modBucket_kept ..).wf h) h
  exact (modSeq_wf ..).trans h1

theorem hmDeliver_wf {w0 w1 : DWord} (h : Memory.wf s) : Memory.wf (s.hmDeliver w0 w1) := by
  unfold State.hmDeliver
  split
  · exact h
  · extract_lets +onlyGivenNames src b tag step arg
    split
    · exact h
    · split
      · exact cleanFrom_wf h
      · exact upFrom_wf h
      · exact downFrom_wf h
      · exact retractFrom_wf h
      · exact retractFrom_wf h
      · exact retractFrom_wf h
      · exact resendFrom_wf h
      · exact answerStops_wf (stopFrom_wf h)
      · exact drainedFrom_wf h
      · exact h

theorem cmdHmput_wf {w0 w1 : DWord} (h : Memory.wf s) : Memory.wf (s.cmdHmput w0 w1).1 := by
  unfold State.cmdHmput
  split
  · exact hmDeliver_wf h
  · exact h

theorem runSeqCmd_wf {code : Nat} {arg w0 w1 : DWord} (h : Memory.wf s) : Memory.wf (s.runSeqCmd code arg w0 w1) := by
  unfold State.runSeqCmd
  extract_lets +onlyGivenNames y s11
  have hy : Memory.wf y.1 := by
    unfold y
    split
    · exact cmdLoad_wf h
    · exact cmdStart_wf h
    · exact cmdResume_wf h
    · exact cmdPause_wf h
    · exact cmdContinue_wf h
    · exact cmdHalt_wf h
    · exact cmdRetry_wf h
    · exact cmdCheckpoint_wf h
    · exact cmdUnload_wf h
    · exact cmdHmput_wf h
    · exact h
  have hs11 : Memory.wf s11 := (setFld_wf ..).trans hy
  split
  · exact hs11
  · split
    · exact (State.halt_kept ..).wf hs11
    · exact pump_wf hs11

theorem seqCmdWrite_wf {code : Nat} (h : Memory.wf s) : Memory.wf (s.seqCmdWrite code) := by
  unfold State.seqCmdWrite
  split
  · exact (setFld_wf ..).trans h
  · split
    · exact (modSeq_wf ..).trans ((setFld_wf ..).trans h)
    · exact runSeqCmd_wf h

theorem seqBar0_wf {code : Nat} (h : Memory.wf s) : Memory.wf (s.seqBar0 port code) :=
  bar0Write_wf h (fun _ h1 => seqCmdWrite_wf h1)

theorem seqReady_wf (h : Memory.wf s) : Memory.wf s.seqReady := by
  unfold State.seqReady
  split
  · exact h
  · extract_lets +onlyGivenNames s1
    have h1 : Memory.wf s1 := (modSeq_wf ..).trans ((setFld_wf ..).trans h)
    exact runSeqCmd_wf h1

theorem seqDesc_wf {d : Fetched} (h : Memory.wf s) : Memory.wf (s.seqDesc p q i d) := by
  unfold State.seqDesc
  extract_lets +onlyGivenNames code s11
  have hs11 : Memory.wf s11 := runSeqCmd_wf (started_wf h)
  exact finished_wf hs11

theorem seqRow_wf {code : Nat} (h : Memory.wf s) : Memory.wf (s.seqRow src code) := by
  unfold State.seqRow
  split
  · exact seqBar0_wf h
  · split
    · exact h
    · split
      · exact h
      · split
        · exact finished_wf h
        · exact seqDesc_wf h

theorem execSeqLoad_wf (h : Memory.wf s) : KeepsForm (execSeqLoad src s) := answer_wf h (fun _ h1 => seqRow_wf h1)

theorem execSeqStart_wf (h : Memory.wf s) : KeepsForm (execSeqStart src s) := answer_wf h (fun _ h1 => seqRow_wf h1)

theorem execSeqResume_wf (h : Memory.wf s) : KeepsForm (execSeqResume src s) := answer_wf h (fun _ h1 => seqRow_wf h1)

theorem execSeqPause_wf (h : Memory.wf s) : KeepsForm (execSeqPause src s) := answer_wf h (fun _ h1 => seqRow_wf h1)

theorem execSeqContinue_wf (h : Memory.wf s) : KeepsForm (execSeqContinue src s) := answer_wf h (fun _ h1 => seqRow_wf h1)

theorem execSeqHalt_wf (h : Memory.wf s) : KeepsForm (execSeqHalt src s) := answer_wf h (fun _ h1 => seqRow_wf h1)

theorem execSeqRetry_wf (h : Memory.wf s) : KeepsForm (execSeqRetry src s) := answer_wf h (fun _ h1 => seqRow_wf h1)

theorem execSeqCheckpoint_wf (h : Memory.wf s) : KeepsForm (execSeqCheckpoint src s) := answer_wf h (fun _ h1 => seqRow_wf h1)

theorem execSeqUnload_wf (h : Memory.wf s) : KeepsForm (execSeqUnload src s) := answer_wf h (fun _ h1 => seqRow_wf h1)

theorem execSeqHmput_wf (h : Memory.wf s) : KeepsForm (execSeqHmput src s) := answer_wf h (fun _ h1 => seqRow_wf h1)

theorem execCounterIncrement_wf {die cnt : Nat} (h : Memory.wf s) : KeepsForm (execCounterIncrement die cnt s) :=
  answer_wf h (fun _ h1 => by
    split
    · split
      · exact pump_wf (counterStep_wf h1)
      · exact h1
    · exact h1)

theorem endCheckpoint_wf {ok : Bool} (h : Memory.wf s) : Memory.wf (s.endCheckpoint ok) := by
  unfold State.endCheckpoint
  extract_lets +onlyGivenNames s1 s2
  have h1 : Memory.wf s1 := (modSeq_wf ..).trans h
  have h2 : Memory.wf s2 := ite_wf ((State.event_kept ..).wf ((modSeq_wf ..).trans h1)) ((State.event_kept ..).wf h1)
  exact (State.writeStatus_kept ..).wf h2

theorem checkpointStep_wf {ok : Bool} (h : Memory.wf s) : Memory.wf (s.checkpointStep x ok) := by
  unfold State.checkpointStep
  split
  · extract_lets +onlyGivenNames y
    have hy : Memory.wf y.1 := by
      unfold y
      split
      · exact saveCheckpoint_wf h
      · exact h
    exact endCheckpoint_wf hy
  · extract_lets +onlyGivenNames y
    have hy : Memory.wf y.1 := nvmeReap_wf h
    split
    · exact endCheckpoint_wf hy
    · split
      · exact endCheckpoint_wf hy
      · extract_lets +onlyGivenNames z
        have hz : Memory.wf z.1 := nvmeHeader_wf hy
        split
        · exact (modSeq_wf ..).trans hz
        · exact endCheckpoint_wf hz

theorem execCheckpointWriteComplete_wf {ok : Bool} (h : Memory.wf s) : KeepsForm (execCheckpointWriteComplete ok s) :=
  answer_wf h (fun _ h1 => by
    split
    · split
      · exact pump_wf (checkpointStep_wf h1)
      · exact h1
    · exact h1)

theorem execSealTimeout_wf (h : Memory.wf s) : KeepsForm (execSealTimeout s) :=
  answer_wf h (fun _ h1 => by
    split
    · split
      · exact (State.halt_kept ..).wf h1
      · exact h1
    · exact h1)

theorem execHmTimeout_wf (h : Memory.wf s) : KeepsForm (execHmTimeout s) :=
  answer_wf h (fun _ h1 => by
    split
    · split
      · exact (State.halt_kept ..).wf h1
      · exact h1
    · exact h1)

theorem execHmReopenWaitEnd_wf {bucket : Nat} (h : Memory.wf s) : KeepsForm (execHmReopenWaitEnd bucket s) :=
  answer_wf h (fun _ h1 => by
    split
    · exact h1
    · split
      · exact h1
      · exact pump_wf (foldl_wf _ _ h1 (fun _ _ h2 => by
          split
          · split
            · exact modRange_wf h2
            · exact h2
          · exact h2)))

theorem execReplayingTimer_wf (h : Memory.wf s) : KeepsForm (execReplayingTimer s) :=
  answer_wf h (fun _ h1 => by
    split
    · split
      · exact foldl_wf _ _ h1 (fun _ _ h2 => (State.messageDown_kept ..).wf h2)
      · exact h1
    · exact h1)

theorem execStepStatusTimer_wf (h : Memory.wf s) : KeepsForm (execStepStatusTimer s) :=
  answer_wf h (fun _ h1 => by
    split
    · split
      · exact put_wf h1 _ _ _
      · exact h1
    · exact h1)

theorem drtailWrite_wf (h : Memory.wf s) : Memory.wf (s.drtailWrite v) := by
  unfold State.drtailWrite
  extract_lets +onlyGivenNames more
  exact pump_wf ((modSeq_wf ..).trans ((setReg_wf ..).trans h))

theorem execDrtailWrite_wf {hw : List HostWrite} (h : Memory.wf s) : KeepsForm (execDrtailWrite port v hw s) :=
  answer_wf h (fun _ h1 => bar0Write_wf (hostWrote_wf h1 _) (fun _ h2 => drtailWrite_wf h2))

/-! ## Sys2Proof/Machine/HostQueues.lean -/

theorem showOut_wf (h : Memory.wf s) : Memory.wf (s.showOut p q) := (setFld_wf ..).trans h

theorem setQState_wf {err : Nat} (h : Memory.wf s) : Memory.wf (s.setQState p q st err) :=
  (State.writeBlock_kept ..).wf ((setFld_wf ..).trans ((setFld_wf ..).trans h))

theorem enablePair_wf (h : Memory.wf s) : Memory.wf (s.enablePair p q v) := by
  unfold State.enablePair
  split
  · exact h
  · extract_lets +onlyGivenNames s1 s2
    have h1 : Memory.wf s1 := (setReg_wf ..).trans h
    have h2 : Memory.wf s2 := (setFld_wf ..).trans h1
    split
    · exact setQState_wf ((State.modPair_kept ..).wf h2)
    · exact setQState_wf ((State.modPair_kept ..).wf h2)

theorem execQueueEnable_wf {tgt : Nat} (h : Memory.wf s) : KeepsForm (execQueueEnable port tgt q v s) :=
  answer_wf h (fun _ h1 => by
    split
    · exact enablePair_wf h1
    · exact h1)

theorem claimedDue_wf (h : Memory.wf s) : Memory.wf (s.claimedDue p) := by
  unfold State.claimedDue
  split
  · exact h
  · exact (State.raiseAlert_kept ..).wf h

theorem pairDrained_wf (h : Memory.wf s) : Memory.wf (s.pairDrained p q) := by
  unfold State.pairDrained
  split
  · exact h
  · split
    · exact claimedDue_wf (setQState_wf h)
    · exact setQState_wf h

theorem disablePair_wf (h : Memory.wf s) : Memory.wf (s.disablePair p q) := by
  unfold State.disablePair
  split
  · exact h
  · extract_lets +onlyGivenNames rev s1
    have h1 : Memory.wf s1 := setQState_wf ((setFld_wf ..).trans h)
    exact pairDrained_wf (ite_wf (claimedDue_wf h1) h1)

theorem execQueueDisable_wf {tgt : Nat} (h : Memory.wf s) : KeepsForm (execQueueDisable port tgt q s) :=
  answer_wf h (fun _ h1 => bar0Write_wf h1 (fun _ h2 => disablePair_wf h2))

theorem sqBell_wf (h : Memory.wf s) : Memory.wf (s.sqBell p q v) := by
  unfold State.sqBell
  split
  · exact h
  · split
    · exact setQState_wf h
    · exact (State.modPair_kept ..).wf h

theorem cqBell_wf (h : Memory.wf s) : Memory.wf (s.cqBell p q v) := by
  unfold State.cqBell
  extract_lets +onlyGivenNames x n
  split
  · exact h
  · split
    · exact setQState_wf h
    · exact (State.modPair_kept ..).wf h

theorem execSqDoorbell_wf {hw : List HostWrite} (h : Memory.wf s) : KeepsForm (execSqDoorbell port q v hw s) :=
  answer_wf h (fun _ h1 => sqBell_wf (hostWrote_wf h1 _))

theorem execCqDoorbell_wf (h : Memory.wf s) : KeepsForm (execCqDoorbell port q v s) := answer_wf h (fun _ h1 => cqBell_wf h1)

theorem fetchDescs_wf (h : Memory.wf s) : Memory.wf (s.fetchDescs p q k) := by
  unfold State.fetchDescs
  extract_lets +onlyGivenNames x base new
  exact showOut_wf ((State.modPair_kept ..).wf h)

theorem descriptorFetch_wf (h : Memory.wf s) : Memory.wf (s.descriptorFetch p q fail) := by
  unfold State.descriptorFetch
  split
  · exact h
  · extract_lets +onlyGivenNames s1
    have h1 : Memory.wf s1 := (State.modPort_kept ..).wf h
    split
    · exact setQState_wf h1
    · split
      · exact setQState_wf ((State.readFailed_kept ..).wf h1)
      · exact fetchDescs_wf h1

theorem execDescriptorFetch_wf (h : Memory.wf s) : KeepsForm (execDescriptorFetch port q fail s) :=
  answer_wf h (fun _ h1 => descriptorFetch_wf h1)

theorem queueNop_wf (h : Memory.wf s) : Memory.wf (s.queueNop p q i) := by
  unfold State.queueNop
  split
  · exact h
  · extract_lets +onlyGivenNames op
    split
    · split
      · exact finished_wf h
      · exact finished_wf h
    · split
      · split
        · exact finished_wf h
        · exact seqDesc_wf h
      · exact h

theorem execQueueNop_wf (h : Memory.wf s) : KeepsForm (execQueueNop port q i s) := answer_wf h (fun _ h1 => queueNop_wf h1)

theorem moveFails_wf {c : DmaCmd} {is : Issuer} (h : Memory.wf s) : Memory.wf (s.moveFails n c is st) :=
  setBusy_wf ((setFld_wf ..).trans h)

theorem moveOn_wf {c : DmaCmd} {d : Fetched} {is : Issuer} {beyond : Bool} (h : Memory.wf s) :
    Memory.wf (s.moveOn n c d is beyond fail) := by
  unfold State.moveOn
  split
  · split
    · exact moveFails_wf h
    · exact dmaStart_wf h
  · split
    · exact moveFails_wf h
    · split
      · exact moveFails_wf h
      · extract_lets +onlyGivenNames s1
        have h1 : Memory.wf s1 := dmaStart_wf h
        split
        · exact modDma_wf h1
        · exact h1

theorem queueMove_wf (h : Memory.wf s) : Memory.wf (s.queueMove p q i fail) := by
  unfold State.queueMove
  extract_lets +onlyGivenNames n
  split
  · exact h
  · split
    · exact h
    · split
      · exact finished_wf h
      · split
        · exact h
        · exact moveOn_wf (dmaTurn_wf (started_wf h))

theorem execQueueMove_wf (h : Memory.wf s) : KeepsForm (execQueueMove port q i fail s) :=
  answer_wf h (fun _ h1 => queueMove_wf h1)

theorem queueMse_wf {d : Fetched} (h : Memory.wf s) : Memory.wf (s.queueMse p q i d) := by
  unfold State.queueMse
  extract_lets +onlyGivenNames cmd va
  split
  · exact finished_wf h
  · split
    · exact finished_wf h
    · split
      · next e1 => exact finished_wf (wf_fst e1 ((State.readWords_tended ..).wf h))
      · next e2 =>
          extract_lets +onlyGivenNames ks s23
          have hs23 : Memory.wf s23 := modFetched_wf (wf_fst e2 ((State.readWords_tended ..).wf h))
          exact foldl_wf _ _ hs23 (fun _ _ h4 => mseAppend_wf h4)

theorem execQueueMse_wf (h : Memory.wf s) : KeepsForm (execQueueMse port q i s) :=
  answer_wf h (fun _ h1 => startDesc_wf h1 (fun _ _ h2 => queueMse_wf h2))

theorem markFar_wf {a : Nat} {v : DWord} (h : Memory.wf s) : Memory.wf (s.markFar p q i a v) := by
  unfold State.markFar
  split
  · extract_lets +onlyGivenNames was w
    split
    · exact modFetched_wf h
    · next e1 => exact finished_wf (wf_fst e1 ((State.inject_kept ..).wf h))
    · next e2 =>
        split
        · next e3 => exact (startRead_wf (wf_fst e2 ((State.inject_kept ..).wf h))) _ e3
        · exact finished_wf (wf_fst e2 ((State.inject_kept ..).wf h))
  · exact h

theorem queueMark_wf {d : Fetched} (h : Memory.wf s) : Memory.wf (s.queueMark p q i d fail) := by
  unfold State.queueMark
  extract_lets +onlyGivenNames a
  split
  · exact finished_wf h
  · split
    · exact markFar_wf h
    · split
      · next e1 => exact finished_wf (wf_fst e1 (write_wf h _ _ _ _))
      · next e2 =>
          split
          · next e3 => exact finished_wf (wf_fst e3 (read_wf (wf_fst e2 (write_wf h _ _ _ _)) _ _ _))
          · next e4 => exact finished_wf (wf_fst e4 (read_wf (wf_fst e2 (write_wf h _ _ _ _)) _ _ _))

theorem execQueueMark_wf (h : Memory.wf s) : KeepsForm (execQueueMark port q i fail s) :=
  answer_wf h (fun _ h1 => startDesc_wf h1 (fun _ _ h2 => queueMark_wf h2))

theorem dropFetched_wf (h : Memory.wf s) : Memory.wf (s.dropFetched p q i) := showOut_wf ((State.modPair_kept ..).wf h)

theorem putCompletion_wf {d : Fetched} (h : Memory.wf s) : Memory.wf (s.putCompletion p q d) := by
  unfold State.putCompletion
  extract_lets +onlyGivenNames x a s1 s2
  have h1 : Memory.wf s1 := (State.modPair_kept ..).wf (setHostBytes_wf h _ _ _)
  have h2 : Memory.wf s2 := dropFetched_wf h1
  split
  · exact (State.writeBlock_kept ..).wf h2
  · exact h2

theorem queueComplete_wf (h : Memory.wf s) : Memory.wf (s.queueComplete p q i) := by
  unfold State.queueComplete
  split
  · exact h
  · split
    · exact pairDrained_wf (dropFetched_wf h)
    · split
      · exact h
      · exact pairDrained_wf (putCompletion_wf h)

theorem execQueueDescriptorComplete_wf (h : Memory.wf s) : KeepsForm (execQueueDescriptorComplete port q i s) :=
  answer_wf h (fun _ h1 => by
    split
    · exact queueComplete_wf h1
    · exact h1)

theorem execStatusBlockWrite_wf (h : Memory.wf s) : KeepsForm (execStatusBlockWrite port q s) :=
  answer_wf h (fun _ h1 => by
    split
    · exact (State.writeBlock_kept ..).wf h1
    · exact h1)

theorem revokeNow_wf (h : Memory.wf s) : Memory.wf (s.revokeNow p q) := by
  unfold State.revokeNow
  split
  · exact h
  · extract_lets +onlyGivenNames en s1 s2
    have h1 : Memory.wf s1 := (State.modPair_kept ..).wf h
    have h2 : Memory.wf s2 := foldl_wf _ _ h1 (fun _ _ h3 => queueComplete_wf h3)
    split
    · exact setQState_wf h2
    · exact h2

theorem dropMoves_wf (h : Memory.wf s) : Memory.wf (s.dropMoves p) :=
  foldl_wf _ _ h (fun _ _ h1 => by
    split
    · split
      · split
        · exact (setFld_wf ..).trans (modDma_wf h1)
        · exact h1
      · exact h1
    · exact h1)

/-! ## Sys2Proof/Machine/Failover.lean -/

theorem setMode_wf (h : Memory.wf s) : Memory.wf (s.setMode port v) := by
  unfold State.setMode
  split
  · exact h
  · split
    · exact (setFld_wf ..).trans ((setFld_wf ..).trans h)
    · exact (setFld_wf ..).trans h

theorem execFailover_wf (h : Memory.wf s) : KeepsForm (execFailover port v s) :=
  answer_wf h (fun _ h1 => bar0Write_wf h1 (fun _ h2 => setMode_wf h2))

theorem heartbeat_wf (h : Memory.wf s) : Memory.wf (s.heartbeat p) := by
  unfold State.heartbeat
  split
  · exact (setFld_wf ..).trans h
  · exact h

theorem execHeartbeat_wf {tgt : Nat} (h : Memory.wf s) : KeepsForm (execHeartbeat port tgt s) :=
  answer_wf h (fun _ h1 => bar0Write_wf h1 (fun _ h2 => heartbeat_wf h2))

theorem execHeartbeatExpiry_wf (h : Memory.wf s) : KeepsForm (execHeartbeatExpiry s) :=
  answer_wf h (fun _ h1 => by
    split
    · exact (State.raiseAlert_kept ..).wf ((setFld_wf ..).trans h1)
    · exact h1)

theorem startRevoke_wf (h : Memory.wf s) : Memory.wf (s.startRevoke p q) := by
  unfold State.startRevoke
  split
  · exact h
  · split
    · exact setQState_wf h
    · exact setQState_wf h

theorem revokePort_wf (h : Memory.wf s) : Memory.wf (s.revokePort p) :=
  claimedDue_wf (foldl_wf _ _ h (fun _ _ h1 => startRevoke_wf h1))

theorem claim_wf (h : Memory.wf s) : Memory.wf (s.claim p) := by
  unfold State.claim
  split
  · exact h
  · split
    · exact (setFld_wf ..).trans h
    · extract_lets +onlyGivenNames s1 s2 s3
      have h1 : Memory.wf s1 := (setFld_wf ..).trans h
      have h2 : Memory.wf s2 := (setFld_wf ..).trans ((setFld_wf ..).trans h1)
      have h3 : Memory.wf s3 := (State.halt_kept ..).wf h2
      exact revokePort_wf h3

theorem execClaim_wf {tgt : Nat} (h : Memory.wf s) : KeepsForm (execClaim port tgt s) :=
  answer_wf h (fun _ h1 => bar0Write_wf h1 (fun _ h2 => claim_wf h2))

/-! ## Sys2Proof/Machine/Links.lean -/

theorem setLinkState_wf (h : Memory.wf s) : Memory.wf (s.setLinkState l st) := by
  unfold State.setLinkState
  split
  · exact h
  · exact (State.tellLink_kept ..).wf ((setFld_wf ..).trans h)

theorem linkRecord_wf {source cls : Nat} (h : Memory.wf s) : Memory.wf (s.linkRecord l source cls) :=
  (State.record_kept ..).wf h

theorem attempt_wf (h : Memory.wf s) : Memory.wf (s.attempt l) := (State.emit_kept ..).wf ((State.modLink_kept ..).wf h)

theorem startTraining_wf (h : Memory.wf s) : Memory.wf (s.startTraining l) := by
  unfold State.startTraining
  extract_lets +onlyGivenNames keep s1
  have h1 : Memory.wf s1 := (setFld_wf ..).trans ((State.modLink_kept ..).wf h)
  exact attempt_wf (setLinkState_wf h1)

theorem trainEnabled_wf (h : Memory.wf s) : Memory.wf s.trainEnabled :=
  foldl_wf _ _ h (fun _ _ h1 => by
    split
    · exact startTraining_wf h1
    · exact h1)

theorem stopLink_wf (h : Memory.wf s) : Memory.wf (s.stopLink l st) := by
  unfold State.stopLink
  extract_lets +onlyGivenNames lost s1
  have h1 : Memory.wf s1 := setLinkState_wf ((State.modLink_kept ..).wf h)
  exact foldl_wf _ _ h1 (fun _ _ h2 => (State.lose_kept ..).wf h2)

theorem retrainNow_wf (h : Memory.wf s) : Memory.wf (s.retrainNow l) := by
  unfold State.retrainNow
  extract_lets +onlyGivenNames s1
  have h1 : Memory.wf s1 := (State.modLink_kept ..).wf ((State.count_kept ..).wf h)
  exact attempt_wf (setLinkState_wf h1)

theorem linkCtl_wf (h : Memory.wf s) : Memory.wf (s.linkCtl l v) := by
  unfold State.linkCtl
  extract_lets +onlyGivenNames v1 was s1 en
  have h1 : Memory.wf s1 := (setReg_wf ..).trans h
  split
  · split
    · exact stopLink_wf h1
    · exact h1
  · split
    · split
      · exact startTraining_wf h1
      · exact h1
    · split
      · split
        · exact retrainNow_wf h1
        · split
          · exact startTraining_wf h1
          · exact h1
      · exact h1

theorem execLinkEnable_wf (h : Memory.wf s) : KeepsForm (execLinkEnable port l v s) :=
  answer_wf h (fun _ h1 => bar0Write_wf h1 (fun _ h2 => linkCtl_wf h2))

theorem execLinkDisable_wf (h : Memory.wf s) : KeepsForm (execLinkDisable port l v s) :=
  answer_wf h (fun _ h1 => bar0Write_wf h1 (fun _ h2 => answerStops_wf (linkCtl_wf h2)))

theorem execRetrain_wf (h : Memory.wf s) : KeepsForm (execRetrain port l v s) :=
  answer_wf h (fun _ h1 => bar0Write_wf h1 (fun _ h2 => linkCtl_wf h2))

theorem attemptFails_wf (h : Memory.wf s) : Memory.wf (s.attemptFails l) := by
  unfold State.attemptFails
  extract_lets +onlyGivenNames n
  split
  · exact (State.modLink_kept ..).wf h
  · split
    · exact linkRecord_wf (stopLink_wf h)
    · exact stopLink_wf h

theorem peerFenced_wf {node : Nat} (h : Memory.wf s) : Memory.wf (s.peerFenced node) := by
  unfold State.peerFenced
  split
  · exact h
  · split
    · exact (State.halt_kept ..).wf h
    · exact h

theorem capability_wf {blk : BitVec 128} (h : Memory.wf s) : Memory.wf (s.capability l blk) := by
  unfold State.capability
  split
  · exact h
  · split
    · exact h
    · extract_lets +onlyGivenNames s1 s2 s3
      have h1 : Memory.wf s1 := (setFld_wf ..).trans ((setFld_wf ..).trans h)
      have h2 : Memory.wf s2 := ite_wf ((setFld_wf ..).trans h1) h1
      have h3 : Memory.wf s3 := ite_wf (peerFenced_wf h2) h2
      split
      · exact stopLink_wf h3
      · split
        · exact attemptFails_wf h3
        · exact (State.modLink_kept ..).wf h3

theorem execCapabilityBlock_wf {blk : BitVec 128} (h : Memory.wf s) : KeepsForm (execCapabilityBlock l blk s) :=
  answer_wf h (fun _ h1 => answerStops_wf (capability_wf h1))

theorem resend_wf (h : Memory.wf s) : Memory.wf (s.resend l) := foldl_wf _ _ h (fun _ _ h1 => sendData_wf h1)

theorem greet_wf (h : Memory.wf s) : Memory.wf (s.greet q) := by
  unfold State.greet
  extract_lets +onlyGivenNames s11
  have hs11 : Memory.wf s11 := (State.send_kept ..).wf h
  split
  · exact (State.send_kept ..).wf ((State.modNet_kept ..).wf hs11)
  · exact hs11

theorem linkComesUp_wf {margin : Byte} (h : Memory.wf s) : Memory.wf (s.linkComesUp l margin) := by
  unfold State.linkComesUp
  split
  · exact h
  · split
    · exact h
    · extract_lets +onlyGivenNames fresh o v2 s1 s2 s3 s4 s5 s6 s7 s8
      have h1 : Memory.wf s1 := (setFld_wf ..).trans ((setFld_wf ..).trans h)
      have h2 : Memory.wf s2 := (State.modLink_kept ..).wf h1
      have h3 : Memory.wf s3 := (State.led_kept ..).wf h2
      have h4 : Memory.wf s4 := setLinkState_wf h3
      have h5 : Memory.wf s5 := (State.modNet_kept ..).wf h4
      have h6 : Memory.wf s6 := (setFld_wf ..).trans h5
      have h7 : Memory.wf s7 := resend_wf h6
      have h8 : Memory.wf s8 := ite_wf (greet_wf h7) h7
      exact (State.flush_kept ..).wf h8

theorem execLinkUp_wf {margin : Byte} (h : Memory.wf s) : KeepsForm (execLinkUp l margin s) :=
  answer_wf h (fun _ h1 => answerStops_wf (linkComesUp_wf h1))

theorem execLinkTrainingFail_wf (h : Memory.wf s) : KeepsForm (execLinkTrainingFail l s) :=
  answer_wf h (fun _ h1 => by
    split
    · exact answerStops_wf (attemptFails_wf h1)
    · exact h1)

theorem execTrainingRetryWaitEnd_wf (h : Memory.wf s) : KeepsForm (execTrainingRetryWaitEnd l s) :=
  answer_wf h (fun _ h1 => by
    split
    · exact attempt_wf h1
    · exact h1)

theorem execLinkPartnerDisabled_wf (h : Memory.wf s) : KeepsForm (execLinkPartnerDisabled l s) :=
  answer_wf h (fun _ h1 => by
    split
    · exact answerStops_wf (stopLink_wf h1)
    · exact h1)

theorem laneLost_wf {lane : Nat} {partnerSpare : Bool} (h : Memory.wf s) : Memory.wf (s.laneLost l lane partnerSpare) := by
  unfold State.laneLost
  extract_lets +onlyGivenNames x spared n
  split
  · exact h
  · extract_lets +onlyGivenNames old s1
    have h1 : Memory.wf s1 := (State.modLink_kept ..).wf h
    split
    · extract_lets +onlyGivenNames s2 s3
      have h2 : Memory.wf s2 := (setFld_wf ..).trans ((setFld_wf ..).trans h1)
      have h3 : Memory.wf s3 := cellarChanged_wf ((State.modNd_kept ..).wf h2)
      exact linkRecord_wf h3
    · split
      · exact linkRecord_wf ((setFld_wf ..).trans h1)
      · exact linkRecord_wf (stopLink_wf h1)

theorem execLaneDegraded_wf {lane : Nat} {partnerSpare : Bool} (h : Memory.wf s) :
    KeepsForm (execLaneDegraded l lane partnerSpare s) :=
  answer_wf h (fun _ h1 => answerStops_wf (laneLost_wf h1))

theorem nakOnce_wf (h : Memory.wf s) : Memory.wf (s.nakOnce l) := by
  unfold State.nakOnce
  split
  · exact h
  · exact (State.sendFlit_kept ..).wf ((State.modLink_kept ..).wf h)

theorem flitHeader_wf {w : DWord} (h : Memory.wf s) : Memory.wf (s.flitHeader l w) := by
  unfold State.flitHeader
  extract_lets +onlyGivenNames s1
  have h1 : Memory.wf s1 := ite_wf ((State.modLink_kept ..).wf h) h
  exact (State.modLink_kept ..).wf h1

theorem fecCounts_wf (h : Memory.wf s) : Memory.wf (s.fecCounts l) := by
  unfold State.fecCounts
  extract_lets +onlyGivenNames bad
  exact (State.drawn_kept ..).wf ((State.drawn_kept ..).wf ((State.count_kept ..).wf ((State.count_kept ..).wf h)))

theorem onFlit_wf {kind : Nat} {f : BitVec 2048} {g : State → DWord → State} (h : Memory.wf s)
    (hg : ∀ s x, Memory.wf s → Memory.wf (g s x)) : Memory.wf (s.onFlit l kind f g) := by
  unfold State.onFlit
  split
  · exact h
  · exact onDie_wf h (ite_wf (nakOnce_wf (fecCounts_wf h)) (ite_wf h (hg _ _ (fecCounts_wf h))))

theorem received_wf {bytes : List Byte} (h : Memory.wf s) : Memory.wf (s.received l bytes) := by
  unfold State.received
  extract_lets +onlyGivenNames was p
  split
  · exact owes_wf (refuse_wf h)
  · extract_lets +onlyGivenNames q
    exact (State.modLink_kept ..).wf h

theorem slotIn_wf {sop : Bool} {b : List Byte} (h : Memory.wf s) : Memory.wf (s.slotIn l sop b) := by
  unfold State.slotIn
  extract_lets +onlyGivenNames part s11 now
  have hs11 : Memory.wf s11 := ite_wf (owes_wf (refuse_wf h)) h
  split
  · exact hs11
  · split
    · exact received_wf ((State.modLink_kept ..).wf hs11)
    · exact (State.modLink_kept ..).wf hs11

theorem dataIn_wf {f : BitVec 2048} {w : DWord} (h : Memory.wf s) : Memory.wf (s.dataIn l f w) := by
  unfold State.dataIn
  extract_lets +onlyGivenNames sq want
  split
  · exact nakOnce_wf h
  · extract_lets +onlyGivenNames s1 b
    have h1 : Memory.wf s1 := flitHeader_wf ((State.modLink_kept ..).wf h)
    exact (State.flush_kept ..).wf (foldl_wf _ _ h1 (fun _ _ h2 => slotIn_wf h2))

theorem execDataFlit_wf {flit : BitVec 2048} (h : Memory.wf s) : KeepsForm (execDataFlit l flit s) :=
  answer_wf h (fun _ h1 => onFlit_wf h1 (fun _ _ h2 => answerStops_wf (dataIn_wf h2)))

theorem execIdleFlit_wf {flit : BitVec 2048} (h : Memory.wf s) : KeepsForm (execIdleFlit l flit s) :=
  answer_wf h (fun _ h1 => onFlit_wf h1 (fun _ _ h2 => answerStops_wf ((State.flush_kept ..).wf (flitHeader_wf h2))))

theorem replayLink_wf (h : Memory.wf s) : Memory.wf (s.replayLink l) := by
  unfold State.replayLink
  split
  · exact h
  · extract_lets +onlyGivenNames n s1
    have h1 : Memory.wf s1 := (State.modLink_kept ..).wf ((State.count_kept ..).wf h)
    split
    · exact resend_wf h1
    · exact linkRecord_wf (retrainNow_wf h1)

theorem execNak_wf {flit : BitVec 2048} (h : Memory.wf s) : KeepsForm (execNak l flit s) :=
  answer_wf h (fun _ h1 => onFlit_wf h1 (fun _ _ h2 => by
    extract_lets +onlyGivenNames s3
    have h3 : Memory.wf s3 := flitHeader_wf h2
    exact answerStops_wf ((State.flush_kept ..).wf (ite_wf ((State.drawn_kept ..).wf h3) (replayLink_wf
        ((State.drawn_kept ..).wf h3))))))

theorem execReplayTimeout_wf (h : Memory.wf s) : KeepsForm (execReplayTimeout l s) :=
  answer_wf h (fun _ h1 => by
    split
    · exact replayLink_wf h1
    · exact h1)

/-! ## Sys2Proof/Machine/Power.lean -/

theorem showSample_wf {f : Field} {v : Nat} (h : Memory.wf s) : Memory.wf (s.showSample f v i) := by
  unfold State.showSample
  split
  · exact (setFld_wf ..).trans h
  · exact h

theorem governDie_wf {m : GovMeas} (h : Memory.wf s) : Memory.wf (s.governDie m i) := by
  unfold State.governDie
  extract_lets +onlyGivenNames c v l s1
  have h1 : Memory.wf s1 := (State.modPwr_kept ..).wf h
  exact (setFld_wf ..).trans (showSample_wf h1)

theorem showPower_wf {watt : Nat} (h : Memory.wf s) : Memory.wf (s.showPower watt) := showSample_wf (showSample_wf h)

theorem minuteOver_wf (h : Memory.wf s) : Memory.wf s.minuteOver := by
  unfold State.minuteOver
  split
  · exact h
  · exact (State.modNd_kept ..).wf ((State.led_kept ..).wf h)

theorem accrue_wf {watt : Nat} (h : Memory.wf s) : Memory.wf (s.accrue watt) := by
  unfold State.accrue
  split
  · exact h
  · extract_lets +onlyGivenNames e
    exact minuteOver_wf ((State.modNd_kept ..).wf ((State.led_kept ..).wf h))

theorem govern_wf {m : GovMeas} (h : Memory.wf s) : Memory.wf (s.govern m) := by
  unfold State.govern
  extract_lets +onlyGivenNames s1 goal low s2 limit s3 s5 s6 s7 s8
  have h1 : Memory.wf s1 := (State.modPwr_kept ..).wf h
  have h2 : Memory.wf s2 := (State.modPwr_kept ..).wf h1
  have h3 : Memory.wf s3 := (State.drawn_kept ..).wf (foldl_wf _ _ h2 (fun _ _ h4 => governDie_wf h4))
  have h5 : Memory.wf s5 := (setFld_wf ..).trans ((setFld_wf ..).trans h3)
  have h6 : Memory.wf s6 := ite_wf ((setFld_wf ..).trans h5) h5
  have h7 : Memory.wf s7 := showSample_wf (showSample_wf ((State.modPwr_kept ..).wf h6))
  have h8 : Memory.wf s8 := accrue_wf (showPower_wf h7)
  exact (setFld_wf ..).trans h8

theorem execGovernorPeriod_wf {m : GovMeas} (h : Memory.wf s) : KeepsForm (execGovernorPeriod m s) :=
  answer_wf h (fun _ h1 => by
    split
    · exact govern_wf h1
    · exact h1)

theorem execRateMonitorReport_wf {die : Nat} {rates : List Nat} (h : Memory.wf s) :
    KeepsForm (execRateMonitorReport die rates s) :=
  answer_wf h (fun _ h1 => by
    split
    · exact h1
    · split
      · exact showSample_wf h1
      · exact h1)

theorem throttleDown_wf (h : Memory.wf s) : Memory.wf s.throttleDown := by
  unfold State.throttleDown
  extract_lets +onlyGivenNames s1 code s2
  have h1 : Memory.wf s1 := (State.modPwr_kept ..).wf h
  have h2 : Memory.wf s2 := foldl_wf _ _ h1 (fun _ _ h3 => (setFld_wf ..).trans (showSample_wf h3))
  exact (setFld_wf ..).trans h2

theorem throttleOver_wf (h : Memory.wf s) : Memory.wf s.throttleOver := by
  unfold State.throttleOver
  split
  · exact (State.setThrottleState_kept ..).wf ((setFld_wf ..).trans h)
  · exact h

theorem execThrottleNFall_wf (h : Memory.wf s) : KeepsForm (execThrottleNFall s) :=
  answer_wf h (fun _ h1 => by
    split
    · exact h1
    · extract_lets +onlyGivenNames s2
      have h2 : Memory.wf s2 := (State.modPwr_kept ..).wf h1
      split
      · extract_lets +onlyGivenNames s3
        have h3 : Memory.wf s3 := (State.tickTimer_kept ..).wf h2
        exact (setFld_wf ..).trans ((State.modPwr_kept ..).wf h3)
      · exact h2)

theorem execThrottleQualify_wf (h : Memory.wf s) : KeepsForm (execThrottleQualify s) :=
  answer_wf h (fun _ h1 => by
    split
    · extract_lets +onlyGivenNames s2
      have h2 : Memory.wf s2 := (State.count_kept ..).wf ((State.modPwr_kept ..).wf h1)
      exact (State.setThrottleState_kept ..).wf (throttleDown_wf ((setFld_wf ..).trans h2))
    · exact h1)

theorem execThrottleNRise_wf (h : Memory.wf s) : KeepsForm (execThrottleNRise s) :=
  answer_wf h (fun _ h1 => by
    split
    · exact h1
    · extract_lets +onlyGivenNames q s2
      have h2 : Memory.wf s2 := (State.modPwr_kept ..).wf h1
      split
      · exact h2
      · extract_lets +onlyGivenNames s3
        have h3 : Memory.wf s3 := (setFld_wf ..).trans h2
        split
        · exact throttleOver_wf ((State.count_kept ..).wf h3)
        · extract_lets +onlyGivenNames s4 s5
          have h4 : Memory.wf s4 := (State.tickTimer_kept ..).wf h3
          have h5 : Memory.wf s5 :=
            ite_wf ((State.setThrottleState_kept ..).wf ((setFld_wf ..).trans ((State.logEntry_kept ..).wf h4))) h4
          exact throttleOver_wf h5)

theorem execThrottleHoldEnd_wf (h : Memory.wf s) : KeepsForm (execThrottleHoldEnd s) :=
  answer_wf h (fun _ h1 => by
    split
    · exact throttleOver_wf ((State.modPwr_kept ..).wf h1)
    · exact h1)

theorem execThrottleSustained_wf (h : Memory.wf s) : KeepsForm (execThrottleSustained s) :=
  answer_wf h (fun _ h1 => by
    split
    · exact (State.setThrottleState_kept ..).wf ((State.logEntry_kept ..).wf ((setFld_wf ..).trans h1))
    · exact h1)

theorem tsoffWrite_wf (h : Memory.wf s) : Memory.wf (s.tsoffWrite v) := (State.modPwr_kept ..).wf ((setReg_wf ..).trans h)

theorem execTsoffWrite_wf (h : Memory.wf s) : KeepsForm (execTsoffWrite port v s) :=
  answer_wf h (fun _ h1 => by
    split
    · exact tsoffWrite_wf h1
    · exact h1)

theorem showRef_wf (h : Memory.wf s) : Memory.wf s.showRef := by
  unfold State.showRef
  extract_lets +onlyGivenNames src s1
  have h1 : Memory.wf s1 := (setFld_wf ..).trans h
  split
  · exact (setFld_wf ..).trans h1
  · exact h1

theorem execRefclkLoss_wf (h : Memory.wf s) : KeepsForm (execRefclkLoss port s) :=
  answer_wf h (fun _ h1 => by
    extract_lets +onlyGivenNames s2
    have h2 : Memory.wf s2 := (State.modPwr_kept ..).wf h1
    split
    · exact showRef_wf h2
    · exact h2)

theorem execRefclkReturn_wf (h : Memory.wf s) : KeepsForm (execRefclkReturn port s) :=
  answer_wf h (fun _ h1 => by
    extract_lets +onlyGivenNames s2
    have h2 : Memory.wf s2 := (State.modPwr_kept ..).wf h1
    split
    · exact showRef_wf h2
    · exact h2)

theorem execHbmIdleTimeout_wf (h : Memory.wf s) : KeepsForm (execHbmIdleTimeout s) :=
  answer_wf h (fun _ h1 => by
    split
    · exact (State.modHbm_kept ..).wf h1
    · exact h1)

/-! ## Sys2Proof/Machine/TestOps.lean -/

theorem startTest_wf (h : Memory.wf s) : Memory.wf (s.startTest p) := by
  unfold State.startTest
  split
  · exact h
  · split
    · split
      · exact beginTest_wf h
      · split
        · exact h
        · split
          · exact setIft_wf ((modSaf_wf ..).trans h)
          · split
            · exact holdAndTest_wf h
            · exact h
    · split
      · split
        · exact beginTest_wf h
        · exact h
      · exact beginTest_wf h

theorem execIftTestStart_wf (h : Memory.wf s) : KeepsForm (execIftTestStart slot s) :=
  answer_wf h (fun _ h1 => startTest_wf h1)

theorem testRecord_wf {r : TestResult} (h : Memory.wf s) : Memory.wf (s.testRecord p r) := by
  unfold State.testRecord
  split
  · exact h
  · exact (State.record_kept ..).wf h
  · exact (State.record_kept ..).wf h

theorem seekAll_wf {source : Nat} (h : Memory.wf s) : Memory.wf (s.seekAll q source) :=
  foldl_wf _ _ h (fun _ _ h1 => seekSlot_wf h1 _ _)

theorem slotPassed_wf (h : Memory.wf s) : Memory.wf (s.slotPassed p) := by
  unfold State.slotPassed
  extract_lets +onlyGivenNames q s1 free
  have h1 : Memory.wf s1 := (State.count_kept ..).wf ((modSlot_wf ..).trans h)
  exact seekAll_wf (ite_wf (cellarChanged_wf (setSpare_wf h1)) h1)

theorem suspect_wf {r : TestResult} (h : Memory.wf s) : Memory.wf (s.suspect step r) := by
  unfold State.suspect
  split
  · exact (State.lateDetection_kept ..).wf h
  · exact seqFault_wf h

theorem slotFailed_wf {r : TestResult} (h : Memory.wf s) : Memory.wf (s.slotFailed p r) := by
  unfold State.slotFailed
  extract_lets +onlyGivenNames was step s1
  have h1 : Memory.wf s1 := seekAll_wf (retireSlot_wf h _ _)
  split
  · exact h1
  · exact suspect_wf h1

theorem giveSlots_wf {good : List Nat} {source : Nat} {cs free : List Nat} (h : Memory.wf s) :
    Memory.wf (s.giveSlots q good source cs free) := by
  induction cs generalizing s free with
  | nil => exact cellarChanged_wf (setSpare_wf h)
  | cons c r ih =>
    unfold State.giveSlots
    split
    · exact ih (placeCore_wf h ..)
    · split
      · exact ih (placeCore_wf h ..)
      · exact ih (loseCore_wf h ..)

theorem rebuild_wf {res : List (Nat × Bool)} (h : Memory.wf s) : Memory.wf (s.rebuild q res) := by
  unfold State.rebuild
  extract_lets +onlyGivenNames good s1 s2
  have h1 : Memory.wf s1 := (modSaf_wf ..).trans h
  have h2 : Memory.wf s2 := foldl_wf _ _ h1 (fun _ _ h3 => (modSlot_wf ..).trans h3)
  exact giveSlots_wf h2

theorem clusterNote_wf {r : TestResult} (h : Memory.wf s) : Memory.wf (s.clusterNote p r) := by
  unfold State.clusterNote
  extract_lets +onlyGivenNames q s1 s2
  have h1 : Memory.wf s1 := ite_wf ((State.count_kept ..).wf h) (cellarChanged_wf (retire_wf h _ _))
  have h2 : Memory.wf s2 := (modSaf_wf ..).trans h1
  split
  · exact setIft_wf h2
  · extract_lets +onlyGivenNames s3
    have h3 : Memory.wf s3 := setIft_wf h2
    split
    · exact rebuild_wf h3
    · exact h3

theorem clusterResult_wf {r : TestResult} (h : Memory.wf s) : Memory.wf (s.clusterResult p r) := by
  unfold State.clusterResult
  extract_lets +onlyGivenNames carried step s1
  have h1 : Memory.wf s1 := clusterNote_wf h
  split
  · exact h1
  · exact suspect_wf h1

theorem tryUnplanned_wf (h : Memory.wf s) : Memory.wf s.tryUnplanned := by
  unfold State.tryUnplanned
  split
  · exact h
  · extract_lets +onlyGivenNames t s11
    have hs11 : Memory.wf s11 := startTest_wf h
    split
    · exact (modSaf_wf ..).trans hs11
    · exact hs11

theorem unplannedTest_wf (h : Memory.wf s) : Memory.wf (s.unplannedTest p) := tryUnplanned_wf ((modSaf_wf ..).trans h)

theorem endTest_wf {r : TestResult} (h : Memory.wf s) : Memory.wf (s.endTest p r) := by
  unfold State.endTest
  split
  · exact h
  · extract_lets +onlyGivenNames s1
    have h1 : Memory.wf s1 := testRecord_wf ((modSlot_wf ..).trans h)
    split
    · exact pump_wf (tryUnplanned_wf (clusterResult_wf h1))
    · extract_lets +onlyGivenNames spare s2
      have h2 : Memory.wf s2 := ite_wf (setIft_wf h1) (setIft_wf h1)
      exact pump_wf (tryUnplanned_wf (ite_wf (slotPassed_wf h2) (slotFailed_wf h2)))

theorem execIftTestComplete_wf {r : TestResult} (h : Memory.wf s) : KeepsForm (execIftTestComplete slot r s) :=
  answer_wf h (fun _ h1 => endTest_wf h1)

theorem execPreemptTimeout_wf (h : Memory.wf s) : KeepsForm (execPreemptTimeout c s) :=
  answer_wf h (fun _ h1 => by
    split
    · exact (modCore_wf ..).trans h1
    · exact h1)

theorem execContextMove_wf (h : Memory.wf s) : KeepsForm (execContextMove c s) :=
  answer_wf h (fun _ h1 => by
    split
    · exact h1
    · split
      · exact setIft_wf ((modCore_wf ..).trans h1)
      · exact h1)

theorem moveDone_wf (h : Memory.wf s) : Memory.wf (s.moveDone c) := by
  unfold State.moveDone
  split
  · exact h
  · extract_lets old k s1 s2 s3 s4
    have h1 : Memory.wf s1 := by
      obtain ⟨hb, hl, hh⟩ := (Memory.wf_iff s).mp h
      exact ite_wf h ((Memory.wf_iff _).mpr ⟨hb, moveLocal_wf hl _ _ _, hh⟩)
    have h2 : Memory.wf s2 := placeCore_wf h1 ..
    have h3 : Memory.wf s3 := (modCore_wf ..).trans h2
    have h4 : Memory.wf s4 := (modSlot_wf ..).trans (setSpare_wf h3)
    exact beginTest_wf (cellarChanged_wf h4)

theorem execContextMoveComplete_wf (h : Memory.wf s) : KeepsForm (execContextMoveComplete c s) :=
  answer_wf h (fun _ h1 => by
    split
    · exact moveDone_wf h1
    · exact h1)

theorem failEntries_wf (h : Memory.wf s) : Memory.wf (s.failEntries k r n) := by
  have hdef := Eq.refl State.failEntries
  conv_rhs at hdef => delta State.failEntries State.failEntries._f
  have hfetch := @mseFetch_wf
  have hcheck := @cplCheck_wf
  obtain ⟨fetch, ef⟩ : ∃ f, f = State.mseFetch := ⟨_, rfl⟩
  obtain ⟨check, ec⟩ : ∃ f, f = State.cplCheck := ⟨_, rfl⟩
  rw [← ef] at hdef hfetch
  rw [← ec] at hdef hcheck
  rw [hdef]
  refine natRec_wf (fun _ _ h => h) (fun m b s ih h => ?_) n h
  dsimp only
  split
  · next e1 => exact modMse_wf (wf_fst e1 (hfetch h))
  · next e1 =>
    have h1 := msePop_wf (k := k) (r := r) (wf_fst e1 (hfetch h))
    split
    · next e2 => exact ih _ (logFault_wf (wf_fst e2 (ite_fst_wf (hcheck h1) h1)) ..)
    · next e2 => exact ih _ (mseDeliver_wf (wf_fst e2 (ite_fst_wf (hcheck h1) h1)))

theorem failMse_wf (h : Memory.wf s) : Memory.wf (s.failMse k r) := by
  unfold State.failMse
  extract_lets +onlyGivenNames n
  split
  · exact (State.record_kept ..).wf (failEntries_wf (mseDeliver_wf (mseFree_wf h)))
  · split
    · exact h
    · exact (State.record_kept ..).wf (failEntries_wf h)

theorem failDescs_wf {m : Nat} (h : Memory.wf s) : Memory.wf (s.failDescs n m) := by
  have hdef := Eq.refl State.failDescs
  conv_rhs at hdef => delta State.failDescs State.failDescs._f
  have hread := @ringRead_wf
  have hcheck := @dmaCplCheck_wf
  obtain ⟨read, er⟩ : ∃ f, f = State.ringRead := ⟨_, rfl⟩
  obtain ⟨check, ec⟩ : ∃ f, f = State.dmaCplCheck := ⟨_, rfl⟩
  rw [← er] at hdef hread
  rw [← ec] at hdef hcheck
  rw [hdef]
  refine natRec_wf (fun _ _ h => h) (fun m b s ih h => ?_) m h
  dsimp only
  split
  · next e1 => exact modDma_wf (wf_fst e1 (hread h))
  · next e1 =>
    have h1 := ringPop_wf (r := dmaRing) (i := n) (j := 0) (wf_fst e1 (hread h))
    split
    · next e2 => exact ih _ ((setFld_wf ..).trans (logFault_wf (wf_fst e2 (hcheck h1)) ..))
    · next e2 => exact ih _ (dmaEnd_wf (wf_fst e2 (hcheck h1)))

theorem failDma_wf (h : Memory.wf s) : Memory.wf (s.failDma n) := by
  unfold State.failDma
  extract_lets +onlyGivenNames m own all opc
  split
  · exact h
  · exact (State.record_kept ..).wf (failDescs_wf (foldl_wf _ _ (modDma_wf h) (fun _ _ h1 => dmaEnd_wf h1)))

theorem failRouter_wf (h : Memory.wf s) : Memory.wf (s.failRouter l) := by
  unfold State.failRouter
  extract_lets +onlyGivenNames stuck
  split
  · exact h
  · exact (State.record_kept ..).wf (foldl_wf _ _ h (fun _ _ h1 => (State.lose_kept ..).wf (unbuffer_wf h1)))

theorem failEngine_wf (h : Memory.wf s) : Memory.wf (s.failEngine c e) := by
  unfold State.failEngine
  extract_lets +onlyGivenNames r
  exact pump_wf (unplannedTest_wf (ite_wf (coreFault_wf h) ((State.record_kept ..).wf (engineFail_wf h))))

theorem stall_wf {u : StallUnit} (h : Memory.wf s) : Memory.wf (s.stall u) := by
  unfold State.stall
  split
  · split
    · exact failEngine_wf h
    · exact h
  · split
    · split
      · exact unplannedTest_wf ((State.record_kept ..).wf (kill_wf h))
      · exact h
    · exact h
  · split
    · exact failMse_wf h
    · exact h
  · split
    · exact failDma_wf h
    · exact h
  · split
    · exact failRouter_wf h
    · exact h
  · split
    · exact pump_wf (seqFault_wf ((State.record_kept ..).wf h))
    · exact h

theorem execWatchdogStall_wf {u : StallUnit} (h : Memory.wf s) : KeepsForm (execWatchdogStall u s) :=
  answer_wf h (fun _ h1 => by
    split
    · exact stall_wf h1
    · exact h1)

theorem execInputOvercurrent_wf (h : Memory.wf s) : KeepsForm (execInputOvercurrent s) :=
  answer_wf h (fun _ h1 => by
    split
    · exact h1
    · exact (State.modPwr_kept ..).wf h1)

theorem erheadWrite_wf (h : Memory.wf s) : Memory.wf (s.erheadWrite v) := by
  unfold State.erheadWrite
  extract_lets +onlyGivenNames h1
  split
  · exact (setReg_wf ..).trans h
  · exact h

theorem execErheadWrite_wf (h : Memory.wf s) : KeepsForm (execErheadWrite port v s) :=
  answer_wf h (fun _ h1 => bar0Write_wf h1 (fun _ h2 => erheadWrite_wf h2))

/-! ## Sys2Proof/Machine/StartUp.lean -/

theorem showState_wf (h : Memory.wf s) : Memory.wf s.showState := (State.setDevState_kept ..).wf ((setFld_wf ..).trans h)

theorem fwHistory_wf {result : Nat} {i : FwImage} (h : Memory.wf s) : Memory.wf (s.fwHistory c result i) :=
  (State.ledNow_kept ..).wf h

theorem takeBank_wf (h : Memory.wf s) : Memory.wf (s.takeBank c) := by
  unfold State.takeBank
  split
  · exact h
  · extract_lets +onlyGivenNames s1
    have h1 : Memory.wf s1 := (State.modNd_kept ..).wf h
    split
    · exact fwHistory_wf h1
    · exact h1

theorem showFuses_wf (h : Memory.wf s) : Memory.wf s.showFuses := by
  unfold State.showFuses
  extract_lets +onlyGivenNames s1 s2 s3
  have h1 : Memory.wf s1 := (setReg_wf ..).trans h
  have h2 : Memory.wf s2 := (setReg_wf ..).trans h1
  have h3 : Memory.wf s3 := (setFld_wf ..).trans h2
  exact (setFld_wf ..).trans ((setFld_wf ..).trans h3)

theorem loadIds_wf (h : Memory.wf s) : Memory.wf s.loadIds := by
  unfold State.loadIds
  extract_lets +onlyGivenNames g s1 s2
  have h1 : Memory.wf s1 := (setFld_wf ..).trans h
  have h2 : Memory.wf s2 := (setFld_wf ..).trans ((setFld_wf ..).trans h1)
  exact foldl_wf _ _ h2 (fun _ _ h3 => (setReg_wf ..).trans h3)

theorem loadMgt_wf (h : Memory.wf s) : Memory.wf s.loadMgt := by
  unfold State.loadMgt
  extract_lets +onlyGivenNames s1 s2 s3
  have h1 : Memory.wf s1 := (setReg_wf ..).trans h
  have h2 : Memory.wf s2 := (setFld_wf ..).trans h1
  have h3 : Memory.wf s3 := (setFld_wf ..).trans h2
  exact (State.lifeRegs_kept ..).wf ((setFld_wf ..).trans h3)

theorem showPhases_wf (h : Memory.wf s) : Memory.wf (s.showPhases i n) := by
  unfold State.showPhases
  extract_lets +onlyGivenNames ph old s1 s2
  have h1 : Memory.wf s1 := (setFld_wf ..).trans h
  have h2 : Memory.wf s2 := (setFld_wf ..).trans h1
  exact (setFld_wf ..).trans h2

theorem powerDown_wf (h : Memory.wf s) : Memory.wf s.powerDown := by
  obtain ⟨-, -, hh⟩ := (Memory.wf_iff s).mp h
  exact (Memory.wf_iff _).mpr ⟨rfl, rfl, hh⟩

theorem execVinRise_wf (h : Memory.wf s) : KeepsForm (execVinRise s) :=
  answerTap_wf h (fun _ h1 => by
    split
    · exact showFuses_wf ((State.modPwr_kept ..).wf h1)
    · exact h1)

theorem execVinFall_wf (h : Memory.wf s) : KeepsForm (execVinFall s) :=
  answerTap_wf h (fun _ h1 => by
    split
    · exact h1
    · exact powerDown_wf h1)

theorem execVinSurge_wf (h : Memory.wf s) : KeepsForm (execVinSurge s) :=
  answer_wf h (fun _ h1 => by
    split
    · exact (State.led_kept ..).wf h1
    · exact h1)

theorem portsDetect_wf (h : Memory.wf s) : Memory.wf s.portsDetect := by
  unfold State.portsDetect
  split
  · split
    · exact h
    · exact foldl_wf _ _ h (fun _ _ h1 => by
        split
        · exact (State.modPort_kept ..).wf h1
        · exact h1)
  · split
    · exact h
    · exact foldl_wf _ _ h (fun _ _ h2 => by
        split
        · exact (State.modPort_kept ..).wf h2
        · exact h2)

theorem softStart_wf (h : Memory.wf s) : Memory.wf s.softStart := by
  unfold State.softStart
  extract_lets +onlyGivenNames s1
  have h1 : Memory.wf s1 := (State.modPwr_kept ..).wf h
  exact portsDetect_wf (showRef_wf ((setFld_wf ..).trans h1))

theorem execConverterSoftStartComplete_wf (h : Memory.wf s) : KeepsForm (execConverterSoftStartComplete s) :=
  answer_wf h (fun _ h1 => by
    split
    · exact softStart_wf h1
    · exact h1)

theorem leaveReset_wf (h : Memory.wf s) : Memory.wf s.leaveReset := by
  unfold State.leaveReset
  split
  · exact trainEnabled_wf (loadTimers_wf ((setFld_wf ..).trans ((State.modPwr_kept ..).wf h)))
  · exact h

theorem loadConfig_wf (h : Memory.wf s) : Memory.wf s.loadConfig := by
  unfold State.loadConfig
  extract_lets +onlyGivenNames c _ _ _ _ s1
  have h1 : Memory.wf s1 := (Memory.wf_congr rfl rfl rfl).trans h
  exact foldl_wf _ _ h1 (fun _ _ h2 => showPhases_wf h2)

theorem loadMap_wf (h : Memory.wf s) : Memory.wf s.loadMap := foldl_wf _ _ h (fun _ _ h1 => (setReg_wf ..).trans h1)

theorem loadLedger_wf (h : Memory.wf s) : Memory.wf s.loadLedger := by
  unfold State.loadLedger
  extract_lets +onlyGivenNames c
  split
  · exact (State.modNd_kept ..).wf h
  · extract_lets _ s1
    have h1 : Memory.wf s1 := (State.modNd_kept ..).wf h
    exact (State.led_kept ..).wf h1

theorem firmwareVerified_wf (h : Memory.wf s) : Memory.wf s.firmwareVerified := by
  unfold State.firmwareVerified
  extract_lets +onlyGivenNames rec_ s1 s2 s3 s5 s6
  have h1 : Memory.wf s1 := (State.modPwr_kept ..).wf h
  have h2 : Memory.wf s2 := loadLedger_wf (loadConfig_wf ((State.modNd_kept ..).wf h1))
  have h3 : Memory.wf s3 := foldl_wf _ _ h2 (fun _ _ h4 => takeBank_wf h4)
  have h5 : Memory.wf s5 := showState_wf (loadMgt_wf (loadIds_wf ((State.ledNow_kept ..).wf h3)))
  have h6 : Memory.wf s6 := ite_wf ((State.emit_kept ..).wf h5) h5
  exact leaveReset_wf h6

theorem execFirmwareVerified_wf (h : Memory.wf s) : KeepsForm (execFirmwareVerified s) :=
  answer_wf h (fun _ h1 => by
    split
    · exact firmwareVerified_wf h1
    · exact h1)

theorem trainingFailed_wf {mask : Nat} (h : Memory.wf s) : Memory.wf (s.trainingFailed mask) := by
  unfold State.trainingFailed
  extract_lets +onlyGivenNames n r s1 s3
  have h1 : Memory.wf s1 := foldl_wf _ _ h (fun _ _ h2 => (State.record_kept ..).wf h2)
  have h3 : Memory.wf s3 := (setFld_wf ..).trans ((setFld_wf ..).trans ((setFld_wf ..).trans h1))
  exact showState_wf ((State.enterSafe_kept ..).wf h3)

theorem hbmReset_wf {qual : Bool} (h : Memory.wf s) : Memory.wf (s.hbmReset qual) := by
  unfold State.hbmReset
  extract_lets +onlyGivenNames ret s1 s2 s3 s4 s6
  have h1 : Memory.wf s1 := modHbm_bytes_wf h fun _ _ => rfl
  have h2 : Memory.wf s2 := (setFld_wf ..).trans h1
  have h3 : Memory.wf s3 := (setFld_wf ..).trans h2
  have h4 : Memory.wf s4 := foldl_wf _ _ h3 (fun _ _ h5 => (setFld_wf ..).trans h5)
  have h6 : Memory.wf s6 := (setFld_wf ..).trans ((setFld_wf ..).trans h4)
  exact (setFld_wf ..).trans ((State.modPwr_kept ..).wf h6)

theorem execHbmTrainingComplete_wf {failed : BitVec 12} {qual : Bool} {repair : List Nat} (h : Memory.wf s) :
    KeepsForm (execHbmTrainingComplete failed qual repair s) :=
  answer_wf h (fun _ h1 => by
    split
    · exact h1
    · extract_lets +onlyGivenNames mask
      split
      · exact hbmReset_wf ((State.modHbm_kept ..).wf h1)
      · exact trainingFailed_wf h1)

theorem loadNibMap_wf (h : Memory.wf s) : Memory.wf (s.loadNibMap p) := by
  unfold State.loadNibMap
  extract_lets +onlyGivenNames x s1
  have h1 : Memory.wf s1 := foldl_wf _ _ h (fun _ _ h2 => by
    split
    · split
      · exact (setFld_wf ..).trans h2
      · exact h2
    · exact h2)
  exact foldl_wf _ _ h1 (fun _ _ h3 => by
    split
    · split
      · exact (setFld_wf ..).trans h3
      · exact h3
    · exact h3)

theorem selfTested_wf {once twice : List Nat} (h : Memory.wf s) : Memory.wf (s.selfTested once twice p) := by
  unfold State.selfTested
  split
  · split
    · exact h
    · exact retire_wf (testRecord_wf h) _ _
  · extract_lets +onlyGivenNames s1
    have h1 : Memory.wf s1 := ite_wf (testRecord_wf h) h
    exact (State.count_kept ..).wf ((modSlot_wf ..).trans h1)

theorem mapCores_wf {good cs free : List Nat} (h : Memory.wf s) : Memory.wf (s.mapCores q good cs free) := by
  induction cs generalizing s free with
  | nil => exact setSpare_wf h
  | cons c r ih =>
    unfold State.mapCores
    split
    · exact ih h
    · split
      · exact ih (setCoreSlot_wf h)
      · exact ih (loseCore_wf h ..)

theorem mapCluster_wf (h : Memory.wf s) : Memory.wf (s.mapCluster q) := by
  unfold State.mapCluster
  extract_lets +onlyGivenNames good cs free
  exact mapCores_wf h

theorem selfTest_wf {once twice : List Nat} (h : Memory.wf s) : Memory.wf (s.selfTest once twice) := by
  obtain ⟨hb, -, hh⟩ := (Memory.wf_iff s).mp h
  unfold State.selfTest
  extract_lets s1 old s2 s3 s4 s5
  have h1 : Memory.wf s1 := loadMap_wf ((Memory.wf_iff _).mpr ⟨hb, rfl, hh⟩)
  have h2 : Memory.wf s2 := foldl_wf _ _ h1 fun _ _ h => selfTested_wf h
  have h3 : Memory.wf s3 := foldl_wf _ _ h2 fun _ _ h => mapCluster_wf h
  have h4 : Memory.wf s4 := foldl_wf _ _ h3 fun _ _ h => loadNibMap_wf h
  have h5 : Memory.wf s5 := (setFld_wf ..).trans ((State.modPwr_kept ..).wf h4)
  split
  · exact (State.showCellar_kept ..).wf h5
  · exact cellarChanged_wf h5

theorem execCoreSelfTestComplete_wf {once twice : List Nat} (h : Memory.wf s) :
    KeepsForm (execCoreSelfTestComplete once twice s) :=
  answer_wf h (fun _ h1 => by
    split
    · exact selfTest_wf h1
    · exact h1)

theorem burnFuses_wf (h : Memory.wf s) : Memory.wf s.burnFuses := by
  unfold State.burnFuses
  split
  · exact h
  · extract_lets +onlyGivenNames svn rev
    exact loadMgt_wf ((State.modNd_kept ..).wf ((Memory.wf_congr rfl rfl rfl).trans h))

theorem becomeReady_wf (h : Memory.wf s) : Memory.wf s.becomeReady := by
  unfold State.becomeReady
  extract_lets +onlyGivenNames s1 s2
  have h1 : Memory.wf s1 := (setFld_wf ..).trans ((State.modPwr_kept ..).wf h)
  have h2 : Memory.wf s2 := (State.drawn_kept ..).wf ((setReg_wf ..).trans h1)
  exact seqReady_wf (showState_wf (burnFuses_wf h2))

theorem linkWaitEnd_wf (h : Memory.wf s) : Memory.wf s.linkWaitEnd := by
  unfold State.linkWaitEnd
  extract_lets +onlyGivenNames s1
  have h1 : Memory.wf s1 := (State.modPwr_kept ..).wf h
  split
  · exact h1
  · split
    · exact (setFld_wf ..).trans ((setFld_wf ..).trans h1)
    · exact becomeReady_wf h1

theorem execLinkWaitEnd_wf (h : Memory.wf s) : KeepsForm (execLinkWaitEnd s) :=
  answer_wf h (fun _ h1 => by
    split
    · exact linkWaitEnd_wf h1
    · exact h1)

theorem resetDies_wf (h : Memory.wf s) : Memory.wf s.resetDies := by
  unfold State.resetDies
  extract_lets +onlyGivenNames spares lane untold posv pos _ _ s1 s2 s3 s4 s5
  have h1 : Memory.wf s1 := (Memory.wf_congr rfl rfl rfl).trans h
  have h2 : Memory.wf s2 := (State.modHbm_kept ..).wf h1
  have h3 : Memory.wf s3 := resetBlocks_wf h2
  have h4 : Memory.wf s4 := (setFld_wf ..).trans ((setFld_wf ..).trans h3)
  have h5 : Memory.wf s5 := foldl_wf _ _ h4 (fun _ _ h6 => (setFld_wf ..).trans ((setFld_wf ..).trans h6))
  exact (setFld_wf ..).trans ((setFld_wf ..).trans h5)

theorem enterReset_wf {src : RstSrc} (h : Memory.wf s) : Memory.wf (s.enterReset src) := by
  unfold State.enterReset
  extract_lets +onlyGivenNames s1 s2 s5 s6 s7 s8 s9 s10
  have h1 : Memory.wf s1 := (State.halt_kept ..).wf h
  have h2 : Memory.wf s2 := foldl_wf _ _ h1 (fun _ _ h3 => foldl_wf _ _ h3 (fun _ _ h4 => revokeNow_wf h4))
  have h5 : Memory.wf s5 := resetDies_wf h2
  have h6 : Memory.wf s6 := (State.modPwr_kept ..).wf h5
  have h7 : Memory.wf s7 := ite_wf ((State.emit_kept ..).wf h6) h6
  have h8 : Memory.wf s8 := (State.count_kept ..).wf ((setFld_wf ..).trans h7)
  have h9 : Memory.wf s9 := (setReg_wf ..).trans h8
  have h10 : Memory.wf s10 := (State.modNd_kept ..).wf h9
  split
  · exact (State.queueEvent_kept ..).wf ((State.modNd_kept ..).wf ((setFld_wf ..).trans h10))
  · exact h10

theorem startReset_wf {src : RstSrc} (h : Memory.wf s) : Memory.wf (s.startReset src) := by
  unfold State.startReset
  extract_lets +onlyGivenNames s1 s2
  have h1 : Memory.wf s1 := (setFld_wf ..).trans h
  have h2 : Memory.wf s2 := ite_wf ((State.modPwr_kept ..).wf h1) (enterReset_wf h1)
  exact (State.modPwr_kept ..).wf h2

theorem takeImages_wf (h : Memory.wf s) : Memory.wf s.takeImages := by
  unfold State.takeImages
  split
  · exact h
  · exact (State.modPwr_kept ..).wf (foldl_wf _ _ h (fun _ _ h1 => takeBank_wf h1))

theorem holdEnds_wf (h : Memory.wf s) : Memory.wf s.holdEnds := by
  unfold State.holdEnds
  split
  · exact h
  · extract_lets +onlyGivenNames s1 s2 s3 s4
    have h1 : Memory.wf s1 := ite_wf ((State.emit_kept ..).wf h) h
    have h2 : Memory.wf s2 := (setFld_wf ..).trans ((State.modPwr_kept ..).wf h1)
    have h3 : Memory.wf s3 := takeImages_wf h2
    have h4 : Memory.wf s4 := ite_wf ((State.queueEvent_kept ..).wf ((State.modNd_kept ..).wf h3)) h3
    exact leaveReset_wf h4

theorem execDevrstNFall_wf (h : Memory.wf s) : KeepsForm (execDevrstNFall s) :=
  answer_wf h (fun _ h1 => (State.modPwr_kept ..).wf h1)

theorem execDevrstNQualify_wf (h : Memory.wf s) : KeepsForm (execDevrstNQualify s) :=
  answer_wf h (fun _ h1 => by
    split
    · exact startReset_wf h1
    · exact h1)

theorem execDevrstNRise_wf (h : Memory.wf s) : KeepsForm (execDevrstNRise s) :=
  answer_wf h (fun _ h1 => holdEnds_wf ((State.modPwr_kept ..).wf h1))

theorem execDevrst_wf (h : Memory.wf s) : KeepsForm (execDevrst port s) :=
  answer_wf h (fun _ h1 => bar0Write_wf h1 (fun _ h2 => startReset_wf h2))

theorem execResetHoldEnd_wf (h : Memory.wf s) : KeepsForm (execResetHoldEnd s) :=
  answer_wf h (fun _ h1 => by
    split
    · exact holdEnds_wf ((State.modPwr_kept ..).wf h1)
    · exact h1)

theorem resetPortRegs_wf {keepLink : Bool} (h : Memory.wf s) : Memory.wf (s.resetPortRegs p keepLink) := by
  unfold State.resetPortRegs
  extract_lets +onlyGivenNames st lo s1
  have h1 : Memory.wf s1 := (Memory.wf_congr rfl rfl rfl).trans h
  split
  · exact (setReg_wf ..).trans h1
  · exact h1

theorem resetPort_wf {keepLink : Bool} (h : Memory.wf s) : Memory.wf (s.resetPort p keepLink) := by
  unfold State.resetPort
  extract_lets +onlyGivenNames s1 s2
  have h1 : Memory.wf s1 := resetPortRegs_wf (dropMoves_wf h)
  have h2 : Memory.wf s2 := (Memory.wf_congr rfl rfl rfl).trans h1
  exact (State.modPort_kept ..).wf h2

theorem execPerstAssert_wf (h : Memory.wf s) : KeepsForm (execPerstAssert port s) :=
  answer_wf h (fun _ h1 => by
    extract_lets +onlyGivenNames s2
    have h2 : Memory.wf s2 := (State.modPwr_kept ..).wf h1
    split
    · exact resetPort_wf h2
    · exact h2)

theorem execPerstDeassert_wf (h : Memory.wf s) : KeepsForm (execPerstDeassert port s) :=
  answer_wf h (fun _ h1 => portsDetect_wf ((State.modPwr_kept ..).wf h1))

theorem execFunctionLevelReset_wf (h : Memory.wf s) : KeepsForm (execFunctionLevelReset port s) :=
  answer_wf h (fun _ h1 => by
    split
    · exact resetPort_wf h1
    · exact h1)

theorem pairD3_wf (h : Memory.wf s) : Memory.wf (s.pairD3 p q) := by
  unfold State.pairD3
  extract_lets +onlyGivenNames s1
  have h1 : Memory.wf s1 := (State.modPair_kept ..).wf h
  split
  · exact h1
  · exact (setFld_wf ..).trans ((setFld_wf ..).trans ((setFld_wf ..).trans h1))

theorem enterD3_wf (h : Memory.wf s) : Memory.wf (s.enterD3 p) := by
  unfold State.enterD3
  extract_lets +onlyGivenNames claimed s1
  have h1 : Memory.wf s1 := foldl_wf _ _ ((State.modPort_kept ..).wf h) (fun _ _ h2 => pairD3_wf h2)
  split
  · exact claimedDue_wf h1
  · exact h1

theorem execD3hotEntry_wf (h : Memory.wf s) : KeepsForm (execD3hotEntry port s) :=
  answer_wf h (fun _ h1 => by
    split
    · exact enterD3_wf h1
    · exact h1)

theorem execPortLinkUp_wf {width speed : BitVec 3} (h : Memory.wf s) : KeepsForm (execPortLinkUp port width speed s) :=
  answer_wf h (fun _ h1 => by
    split
    · exact (setFld_wf ..).trans ((setFld_wf ..).trans ((setFld_wf ..).trans h1))
    · exact h1)

theorem execPortLinkDown_wf (h : Memory.wf s) : KeepsForm (execPortLinkDown port s) :=
  answer_wf h (fun _ h1 => (setReg_wf ..).trans h1)

theorem flushMsix_wf (h : Memory.wf s) : Memory.wf (s.flushMsix p) := by
  unfold State.flushMsix
  extract_lets +onlyGivenNames x
  split
  · exact h
  · exact (State.emit_kept ..).wf ((setReg_wf ..).trans h)

theorem leaveD3_wf (h : Memory.wf s) : Memory.wf (s.leaveD3 p) := flushMsix_wf ((State.modPort_kept ..).wf h)

theorem execD0Return_wf (h : Memory.wf s) : KeepsForm (execD0Return port s) := answer_wf h (fun _ h1 => leaveD3_wf h1)

theorem configWrite_wf {r : CfgReg} (h : Memory.wf s) : Memory.wf (s.configWrite p r v) := by
  unfold State.configWrite
  split
  · exact (State.modPort_kept ..).wf h
  · exact (State.modPort_kept ..).wf h
  · exact (State.modPort_kept ..).wf h
  · split
    · exact enterD3_wf h
    · split
      · exact leaveD3_wf h
      · exact h
  · split
    · exact resetPort_wf h
    · exact (State.modPort_kept ..).wf h
  · exact (State.modPort_kept ..).wf h
  · exact flushMsix_wf ((State.modPort_kept ..).wf h)
  · exact (State.modPort_kept ..).wf h
  · extract_lets +onlyGivenNames log
    split
    · exact (State.modPort_kept ..).wf h
    · exact h
  · exact h

theorem configure_wf {rq : CfgReq} (h : Memory.wf s) : Memory.wf (s.configure p rq) := by
  unfold State.configure
  split
  · exact (State.emit_kept ..).wf h
  · exact (State.emit_kept ..).wf (configWrite_wf h)

theorem execConfigRequest_wf {rq : CfgReq} (h : Memory.wf s) : KeepsForm (execConfigRequest port rq s) :=
  answer_wf h (fun _ h1 => by
    split
    · exact h1
    · split
      · exact (State.emit_kept ..).wf h1
      · exact configure_wf ((State.modPort_kept ..).wf h1))

/-! ## Sys2Proof/Machine/NdomirCore.lean -/

theorem cycleStep_wf {t : Nat} (h : Memory.wf s) : Memory.wf (s.cycleStep t) := by
  unfold State.cycleStep
  split
  · split
    · exact (State.modNd_kept ..).wf h
    · exact (State.modNd_kept ..).wf h
  · split
    · exact (State.led_kept ..).wf ((State.modNd_kept ..).wf h)
    · exact (State.modNd_kept ..).wf h

theorem dropVolts_wf (h : Memory.wf s) : Memory.wf s.dropVolts := by
  unfold State.dropVolts
  split
  · exact throttleDown_wf h
  · exact h

theorem overTemp_wf {die celsius limit : Nat} {junction : Bool} (h : Memory.wf s) :
    Memory.wf (s.overTemp die celsius limit junction) := by
  unfold State.overTemp
  split
  · exact h
  · extract_lets +onlyGivenNames s1 s2
    have h1 : Memory.wf s1 := ite_wf h ((State.fatal_kept ..).wf h)
    have h2 : Memory.wf s2 := dropVolts_wf h1
    split
    · exact (State.modPwr_kept ..).wf ((State.writeLog_kept ..).wf ((State.logEntry_kept ..).wf h2))
    · exact h2

theorem shedPhase_wf (h : Memory.wf s) : Memory.wf (s.shedPhase i) := by
  unfold State.shedPhase
  extract_lets +onlyGivenNames n
  split
  · exact h
  · extract_lets +onlyGivenNames r s1 s2
    have h1 : Memory.wf s1 := showPhases_wf ((State.modPwr_kept ..).wf h)
    have h2 : Memory.wf s2 := cellarChanged_wf h1
    split
    · exact (State.drawn_kept ..).wf ((State.record_kept ..).wf h2)
    · split
      · exact (State.drawn_kept ..).wf ((State.fatal_kept ..).wf h2)
      · exact h2

theorem sample_wf {x : SensorSample} (h : Memory.wf s) : Memory.wf (s.sample x) := by
  unfold State.sample
  extract_lets +onlyGivenNames s1
  have h1 : Memory.wf s1 := (State.modNd_kept ..).wf h
  split
  · split
    · exact h1
    · extract_lets +onlyGivenNames s2
      have h2 : Memory.wf s2 := showSample_wf h1
      exact overTemp_wf (cycleStep_wf h2)
  · split
    · exact h1
    · exact overTemp_wf ((State.modNd_kept ..).wf h1)
  · exact showSample_wf h1
  · exact showSample_wf h1
  · exact showPower_wf h1
  · split
    · exact h1
    · exact (State.modNd_kept ..).wf h1
  · split
    · exact h1
    · exact showSample_wf h1
  · split
    · exact h1
    · exact showSample_wf h1
  · split
    · exact h1
    · exact shedPhase_wf h1

theorem execNdomirSensorPoll_wf {x : SensorSample} (h : Memory.wf s) : KeepsForm (execNdomirSensorPoll x s) :=
  answer_wf h (fun _ h1 => by
    split
    · exact sample_wf h1
    · exact h1)

theorem latchPosition_wf {w : BitVec 6} (h : Memory.wf s) : Memory.wf (s.latchPosition w) := by
  unfold State.latchPosition
  extract_lets +onlyGivenNames s1 s2
  have h1 : Memory.wf s1 := (State.modNd_kept ..).wf h
  have h2 : Memory.wf s2 := (setFld_wf ..).trans ((setFld_wf ..).trans h1)
  exact trainEnabled_wf ((setFld_wf ..).trans ((setFld_wf ..).trans h2))

theorem positionConflict_wf {w : BitVec 6} (h : Memory.wf s) : Memory.wf (s.positionConflict w) := by
  unfold State.positionConflict
  extract_lets +onlyGivenNames s1
  have h1 : Memory.wf s1 := (setFld_wf ..).trans ((setFld_wf ..).trans h)
  exact (State.queueEvent_kept ..).wf ((State.mgtAlert_kept ..).wf h1)

theorem goodFrame_wf {w : BitVec 6} (h : Memory.wf s) : Memory.wf (s.goodFrame w) := by
  unfold State.goodFrame
  split
  · extract_lets +onlyGivenNames run s1
    have h1 : Memory.wf s1 := (State.modNd_kept ..).wf h
    split
    · exact latchPosition_wf h1
    · exact h1
  · split
    · exact (State.modNd_kept ..).wf h
    · extract_lets +onlyGivenNames run s2
      have h2 : Memory.wf s2 := (State.modNd_kept ..).wf h
      split
      · exact positionConflict_wf h2
      · exact h2

theorem execPositionFrame_wf {frame : BitVec 9} (h : Memory.wf s) : KeepsForm (execPositionFrame frame s) :=
  answer_wf h (fun _ h1 => by
    extract_lets +onlyGivenNames s2
    have h2 : Memory.wf s2 := (State.modPwr_kept ..).wf h1
    split
    · exact h2
    · split
      · exact h2
      · exact goodFrame_wf h2)

theorem execPosInLowTimeout_wf (h : Memory.wf s) : KeepsForm (execPosInLowTimeout s) :=
  answer_wf h (fun _ h1 => by
    extract_lets +onlyGivenNames s2
    have h2 : Memory.wf s2 := (State.modPwr_kept ..).wf h1
    split
    · exact latchPosition_wf h2
    · exact h2)

theorem execPositionFrameSend_wf (h : Memory.wf s) : KeepsForm (execPositionFrameSend s) :=
  answer_wf h (fun _ h1 => by
    split
    · split
      · exact (State.emit_kept ..).wf h1
      · exact h1
    · exact h1)

theorem execLedgerHourly_wf (h : Memory.wf s) : KeepsForm (execLedgerHourly s) :=
  answer_wf h (fun _ h1 => by
    split
    · exact h1
    · exact (State.writeLog_kept ..).wf ((State.writeLedger_kept ..).wf ((State.logEntry_kept ..).wf h1)))

theorem execEventRetryTimeout_wf (h : Memory.wf s) : KeepsForm (execEventRetryTimeout s) :=
  answer_wf h (fun _ h1 => by
    split
    · split
      · exact (State.tell_kept ..).wf ((State.modNd_kept ..).wf h1)
      · exact h1
    · exact h1)

theorem dropEvent_wf (h : Memory.wf s) : Memory.wf s.dropEvent :=
  (State.sendEvent_kept ..).wf ((State.setEvents_kept ..).wf ((State.modNd_kept ..).wf h))

theorem execPlatformEventAcknowledged_wf (h : Memory.wf s) : KeepsForm (execPlatformEventAcknowledged s) :=
  answer_wf h (fun _ h1 => by
    split
    · exact dropEvent_wf h1
    · exact h1)

theorem execNonceExpiry_wf (h : Memory.wf s) : KeepsForm (execNonceExpiry s) :=
  answer_wf h (fun _ h1 => (State.modNd_kept ..).wf h1)

theorem setDa_wf {a : Option (BitVec 7)} (h : Memory.wf s) : Memory.wf (s.setDa a) := by
  unfold State.setDa
  extract_lets +onlyGivenNames s1
  have h1 : Memory.wf s1 := (State.modNd_kept ..).wf h
  split
  · exact (setFld_wf ..).trans ((setFld_wf ..).trans h1)
  · exact (setFld_wf ..).trans ((setFld_wf ..).trans h1)

theorem busSeen_wf (h : Memory.wf s) : Memory.wf s.busSeen := (State.modPwr_kept ..).wf h

theorem onI3c_wf (h : Memory.wf s) (hf : ∀ s, Memory.wf s → Memory.wf (f s)) : KeepsForm (onI3c s f) :=
  answer_wf h (fun _ h1 => by
    split
    · exact hf _ h1
    · exact busSeen_wf h1)

theorem ibiDue_wf (h : Memory.wf s) : Memory.wf s.ibiDue := by
  unfold State.ibiDue
  split
  · exact (State.raiseIbi_kept ..).wf h
  · exact h

theorem onI3cDa_wf (h : Memory.wf s) (hf : ∀ s, Memory.wf s → Memory.wf (f s)) : KeepsForm (onI3cDa s f) :=
  onI3c_wf h (fun _ h1 => by
    split
    · exact hf _ h1
    · exact h1)

theorem execEntdaa_wf {da : BitVec 7} (h : Memory.wf s) : KeepsForm (execEntdaa da s) :=
  onI3c_wf h (fun _ h1 => by
    split
    · exact ibiDue_wf (setDa_wf h1)
    · exact h1)

theorem execRstdaa_wf (h : Memory.wf s) : KeepsForm (execRstdaa s) := onI3c_wf h (fun _ h1 => setDa_wf h1)

theorem execSetnewda_wf {da : BitVec 7} (h : Memory.wf s) : KeepsForm (execSetnewda da s) :=
  onI3cDa_wf h (fun _ h1 => setDa_wf h1)

theorem execEnec_wf {ev : Byte} (h : Memory.wf s) : KeepsForm (execEnec ev s) :=
  onI3c_wf h (fun _ h1 => ibiDue_wf ((State.modNd_kept ..).wf h1))

theorem execDisec_wf {ev : Byte} (h : Memory.wf s) : KeepsForm (execDisec ev s) :=
  onI3c_wf h (fun _ h1 => (State.modNd_kept ..).wf h1)

theorem execGetpid_wf (h : Memory.wf s) : KeepsForm (execGetpid s) := onI3cDa_wf h (fun _ h1 => (State.emit_kept ..).wf h1)

theorem execGetbcr_wf (h : Memory.wf s) : KeepsForm (execGetbcr s) := onI3cDa_wf h (fun _ h1 => (State.emit_kept ..).wf h1)

theorem execGetdcr_wf (h : Memory.wf s) : KeepsForm (execGetdcr s) := onI3cDa_wf h (fun _ h1 => (State.emit_kept ..).wf h1)

theorem execGetstatus_wf (h : Memory.wf s) : KeepsForm (execGetstatus s) :=
  onI3cDa_wf h (fun _ h1 => (State.emit_kept ..).wf h1)

theorem execGetmwl_wf (h : Memory.wf s) : KeepsForm (execGetmwl s) := onI3cDa_wf h (fun _ h1 => (State.emit_kept ..).wf h1)

theorem execSetmwl_wf {v : BitVec 16} (h : Memory.wf s) : KeepsForm (execSetmwl v s) :=
  onI3c_wf h (fun _ h1 => (State.modNd_kept ..).wf h1)

theorem execGetmrl_wf (h : Memory.wf s) : KeepsForm (execGetmrl s) := onI3cDa_wf h (fun _ h1 => (State.emit_kept ..).wf h1)

theorem execSetmrl_wf {v : BitVec 16} (h : Memory.wf s) : KeepsForm (execSetmrl v s) :=
  onI3c_wf h (fun _ h1 => (State.modNd_kept ..).wf h1)

/-! ## Sys2Proof/Machine/Management.lean -/

theorem reply_wf {code cc : Nat} {data : List Byte} (h : Memory.wf s) : Memory.wf (s.reply md code cc data) :=
  (State.announce_kept ..).wf ((State.emit_kept ..).wf h)

theorem onMedium_wf (h : Memory.wf s) (hf : ∀ s, Memory.wf s → Memory.wf (f s)) : KeepsForm (onMedium md s f) :=
  answer_wf h (fun _ h1 => by
    split
    · exact hf _ h1
    · split
      · exact busSeen_wf h1
      · exact h1)

theorem onPldm_wf {ty cmd : Nat} (h : Memory.wf s) (hf : ∀ s, Memory.wf s → Memory.wf (f s)) :
    KeepsForm (onPldm md ty cmd s f) :=
  onMedium_wf h (fun _ h1 => by
    split
    · exact hf _ h1
    · exact reply_wf h1)

theorem onSpdm_wf (h : Memory.wf s) (hf : ∀ s, Memory.wf s → Memory.wf (f s)) : KeepsForm (onSpdm md s f) :=
  onMedium_wf h (fun _ h1 => by
    split
    · exact h1
    · exact hf _ h1)

theorem execSetEndpointId_wf {eid : Byte} (h : Memory.wf s) : KeepsForm (execSetEndpointId md eid s) :=
  onMedium_wf h (fun _ h1 => by
    split
    · exact reply_wf h1
    · exact reply_wf ((State.modNd_kept ..).wf h1))

theorem execGetEndpointId_wf (h : Memory.wf s) : KeepsForm (execGetEndpointId md s) := onMedium_wf h (fun _ h1 => reply_wf h1)

theorem execGetEndpointUuid_wf (h : Memory.wf s) : KeepsForm (execGetEndpointUuid md s) :=
  onMedium_wf h (fun _ h1 => reply_wf h1)

theorem execGetMctpVersionSupport_wf {ty : Byte} (h : Memory.wf s) : KeepsForm (execGetMctpVersionSupport md ty s) :=
  onMedium_wf h (fun _ h1 => by
    split
    · exact reply_wf h1
    · split
      · exact (State.drawn_kept ..).wf (reply_wf h1)
      · exact reply_wf h1)

theorem execGetMessageTypeSupport_wf (h : Memory.wf s) : KeepsForm (execGetMessageTypeSupport md s) :=
  onMedium_wf h (fun _ h1 => reply_wf h1)

theorem execGetTid_wf (h : Memory.wf s) : KeepsForm (execGetTid md s) := onPldm_wf h (fun _ h1 => reply_wf h1)

theorem execSetTid_wf {tid : Byte} (h : Memory.wf s) : KeepsForm (execSetTid md tid s) :=
  onPldm_wf h (fun _ h1 => by
    split
    · exact reply_wf h1
    · exact reply_wf ((State.modNd_kept ..).wf h1))

theorem execGetPldmVersion_wf {ty : Byte} (h : Memory.wf s) : KeepsForm (execGetPldmVersion md ty s) :=
  onPldm_wf h (fun _ h1 => by
    split
    · exact reply_wf h1
    · split
      · exact reply_wf h1
      · exact reply_wf h1
      · exact reply_wf h1
      · exact (State.drawn_kept ..).wf (reply_wf h1))

theorem execGetPldmTypes_wf (h : Memory.wf s) : KeepsForm (execGetPldmTypes md s) := onPldm_wf h (fun _ h1 => reply_wf h1)

theorem execGetPldmCommands_wf {ty : Byte} (h : Memory.wf s) : KeepsForm (execGetPldmCommands md ty s) :=
  onPldm_wf h (fun _ h1 => by
    split
    · exact reply_wf h1
    · exact reply_wf h1)

theorem execSetEventReceiver_wf {recv : Option Byte} (h : Memory.wf s) : KeepsForm (execSetEventReceiver md recv s) :=
  onPldm_wf h (fun _ h1 => (State.sendEvent_kept ..).wf (reply_wf ((State.modNd_kept ..).wf h1)))

theorem execPollForPlatformEventMessage_wf (h : Memory.wf s) : KeepsForm (execPollForPlatformEventMessage md s) :=
  onPldm_wf h (fun _ h1 => by
    split
    · exact reply_wf h1
    · split
      · exact dropEvent_wf (reply_wf h1)
      · exact reply_wf h1)

theorem execGetSensorReading_wf {id : BitVec 16} (h : Memory.wf s) : KeepsForm (execGetSensorReading md id s) :=
  onPldm_wf h (fun _ h1 => by
    split
    · exact reply_wf h1
    · exact reply_wf h1)

theorem execGetStateSensorReadings_wf {id : BitVec 16} (h : Memory.wf s) : KeepsForm (execGetStateSensorReadings md id s) :=
  onPldm_wf h (fun _ h1 => by
    split
    · exact reply_wf h1
    · exact reply_wf h1)

theorem execSetNumericEffecterValue_wf {id : BitVec 16} (h : Memory.wf s) :
    KeepsForm (execSetNumericEffecterValue md id v s) :=
  onPldm_wf h (fun _ h1 => by
    split
    · exact reply_wf ((setFld_wf ..).trans h1)
    · exact reply_wf h1)

theorem execGetNumericEffecterValue_wf {id : BitVec 16} (h : Memory.wf s) : KeepsForm (execGetNumericEffecterValue md id s) :=
  onPldm_wf h (fun _ h1 => by
    split
    · exact reply_wf h1
    · exact reply_wf h1)

theorem execGetPdrRepositoryInfo_wf (h : Memory.wf s) : KeepsForm (execGetPdrRepositoryInfo md s) :=
  onPldm_wf h (fun _ h1 => (State.drawn_kept ..).wf (reply_wf h1))

theorem execGetPdr_wf {handle : Word} (h : Memory.wf s) : KeepsForm (execGetPdr md handle s) :=
  onPldm_wf h (fun _ h1 => (State.drawn_kept ..).wf (reply_wf h1))

theorem execQueryDeviceIdentifiers_wf (h : Memory.wf s) : KeepsForm (execQueryDeviceIdentifiers md s) :=
  onPldm_wf h (fun _ h1 => reply_wf h1)

theorem execGetFirmwareParameters_wf (h : Memory.wf s) : KeepsForm (execGetFirmwareParameters md s) :=
  onPldm_wf h (fun _ h1 => reply_wf h1)

theorem execRequestUpdate_wf (h : Memory.wf s) : KeepsForm (execRequestUpdate md s) :=
  onPldm_wf h (fun _ h1 => by
    split
    · exact reply_wf h1
    · split
      · exact reply_wf h1
      · exact reply_wf (showState_wf ((State.modNd_kept ..).wf h1)))

theorem onUpdate_wf {cmd : Nat} (h : Memory.wf s) (hf : ∀ s, Memory.wf s → Memory.wf (f s)) :
    KeepsForm (onUpdate md cmd s f) :=
  onPldm_wf h (fun _ h1 => by
    split
    · exact reply_wf h1
    · exact hf _ h1)

theorem execPassComponentTable_wf {comps : List Nat} (h : Memory.wf s) : KeepsForm (execPassComponentTable md comps s) :=
  onUpdate_wf h (fun _ h1 => by
    split
    · exact reply_wf ((State.modNd_kept ..).wf h1)
    · exact reply_wf h1)

theorem execUpdateComponent_wf {comp : Nat} (h : Memory.wf s) : KeepsForm (execUpdateComponent md comp s) :=
  onUpdate_wf h (fun _ h1 => by
    split
    · exact reply_wf h1
    · split
      · exact reply_wf (reply_wf ((State.modNd_kept ..).wf h1))
      · exact reply_wf h1)

theorem setBank_wf {b : Bool} {x : NorBank (Option FwImage)} (h : Memory.wf s) : Memory.wf (s.setBank c b x) :=
  (State.modNd_kept ..).wf h

theorem storeImage_wf {i : FwImage} (h : Memory.wf s) : Memory.wf (s.storeImage c i) := setBank_wf h

theorem execFirmwareData_wf {file : ImageFile} (h : Memory.wf s) : KeepsForm (execFirmwareData md file s) :=
  onUpdate_wf h (fun _ h1 => by
    extract_lets +onlyGivenNames img
    split
    · exact reply_wf h1
    · extract_lets +onlyGivenNames c s2
      have h2 : Memory.wf s2 := (State.modNd_kept ..).wf (reply_wf (storeImage_wf h1))
      split
      · exact reply_wf (reply_wf ((State.modNd_kept ..).wf h2))
      · exact reply_wf (fwHistory_wf ((State.modNd_kept ..).wf h2)))

theorem activate_wf (h : Memory.wf s) : Memory.wf (s.activate c) := by
  unfold State.activate
  extract_lets +onlyGivenNames st b x s1 s2
  have h1 : Memory.wf s1 := setBank_wf h
  have h2 : Memory.wf s2 := ite_wf h1 ((State.modPwr_kept ..).wf h1)
  split
  · exact fwHistory_wf h2
  · exact h2

theorem execActivateFirmware_wf (h : Memory.wf s) : KeepsForm (execActivateFirmware md s) :=
  onUpdate_wf h (fun _ h1 => by
    split
    · exact reply_wf h1
    · split
      · exact reply_wf h1
      · extract_lets +onlyGivenNames s2 s4
        have h2 : Memory.wf s2 := foldl_wf _ _ h1 (fun _ _ h3 => activate_wf h3)
        have h4 : Memory.wf s4 := (State.modNd_kept ..).wf h2
        exact reply_wf (showState_wf (loadIds_wf ((State.mgtAlert_kept ..).wf h4))))

theorem execGetStatus_wf (h : Memory.wf s) : KeepsForm (execGetStatus md s) := onPldm_wf h (fun _ h1 => reply_wf h1)

theorem execCancelUpdateComponent_wf (h : Memory.wf s) : KeepsForm (execCancelUpdateComponent md s) :=
  onUpdate_wf h (fun _ h1 => by
    split
    · exact reply_wf ((State.modNd_kept ..).wf h1)
    · exact reply_wf h1)

theorem execCancelUpdate_wf (h : Memory.wf s) : KeepsForm (execCancelUpdate md s) :=
  onUpdate_wf h (fun _ h1 => reply_wf (showState_wf ((State.modNd_kept ..).wf h1)))

theorem execSpdmGetVersion_wf (h : Memory.wf s) : KeepsForm (execSpdmGetVersion md s) := onSpdm_wf h (fun _ h1 => reply_wf h1)

theorem execGetCapabilities_wf (h : Memory.wf s) : KeepsForm (execGetCapabilities md s) :=
  onSpdm_wf h (fun _ h1 => reply_wf h1)

theorem execNegotiateAlgorithms_wf (h : Memory.wf s) : KeepsForm (execNegotiateAlgorithms md s) :=
  onSpdm_wf h (fun _ h1 => reply_wf h1)

theorem execGetDigests_wf (h : Memory.wf s) : KeepsForm (execGetDigests md s) := onSpdm_wf h (fun _ h1 => reply_wf h1)

theorem execGetCertificate_wf {off : Nat} (h : Memory.wf s) : KeepsForm (execGetCertificate md slot off n s) :=
  onSpdm_wf h (fun _ h1 => by
    split
    · exact reply_wf h1
    · exact reply_wf h1)

theorem execChallenge_wf {idx : Byte} {nonce : BitVec 256} (h : Memory.wf s) :
    KeepsForm (execChallenge md slot idx nonce s) :=
  onSpdm_wf h (fun _ h1 => by
    split
    · exact reply_wf h1
    · exact (State.drawn_kept ..).wf (reply_wf h1))

theorem execGetMeasurements_wf {idx : Byte} {nonce : BitVec 256} (h : Memory.wf s) :
    KeepsForm (execGetMeasurements md slot idx nonce s) :=
  onSpdm_wf h (fun _ h1 => by
    split
    · exact reply_wf h1
    · split
      · exact reply_wf h1
      · extract_lets +onlyGivenNames blocks
        exact (State.drawn_kept ..).wf (reply_wf h1))

/-! ## Sys2Proof/Machine/Lifecycle.lean -/

theorem onOem_wf {cmd : Nat} (h : Memory.wf s) (hf : ∀ s, Memory.wf s → Memory.wf (f s)) : KeepsForm (onOem md cmd s f) :=
  onPldm_wf h (fun _ h1 => hf _ h1)

theorem execGetNonce_wf (h : Memory.wf s) : KeepsForm (execGetNonce md s) :=
  onOem_wf h (fun _ h1 => by
    extract_lets +onlyGivenNames n
    exact reply_wf ((State.modNd_kept ..).wf ((State.drawn_kept ..).wf h1)))

theorem execGetLedger_wf {piece : Nat} (h : Memory.wf s) : KeepsForm (execGetLedger md piece s) :=
  onOem_wf h (fun _ h1 => by
    split
    · exact reply_wf h1
    · exact reply_wf h1)

theorem signedOem_wf {rq : SignedReq} {cmd : Nat} {body : List Byte} {stateOk : State → Bool} {keys : State → List Key}
    (h : Memory.wf s) (hf : ∀ s, Memory.wf s → Memory.wf (f s)) : KeepsForm (signedOem rq cmd body s stateOk keys f) :=
  onOem_wf h (fun _ h1 => by
    split
    · exact reply_wf (hf _ ((State.modNd_kept ..).wf h1))
    · exact reply_wf h1)

theorem setOwner_wf {k : Option Key} {wipe : Option Nat} (h : Memory.wf s) : Memory.wf (s.setOwner k wipe) :=
  (State.ledNow_kept ..).wf ((State.writeConfigWith_kept ..).wf ((State.modNd_kept ..).wf h))

theorem beginWipe_wf {cause : Nat} (h : Memory.wf s) : Memory.wf (s.beginWipe cause) := by
  unfold State.beginWipe
  extract_lets +onlyGivenNames s1 s2 s3
  have h1 : Memory.wf s1 := (State.modNd_kept ..).wf ((State.writeConfigWith_kept ..).wf h)
  have h2 : Memory.wf s2 := (State.halt_kept ..).wf h1
  have h3 : Memory.wf s3 := foldl_wf _ _ h2 (fun _ _ h4 => foldl_wf _ _ h4 (fun _ _ h5 => startRevoke_wf h5))
  exact showState_wf h3

theorem execTakeOwnership_wf {rq : SignedReq} {key : Key} (h : Memory.wf s) : KeepsForm (execTakeOwnership rq key s) :=
  signedOem_wf h (fun _ h1 => setOwner_wf h1)

theorem execTransferOwnership_wf {rq : SignedReq} {key : Key} (h : Memory.wf s) :
    KeepsForm (execTransferOwnership rq key s) :=
  signedOem_wf h (fun _ h1 => beginWipe_wf (setOwner_wf h1))

theorem execReleaseOwnership_wf {rq : SignedReq} (h : Memory.wf s) : KeepsForm (execReleaseOwnership rq s) :=
  signedOem_wf h (fun _ h1 => beginWipe_wf (setOwner_wf h1))

theorem execSetTenantKeys_wf {rq : SignedReq} {keys : List Key} (h : Memory.wf s) :
    KeepsForm (execSetTenantKeys rq keys s) := by
  unfold execSetTenantKeys
  split
  · exact onOem_wf h (fun _ h1 => reply_wf h1)
  · exact signedOem_wf h (fun _ h2 => (State.writeLedger_kept ..).wf ((State.writeConfig_kept ..).wf
        ((State.modNd_kept ..).wf h2)))

theorem execTenantWipe_wf {rq : SignedReq} (h : Memory.wf s) : KeepsForm (execTenantWipe rq s) :=
  signedOem_wf h (fun _ h1 => beginWipe_wf h1)

theorem execEnterRefurbishment_wf {rq : SignedReq} (h : Memory.wf s) : KeepsForm (execEnterRefurbishment rq s) :=
  signedOem_wf h (fun _ h1 => beginWipe_wf ((State.modNd_kept ..).wf h1))

theorem erase_wf (h : Memory.wf s) : Memory.wf s.erase := by
  obtain ⟨-, -, hh⟩ := (Memory.wf_iff s).mp h
  exact (Memory.wf_iff _).mpr ⟨rfl, rfl, hh⟩

theorem recordWipe_wf {cause failed : Nat} {sramClean : Bool} (h : Memory.wf s) :
    Memory.wf (s.recordWipe cause failed sramClean) := by
  unfold State.recordWipe
  extract_lets +onlyGivenNames s1
  have h1 : Memory.wf s1 := (State.modNd_kept ..).wf h
  exact (State.mgtAlert_kept ..).wf ((State.ledNow_kept ..).wf ((State.writeConfigWith_kept ..).wf h1))

theorem finishWipe_wf {cause failed : Nat} {sramClean : Bool} (h : Memory.wf s) :
    Memory.wf (s.finishWipe cause failed sramClean) := by
  unfold State.finishWipe
  extract_lets +onlyGivenNames resumed s1
  have h1 : Memory.wf s1 := recordWipe_wf (erase_wf h)
  split
  · exact portsDetect_wf (showState_wf h1)
  · exact startReset_wf h1

theorem execWipeComplete_wf {failed : Nat} {sramClean : Bool} (h : Memory.wf s) :
    KeepsForm (execWipeComplete failed sramClean s) :=
  answer_wf h (fun _ h1 => by
    split
    · exact h1
    · split
      · split
        · exact finishWipe_wf h1
        · exact h1
      · split
        · exact finishWipe_wf h1
        · exact h1)

theorem refurbNib_wf {unit : Nat} (h : Memory.wf s) : Memory.wf (s.refurbNib p unit) := by
  unfold State.refurbNib
  split
  exact ite_wf (setRetired_wf h) ((modSlot_wf ..).trans h)

theorem refurbLane_wf {unit : Nat} (h : Memory.wf s) : Memory.wf (s.refurbLane p unit) := by
  unfold State.refurbLane
  extract_lets +onlyGivenNames lanes
  split
  · exact setRetired_wf h
  · exact (modSlot_wf ..).trans h

theorem rebuildMap_wf {r : RefurbResult} (h : Memory.wf s) : Memory.wf (s.rebuildMap r) := by
  unfold State.rebuildMap
  extract_lets _ _ _ _ _ s1 s2 s3 s4 s5
  have h1 : Memory.wf s1 := (Memory.wf_congr rfl rfl rfl).trans h
  have h2 : Memory.wf s2 := foldl_wf _ _ h1 (fun _ _ h => (setReg_wf ..).trans h)
  have h3 : Memory.wf s3 := foldl_wf _ _ h2 (fun _ _ h => setRetired_wf h)
  have h4 : Memory.wf s4 := foldl_wf _ _ h3 (fun _ _ h => refurbNib_wf h)
  have h5 : Memory.wf s5 := foldl_wf _ _ h4 (fun _ _ h => refurbLane_wf h)
  exact foldl_wf _ _ h5 (fun _ _ h => showPhases_wf h)

theorem refurbCores_wf {good cs free : List Nat} (h : Memory.wf s) : Memory.wf (s.refurbCores q good cs free) := by
  induction cs generalizing s free with
  | nil => exact setSpare_wf h
  | cons c r ih =>
    unfold State.refurbCores
    split
    · exact ih h
    · split
      · exact ih (setCoreSlot_wf h)
      · exact ih (setAvail_wf h)

theorem refurbCluster_wf (h : Memory.wf s) : Memory.wf (s.refurbCluster q) := by
  unfold State.refurbCluster
  extract_lets +onlyGivenNames good cs
  exact refurbCores_wf h

theorem assignGrade_wf (h : Memory.wf s) : Memory.wf s.assignGrade := by
  unfold State.assignGrade
  extract_lets +onlyGivenNames g old s1 s2 s3
  have h1 : Memory.wf s1 := (State.modNd_kept ..).wf h
  have h2 : Memory.wf s2 := (State.ledNow_kept ..).wf (cellarChanged_wf h1)
  have h3 : Memory.wf s3 := loadMgt_wf (loadIds_wf h2)
  split
  · exact h3
  · exact (State.queueEvent_kept ..).wf h3

theorem execRefurbishmentComplete_wf {r : RefurbResult} (h : Memory.wf s) : KeepsForm (execRefurbishmentComplete r s) :=
  answer_wf h (fun _ h1 => by
    split
    · extract_lets +onlyGivenNames s2
      have h2 : Memory.wf s2 := assignGrade_wf (foldl_wf _ _ (rebuildMap_wf h1) (fun _ _ h3 => refurbCluster_wf h3))
      exact startReset_wf ((State.modNd_kept ..).wf h2)
    · exact h1)

/-! ## Sys2Proof/Machine/MemOps.lean -/

theorem tlbInvalidate_wf (h : Memory.wf s) : Memory.wf (s.tlbInvalidate v) := by
  unfold State.tlbInvalidate
  extract_lets +onlyGivenNames first
  exact (setFld_wf ..).trans ((State.modHbm_kept ..).wf h)

theorem execTlbInvalidate_wf (h : Memory.wf s) : KeepsForm (execTlbInvalidate port v s) :=
  answer_wf h (fun _ h1 => bar0Write_wf h1 (fun _ h2 => tlbInvalidate_wf h2))

theorem execTlbInvalidateDone_wf (h : Memory.wf s) : KeepsForm (execTlbInvalidateDone s) :=
  answer_wf h (fun _ h1 => by
    split
    · exact h1
    · exact (setFld_wf ..).trans ((State.modHbm_kept ..).wf h1))

theorem execBar4Read_wf {off : Nat} (h : Memory.wf s) : KeepsForm (execBar4Read port off n s) :=
  answer_wf h (fun _ h1 => by
    split
    · exact h1
    · split
      · exact (State.emit_kept ..).wf ((State.aerError_kept ..).wf h1)
      · split
        · next e2 => exact (State.emit_kept ..).wf (wf_fst e2 (read_wf h1 _ _ _))
        · next e3 => exact (State.emit_kept ..).wf ((State.aerError_kept ..).wf (wf_fst e3 (read_wf h1 _ _ _)))
        · next e4 => exact (State.emit_kept ..).wf ((State.aerError_kept ..).wf (wf_fst e4 (read_wf h1 _ _ _))))

theorem bar4Store_wf {agent : Nat} {ps : List (Nat × Nat)} {b : List Byte} (h : Memory.wf s) :
    Memory.wf (s.bar4Store agent ps b) := by
  induction ps generalizing s b with
  | nil => exact h
  | cons p r ih => exact ih (put_wf h ..)

theorem execBar4Write_wf {off : Nat} {bytes : List Byte} (h : Memory.wf s) : KeepsForm (execBar4Write port off bytes s) :=
  answer_wf h (fun _ h1 => by
    split
    · exact bar4Store_wf h1
    · exact h1)

theorem copyBlock_wf {blk : Nat} (h : Memory.wf s) : Memory.wf (s.copyBlock blk) :=
  foldl_wf _ _ h (fun _ _ h1 => (State.meetUnit_tended ..).wf h1)

theorem execRetirementComplete_wf {stack blk : Nat} (h : Memory.wf s) : KeepsForm (execRetirementComplete stack blk s) :=
  answer_wf h (fun _ h1 => by
    extract_lets +onlyGivenNames k
    split
    · exact h1
    · split
      · exact h1
      · extract_lets +onlyGivenNames s2 s3
        have h2 : Memory.wf s2 := copyBlock_wf h1
        have h3 : Memory.wf s3 := cellarChanged_wf (modHbm_bytes_wf h2 fun _ hb => copyInto_bytes_wf hb)
        exact (State.ledNow_kept ..).wf h3)

theorem execPatrolScrub_wf {stack unit : Nat} {found : ScrubResult} (h : Memory.wf s) :
    KeepsForm (execPatrolScrub stack unit found s) :=
  answer_wf h (fun _ h1 => by
    split
    · exact h1
    · extract_lets +onlyGivenNames u s2 s3 now
      have h2 : Memory.wf s2 := (State.rouse_kept ..).wf h1
      have h3 : Memory.wf s3 := ite_wf ((State.meetUnit_tended ..).wf h2) ((State.meet_tended ..).wf h2)
      exact (State.drawn_kept ..).wf ((setFld_wf ..).trans h3))

theorem execPatrolPassComplete_wf (h : Memory.wf s) : KeepsForm (execPatrolPassComplete s) :=
  answer_wf h (fun _ h1 => by
    split
    · exact (setFld_wf ..).trans ((State.modHbm_kept ..).wf h1)
    · exact h1)

theorem coreSram_wf {addr : Nat} {corrected again : Bool} (h : Memory.wf s) :
    Memory.wf (s.coreSram p addr corrected again) := by
  unfold State.coreSram
  extract_lets +onlyGivenNames r
  split
  · split
    · extract_lets +onlyGivenNames s1
      have h1 : Memory.wf s1 := (State.drawn_kept ..).wf ((State.record_kept ..).wf h)
      split
      · exact wordLost_wf h1 _
      · exact h1
    · exact coreFault_wf ((State.drawn_kept ..).wf h)
  · extract_lets +onlyGivenNames s2
    have h2 : Memory.wf s2 := (State.drawn_kept ..).wf ((State.record_kept ..).wf h)
    split
    · exact wordLost_wf h2 _
    · exact h2

theorem mseSram_wf {corrected again : Bool} (h : Memory.wf s) : Memory.wf (s.mseSram k i corrected again) := by
  unfold State.mseSram
  extract_lets +onlyGivenNames va s1
  have h1 : Memory.wf s1 := ite_wf h (modMse_wf h)
  exact mseWord_wf h1

theorem sramFinding_wf {f : SramFinding} (h : Memory.wf s) : Memory.wf (s.sramFinding f) := by
  unfold State.sramFinding
  split
  · split
    · exact coreSram_wf h
    · exact h
  · split
    · exact mseSram_wf h
    · exact h

theorem execSramScrub_wf {found : List SramFinding} (h : Memory.wf s) : KeepsForm (execSramScrub found s) :=
  answer_wf h (fun _ h1 => by
    split
    · exact pump_wf (foldl_wf _ _ h1 (fun _ _ h2 => sramFinding_wf h2))
    · exact h1)

/-! ## Sys2Proof/Machine/Packets.lean -/

theorem freed_wf {p : Packet} (h : Memory.wf s) : Memory.wf (s.freed l p) := by
  unfold State.freed
  split
  · exact h
  · exact owes_wf h

theorem takeIn_wf {p : Packet} {of : Packet → Bool} {f : State → Packet → State} (h : Memory.wf s)
    (hf : ∀ s x, Memory.wf s → Memory.wf (f s x)) : Memory.wf (s.takeIn l p of f) := by
  unfold State.takeIn
  split
  · exact h
  · split
    · split
      · exact freed_wf (hf _ _ ((State.modLink_kept ..).wf h))
      · exact h
    · split
      · exact h
      · split
        · exact owes_wf (refuse_wf h)
        · exact freed_wf (hf _ _ h)

theorem deliver_wf {p : Packet} {of : Packet → Bool} {f : State → Packet → State} (h : Memory.wf s)
    (hf : ∀ s x, Memory.wf s → Memory.wf (f s x)) : Memory.wf (s.deliver l p of f) :=
  takeIn_wf h (fun _ _ h1 => by
    split
    · exact h1
    · exact hf _ _ h1)

theorem transit_wf {p : Packet} (h : Memory.wf s) : Memory.wf (s.transit l p) := by
  unfold State.transit
  extract_lets +onlyGivenNames most
  split
  · exact refuse_wf h
  · exact (State.forward_kept ..).wf h

theorem execTransitForward_wf {p : Packet} (h : Memory.wf s) : KeepsForm (execTransitForward l p s) :=
  answer_wf h (fun _ h1 => takeIn_wf h1 (fun _ _ h2 => transit_wf h2))

theorem refuseWrite_wf {p : Packet} {frozen : Bool} (h : Memory.wf s) : Memory.wf (s.refuseWrite l p frozen) :=
  (State.modNet_kept ..).wf (refuse_wf h)

theorem writeBytes_wf {agent : Nat} {upd : Bool} {bs : List (Nat × Byte)} (h : Memory.wf s) :
    Memory.wf (s.writeBytes agent upd bs).1 := by
  induction bs generalizing s with
  | nil => exact h
  | cons e r ih =>
    unfold State.writeBytes
    split
    · next e1 => exact wf_fst e1 (write_wf h ..)
    · next e2 => exact ih (wf_fst e2 (write_wf h ..))

theorem pktWrite_wf {p : Packet} (h : Memory.wf s) : Memory.wf (s.pktWrite l p) := by
  unfold State.pktWrite
  extract_lets +onlyGivenNames va n
  split
  · exact refuseWrite_wf h
  · split
    · next e1 => exact refuseWrite_wf (wf_fst e1 ((State.probe_tended ..).wf h))
    · next e2 =>
        split
        · exact writeBytes_wf (wf_fst e2 ((State.probe_tended ..).wf h))
        · exact write_wf (wf_fst e2 ((State.probe_tended ..).wf h)) _ _ _ _

theorem execPktWrite_wf {p : Packet} (h : Memory.wf s) : KeepsForm (execPktWrite l p s) :=
  answer_wf h (fun _ h1 => deliver_wf h1 (fun _ _ h2 => pktWrite_wf h2))

theorem pktRead_wf {p : Packet} (h : Memory.wf s) : Memory.wf (s.pktRead l p) := by
  unfold State.pktRead
  extract_lets +onlyGivenNames va n id no
  have hno : ∀ s x1, Memory.wf s → Memory.wf (no s x1) := fun _ _ h1 => (State.readResp_kept ..).wf h1
  split
  · exact hno _ _ h
  · split
    · exact hno _ _ h
    · split
      · next e2 => exact (State.readResp_kept ..).wf (wf_fst e2 (read_wf h _ _ _))
      · next e3 => exact hno _ _ (wf_fst e3 (read_wf h _ _ _))
      · next e4 => exact hno _ _ (wf_fst e4 (read_wf h _ _ _))

theorem execPktRead_wf {p : Packet} (h : Memory.wf s) : KeepsForm (execPktRead l p s) :=
  answer_wf h (fun _ h1 => takeIn_wf h1 (fun _ _ h2 => pktRead_wf h2))

theorem readEnds_wf {waiter : Nat} {pf other : Bool} {data : List Byte} (h : Memory.wf s) :
    Memory.wf (s.readEnds id waiter status pf other data) := by
  unfold State.readEnds
  split
  · exact groupRead_wf h
  · split
    · exact groupRead_wf h
    · split
      · exact dmaResponse_wf h
      · exact markRead_wf h

theorem endRead_wf {node : Option (BitVec 16)} {pf other : Bool} {data : List Byte} (h : Memory.wf s) :
    Memory.wf (s.endRead id node status pf other data) := by
  unfold State.endRead
  split
  · exact h
  · exact readEnds_wf ((State.modNet_kept ..).wf h)

theorem pktReadResp_wf {p : Packet} (h : Memory.wf s) : Memory.wf (s.pktReadResp p) := by
  unfold State.pktReadResp
  extract_lets +onlyGivenNames status s1
  have h1 : Memory.wf s1 := endRead_wf h
  split
  · exact peerFenced_wf h1
  · exact h1

theorem execPktReadResp_wf {p : Packet} (h : Memory.wf s) : KeepsForm (execPktReadResp l p s) :=
  answer_wf h (fun _ h1 => deliver_wf h1 (fun _ _ h2 => pktReadResp_wf h2))

theorem execReadTimeout_wf (h : Memory.wf s) : KeepsForm (execReadTimeout id s) :=
  answer_wf h (fun _ h1 => by
    split
    · exact endRead_wf h1
    · exact h1)

theorem exclude_wf (h : Memory.wf s) : Memory.wf (s.exclude node l) := by
  unfold State.exclude
  extract_lets +onlyGivenNames s1
  have h1 : Memory.wf s1 := (State.modNet_kept ..).wf h
  exact (setFld_wf ..).trans h1

theorem onLost_wf {p : Packet} (h : Memory.wf s) : Memory.wf (s.onLost p) := by
  unfold State.onLost
  split
  · exact endRead_wf h
  · split
    · exact h
    · exact pump_wf (seqLost_wf h)

theorem lostNotice_wf {p : Packet} (h : Memory.wf s) : Memory.wf (s.lostNotice p) := by
  unfold State.lostNotice
  extract_lets +onlyGivenNames b q node
  exact onLost_wf (exclude_wf h)

theorem execLostNotice_wf {p : Packet} (h : Memory.wf s) : KeepsForm (execLostNotice l p s) :=
  answer_wf h (fun _ h1 => by
    split
    · exact lostNotice_wf ((State.modNet_kept ..).wf h1)
    · exact deliver_wf h1 (fun _ _ h2 => lostNotice_wf h2))

theorem execExclusionExpiry_wf {node : Nat} (h : Memory.wf s) : KeepsForm (execExclusionExpiry node l s) :=
  answer_wf h (fun _ h1 => by
    extract_lets +onlyGivenNames s2
    have h2 : Memory.wf s2 := (State.modNet_kept ..).wf h1
    exact (setFld_wf ..).trans h2)

theorem pktContrib_wf {p : Packet} (h : Memory.wf s) : Memory.wf (s.pktContrib l p) := by
  unfold State.pktContrib
  extract_lets +onlyGivenNames y
  have hy : Memory.wf y.1 := contribute_wf h
  split
  · exact refuse_wf hy
  · exact pump_wf hy
  · exact modMse_wf ((State.modLink_kept ..).wf hy)

theorem execPktContrib_wf {p : Packet} (h : Memory.wf s) : KeepsForm (execPktContrib l p s) :=
  answer_wf h (fun _ h1 => deliver_wf h1 (fun _ _ h2 => pktContrib_wf h2))

theorem collective_wf {p : Packet} {ty : BitVec 4} {other : Nat → Bool} {arg len : Nat} {f : State → Packet → State}
    (h : Memory.wf s) (hf : ∀ s x, Memory.wf s → Memory.wf (f s x)) : Memory.wf (s.collective l p ty other arg len f) :=
  deliver_wf h (fun _ _ h1 => by
    split
    · exact pump_wf (hf _ _ h1)
    · exact refuse_wf h1)

theorem execSealClean_wf {p : Packet} (h : Memory.wf s) : KeepsForm (execSealClean l p s) :=
  answer_wf h (fun _ h1 => collective_wf h1 (fun _ _ h2 => cleanFrom_wf h2))

theorem execSealUp_wf {p : Packet} (h : Memory.wf s) : KeepsForm (execSealUp l p s) :=
  answer_wf h (fun _ h1 => collective_wf h1 (fun _ _ h2 => upFrom_wf h2))

theorem execSealDown_wf {p : Packet} (h : Memory.wf s) : KeepsForm (execSealDown l p s) :=
  answer_wf h (fun _ h1 => collective_wf h1 (fun _ _ h2 => downFrom_wf h2))

theorem execPktRetract_wf {p : Packet} (h : Memory.wf s) : KeepsForm (execPktRetract l p s) :=
  answer_wf h (fun _ h1 => deliver_wf h1 (fun _ _ h2 => by
    split
    · exact pump_wf (retractFrom_wf h2)
    · exact refuse_wf h2))

theorem execPktResend_wf {p : Packet} (h : Memory.wf s) : KeepsForm (execPktResend l p s) :=
  answer_wf h (fun _ h1 => collective_wf h1 (fun _ _ h2 => resendFrom_wf h2))

theorem arriveFrom_wf {n : BitVec 16} (h : Memory.wf s) : Memory.wf (s.arriveFrom n) := by
  unfold State.arriveFrom
  split
  · exact h
  · split
    · exact (modSeq_wf ..).trans h
    · exact h

theorem execBarrierArrive_wf {p : Packet} (h : Memory.wf s) : KeepsForm (execBarrierArrive l p s) :=
  answer_wf h (fun _ h1 => collective_wf h1 (fun _ _ h2 => arriveFrom_wf h2))

theorem releaseFrom_wf {n : BitVec 16} (h : Memory.wf s) : Memory.wf (s.releaseFrom n) := by
  unfold State.releaseFrom
  split
  · split
    · exact runBegins_wf (foldl_wf _ _ h (fun _ _ h1 => (State.send_kept ..).wf h1))
    · exact h
  · exact h

theorem execBarrierRelease_wf {p : Packet} (h : Memory.wf s) : KeepsForm (execBarrierRelease l p s) :=
  answer_wf h (fun _ h1 => collective_wf h1 (fun _ _ h2 => releaseFrom_wf h2))

theorem onMessage_wf {p : Packet} {cls : Nat → Bool} {f : State → Packet → State} (h : Memory.wf s)
    (hf : ∀ s x, Memory.wf s → Memory.wf (f s x)) : Memory.wf (s.onMessage l p cls f) :=
  deliver_wf h (fun _ _ h1 => hf _ _ h1)

theorem execGathered_wf {p : Packet} (h : Memory.wf s) : KeepsForm (execGathered l p s) :=
  answer_wf h (fun _ h1 => onMessage_wf h1 (fun _ _ h2 => pump_wf (gatheredFrom_wf h2)))

theorem execReplaying_wf {p : Packet} (h : Memory.wf s) : KeepsForm (execReplaying l p s) :=
  answer_wf h (fun _ h1 => onMessage_wf h1 (fun _ _ h2 => pump_wf (replayingFrom_wf h2)))

theorem execHaltstep_wf {p : Packet} (h : Memory.wf s) : KeepsForm (execHaltstep l p s) :=
  answer_wf h (fun _ h1 => onMessage_wf h1 (fun _ _ h2 => haltstepFrom_wf h2))

theorem mapEntry_wf {node : Nat} {b : List Byte} (h : Memory.wf s) : Memory.wf (s.mapEntry node b) := by
  unfold State.mapEntry
  extract_lets +onlyGivenNames w l st s1
  have h1 : Memory.wf s1 := (State.modNet_kept ..).wf h
  split
  · split
    · exact peerFenced_wf h1
    · exact h1
  · split
    · extract_lets +onlyGivenNames s2
      have h2 : Memory.wf s2 := (State.modNet_kept ..).wf h1
      exact (setFld_wf ..).trans h2
    · exact h1

theorem execLinkStateNotice_wf {p : Packet} (h : Memory.wf s) : KeepsForm (execLinkStateNotice l p s) :=
  answer_wf h (fun _ h1 => onMessage_wf h1 (fun _ _ h2 => by
    split
    · exact foldl_wf _ _ h2 (fun _ _ h3 => mapEntry_wf h3)
    · exact h2))

theorem execNdomirMessage_wf {p : Packet} (h : Memory.wf s) : KeepsForm (execNdomirMessage l p s) :=
  answer_wf h (fun _ h1 => onMessage_wf h1 (fun _ _ h2 => by
    split
    · exact h2
    · exact refuse_wf h2))

/-! ## Sys2Proof/Machine/RegWrite.lean -/

theorem plainWrite_wf {r : Reg} (h : Memory.wf s) : Memory.wf (s.plainWrite r i j v) := (setReg_wf ..).trans h

theorem writeBut_wf {f : Field} (h : Memory.wf s) : Memory.wf (s.writeBut f i j v) := plainWrite_wf h

theorem seqCmdReg_wf (h : Memory.wf s) : Memory.wf (s.seqCmdReg v) := by
  unfold State.seqCmdReg
  extract_lets +onlyGivenNames clear s1
  have h1 : Memory.wf s1 := ite_wf ((setFld_wf ..).trans h) h
  split
  · exact h1
  · exact seqCmdWrite_wf h1

theorem imodeWrite_wf (h : Memory.wf s) : Memory.wf (s.imodeWrite g v) := by
  unfold State.imodeWrite
  split
  · exact writeBut_wf h
  · exact plainWrite_wf h

theorem wiringWrite_wf {f : Field} (h : Memory.wf s) : Memory.wf (s.wiringWrite f v) := by
  unfold State.wiringWrite
  split
  · exact plainWrite_wf h
  · exact writeBut_wf h

theorem gportWrite_wf (h : Memory.wf s) : Memory.wf (s.gportWrite l v) := by
  unfold State.gportWrite
  extract_lets +onlyGivenNames s11
  have hs11 : Memory.wf s11 := plainWrite_wf h
  split
  · exact (State.tellLink_kept ..).wf hs11
  · exact hs11

theorem ringWrite_wf {r : Reg} (h : Memory.wf s) : Memory.wf (s.ringWrite r k j v) := by
  unfold State.ringWrite
  extract_lets +onlyGivenNames s1
  have h1 : Memory.wf s1 := plainWrite_wf h
  split
  · exact seqRetry_wf h1
  · exact h1

theorem lscaleWrite_wf (h : Memory.wf s) : Memory.wf (s.lscaleWrite v) := by
  unfold State.lscaleWrite
  split
  · exact h
  · split
    · exact (modSeq_wf ..).trans h
    · extract_lets +onlyGivenNames s1
      have h1 : Memory.wf s1 := plainWrite_wf ((modSeq_wf ..).trans h)
      exact setLsexp_wf h1

theorem lsgrowWrite_wf (h : Memory.wf s) : Memory.wf (s.lsgrowWrite v) := by
  unfold State.lsgrowWrite
  split
  · exact (modSeq_wf ..).trans h
  · exact plainWrite_wf ((modSeq_wf ..).trans h)

theorem fbctlWrite_wf (h : Memory.wf s) : Memory.wf (s.fbctlWrite v) := by
  unfold State.fbctlWrite
  split
  · exact (modSeq_wf ..).trans h
  · exact settleFallBack_wf (plainWrite_wf ((modSeq_wf ..).trans h))

theorem alertWrite_wf (h : Memory.wf s) : Memory.wf (s.alertWrite p v) := by
  unfold State.alertWrite
  extract_lets +onlyGivenNames s1
  have h1 : Memory.wf s1 := plainWrite_wf h
  split
  · exact (setReg_wf ..).trans h1
  · exact h1

theorem baseWrite_wf {r : Reg} (h : Memory.wf s) : Memory.wf (s.baseWrite r p q v) := by
  unfold State.baseWrite
  split
  · exact h
  · exact plainWrite_wf h

theorem qctlClear_wf (h : Memory.wf s) : Memory.wf (s.qctlClear p q v) := by
  unfold State.qctlClear
  split
  · exact disablePair_wf h
  · exact plainWrite_wf h

theorem regWrite_wf {r : Reg} (h : Memory.wf s) : Memory.wf (s.regWrite port r i j v) := by
  unfold State.regWrite
  split
  · exact setMode_wf h
  · exact heartbeat_wf h
  · split
    · exact claim_wf h
    · exact h
  · exact baseWrite_wf h
  · exact baseWrite_wf h
  · exact baseWrite_wf h
  · exact baseWrite_wf h
  · exact baseWrite_wf h
  · exact baseWrite_wf h
  · exact qctlClear_wf h
  · exact alertWrite_wf h
  · exact flushMsix_wf (plainWrite_wf h)
  · exact seqCmdReg_wf h
  · exact drtailWrite_wf h
  · exact tlbInvalidate_wf h
  · exact imodeWrite_wf h
  · exact ringWrite_wf h
  · exact ringWrite_wf h
  · exact mseTailWrite_wf h
  · exact dmaTailWrite_wf h
  · exact linkCtl_wf h
  · exact gportWrite_wf h
  · exact wiringWrite_wf h
  · exact wiringWrite_wf h
  · exact erheadWrite_wf h
  · exact lscaleWrite_wf h
  · exact lsgrowWrite_wf h
  · exact fbctlWrite_wf h
  · exact tsoffWrite_wf h
  · split
    · exact startReset_wf h
    · exact h
  · split
    · exact h
    · exact plainWrite_wf h
  · split
    · exact h
    · exact plainWrite_wf h
  · exact pstailWrite_wf h
  · exact fectlWrite_wf h
  · exact gctlWrite_wf h
  · exact dbgdataWrite_wf h
  · exact plainWrite_wf h

theorem wordWrite_wf {off : Nat} (h : Memory.wf s) : Memory.wf (s.wordWrite port off v) := by
  unfold State.wordWrite
  split
  · exact h
  · split
    · split
      · exact enablePair_wf h
      · exact h
    · split
      · exact regWrite_wf h
      · exact h

theorem execRegisterWrite_wf {off : Nat} {x : BarWrite} (h : Memory.wf s) : KeepsForm (execRegisterWrite port off x s) :=
  answer_wf h (fun _ h1 => by
    split
    · exact wordWrite_wf h1
    · split
      · exact wordWrite_wf (wordWrite_wf h1)
      · exact h1
    · exact h1)

/-! ## Sys2Proof/Machine/TestPort.lean -/

theorem setTap_wf {t : Tap} (h : Memory.wf s) : Memory.wf (s.setTap t) := by
  unfold State.setTap
  extract_lets +onlyGivenNames u1
  have hu1 : Memory.wf u1 := (Memory.wf_congr rfl rfl rfl).trans h
  split
  · exact hu1
  · exact (State.emit_kept ..).wf hu1

theorem tapRise_wf {tms tdi : Bool} (h : Memory.wf s) : Memory.wf (s.tapRise tms tdi) := by
  unfold State.tapRise
  extract_lets +onlyGivenNames t st t1 u1
  have hu1 : Memory.wf u1 := setTap_wf h
  split
  · exact (State.drawn_kept ..).wf hu1
  · exact hu1

theorem tapFall_wf (h : Memory.wf s) : Memory.wf s.tapFall := by
  unfold State.tapFall
  split
  · exact (State.emit_kept ..).wf (setTap_wf h)
  · exact (State.emit_kept ..).wf (ite_wf (setTap_wf h) h)
  · split
    · exact (State.emit_kept ..).wf h
    · exact (State.drawn_kept ..).wf ((State.emit_kept ..).wf h)
  · split
    · exact (State.emit_kept ..).wf h
    · exact (State.emit_kept ..).wf h
    · exact (State.drawn_kept ..).wf ((State.emit_kept ..).wf h)
  · exact (State.emit_kept ..).wf h

theorem execTckEdge_wf {rising tms : Bool} {tdi : TapIn} (h : Memory.wf s) : KeepsForm (execTckEdge rising tms tdi s) :=
  answerTap_wf h (fun _ h1 => by
    split
    · exact h1
    · split
      · exact setTap_wf h1
      · split
        · exact tapRise_wf h1
        · exact tapFall_wf h1)

theorem execTrstNFall_wf (h : Memory.wf s) : KeepsForm (execTrstNFall s) := answerTap_wf h (fun _ h1 => setTap_wf h1)

/-! ## Sys2Proof/Machine/ThreadInt.lean -/

theorem intOp_wf {f : Form} {op : Word → Word → Word} (h : Memory.wf s) : Memory.wf (s.intOp c g opc w f op) :=
  perLane_wf h (fun _ h1 => h1)

theorem execNop_wf (h : Memory.wf s) : KeepsForm (execNop c g w s) :=
  answer_wf h (fun _ h1 => issue_wf h1 (fun _ _ h2 => advance_wf h2))

theorem execAddI_wf (h : Memory.wf s) : KeepsForm (execAddI c g w s) := answer_wf h (fun _ h1 => intOp_wf h1)

theorem execAddkI_wf (h : Memory.wf s) : KeepsForm (execAddkI c g w s) :=
  answer_wf h (fun _ h1 => perLane_wf h1 (fun _ h2 => h2))

theorem execSubI_wf (h : Memory.wf s) : KeepsForm (execSubI c g w s) := answer_wf h (fun _ h1 => intOp_wf h1)

theorem execMulI_wf (h : Memory.wf s) : KeepsForm (execMulI c g w s) := answer_wf h (fun _ h1 => intOp_wf h1)

theorem execMulhI_wf (h : Memory.wf s) : KeepsForm (execMulhI c g w s) := answer_wf h (fun _ h1 => intOp_wf h1)

theorem execMacI_wf (h : Memory.wf s) : KeepsForm (execMacI c g w s) :=
  answer_wf h (fun _ h1 => perLane_wf h1 (fun _ h2 => h2))

theorem execAndW_wf (h : Memory.wf s) : KeepsForm (execAndW c g w s) := answer_wf h (fun _ h1 => intOp_wf h1)

theorem execOrW_wf (h : Memory.wf s) : KeepsForm (execOrW c g w s) := answer_wf h (fun _ h1 => intOp_wf h1)

theorem execXorW_wf (h : Memory.wf s) : KeepsForm (execXorW c g w s) := answer_wf h (fun _ h1 => intOp_wf h1)

theorem execShl_wf (h : Memory.wf s) : KeepsForm (execShl c g w s) := answer_wf h (fun _ h1 => intOp_wf h1)

theorem execShr_wf (h : Memory.wf s) : KeepsForm (execShr c g w s) := answer_wf h (fun _ h1 => intOp_wf h1)

theorem execRotl_wf (h : Memory.wf s) : KeepsForm (execRotl c g w s) := answer_wf h (fun _ h1 => intOp_wf h1)

theorem execMinI_wf (h : Memory.wf s) : KeepsForm (execMinI c g w s) := answer_wf h (fun _ h1 => intOp_wf h1)

theorem execMaxI_wf (h : Memory.wf s) : KeepsForm (execMaxI c g w s) := answer_wf h (fun _ h1 => intOp_wf h1)

theorem execOnes_wf (h : Memory.wf s) : KeepsForm (execOnes c g w s) :=
  answer_wf h (fun _ h1 => perLane_wf h1 (fun _ h2 => h2))

theorem execClz_wf (h : Memory.wf s) : KeepsForm (execClz c g w s) := answer_wf h (fun _ h1 => perLane_wf h1 (fun _ h2 => h2))

theorem execLdk_wf (h : Memory.wf s) : KeepsForm (execLdk c g w s) := answer_wf h (fun _ h1 => perLane_wf h1 (fun _ h2 => h2))

theorem execMov_wf (h : Memory.wf s) : KeepsForm (execMov c g w s) := answer_wf h (fun _ h1 => perLane_wf h1 (fun _ h2 => h2))

theorem execPick_wf (h : Memory.wf s) : KeepsForm (execPick c g w s) :=
  answer_wf h (fun _ h1 => perLane_wf h1 (fun _ h2 => h2))

theorem execCmpI_wf (h : Memory.wf s) : KeepsForm (execCmpI c g w s) := answer_wf h (fun _ h1 => perLanePred_wf h1)

theorem execGetsys_wf (h : Memory.wf s) : KeepsForm (execGetsys c g w s) :=
  answer_wf h (fun _ h1 => issue_wf h1 (fun _ _ h2 => by
    split
    · exact trap_wf h2
    · extract_lets +onlyGivenNames s3 r
      have h3 : Memory.wf s3 := (State.tickTimer_kept ..).wf h2
      exact advance_wf (setGroup_wf h3)))

theorem execPlog_wf (h : Memory.wf s) : KeepsForm (execPlog c g w s) := answer_wf h (fun _ h1 => perLanePred_wf h1)

theorem execXlane_wf (h : Memory.wf s) : KeepsForm (execXlane c g w s) :=
  answer_wf h (fun _ h1 => perLane_wf h1 (fun _ h2 => h2))

theorem execPoll_wf (h : Memory.wf s) : KeepsForm (execPoll c g w s) :=
  answer_wf h (fun _ h1 => issue_wf h1 (fun _ _ h2 => by
    extract_lets +onlyGivenNames lanes act _ _ y
    exact advance_wf (setGroup_wf h2)))

theorem execStip_wf (h : Memory.wf s) : KeepsForm (execStip c g w s) :=
  answer_wf h (fun _ h1 => perLane_wf h1 (fun _ h2 => h2))

/-! ## Sys2Proof/Machine/ThreadFloat.lean -/

theorem wOp_wf {f : Form} {op : Num → Num → Num → Num × Flags} (h : Memory.wf s) : Memory.wf (s.wOp c g opc w f op) :=
  perLane_wf h (fun _ h1 => h1)

theorem hOp_wf {f : Form} {op : Num → Num → Num → Num × Flags} (h : Memory.wf s) : Memory.wf (s.hOp c g opc w f op) :=
  perLane_wf h (fun _ h1 => h1)

theorem execAddW_wf (h : Memory.wf s) : KeepsForm (execAddW c g w s) := answer_wf h (fun _ h1 => wOp_wf h1)

theorem execMulW_wf (h : Memory.wf s) : KeepsForm (execMulW c g w s) := answer_wf h (fun _ h1 => wOp_wf h1)

theorem execFmaW_wf (h : Memory.wf s) : KeepsForm (execFmaW c g w s) := answer_wf h (fun _ h1 => wOp_wf h1)

theorem execMinW_wf (h : Memory.wf s) : KeepsForm (execMinW c g w s) := answer_wf h (fun _ h1 => wOp_wf h1)

theorem execMaxW_wf (h : Memory.wf s) : KeepsForm (execMaxW c g w s) := answer_wf h (fun _ h1 => wOp_wf h1)

theorem execCmpW_wf (h : Memory.wf s) : KeepsForm (execCmpW c g w s) := answer_wf h (fun _ h1 => perLanePred_wf h1)

theorem execDivW_wf (h : Memory.wf s) : KeepsForm (execDivW c g w s) := answer_wf h (fun _ h1 => wOp_wf h1)

theorem execSqrtW_wf (h : Memory.wf s) : KeepsForm (execSqrtW c g w s) := answer_wf h (fun _ h1 => wOp_wf h1)

theorem execFltI_wf (h : Memory.wf s) : KeepsForm (execFltI c g w s) :=
  answer_wf h (fun _ h1 => perLane_wf h1 (fun _ h2 => h2))

theorem execIntW_wf (h : Memory.wf s) : KeepsForm (execIntW c g w s) :=
  answer_wf h (fun _ h1 => perLane_wf h1 (fun _ h2 => h2))

theorem execAddB2_wf (h : Memory.wf s) : KeepsForm (execAddB2 c g w s) := answer_wf h (fun _ h1 => hOp_wf h1)

theorem execMulB2_wf (h : Memory.wf s) : KeepsForm (execMulB2 c g w s) := answer_wf h (fun _ h1 => hOp_wf h1)

theorem execFmaB2_wf (h : Memory.wf s) : KeepsForm (execFmaB2 c g w s) := answer_wf h (fun _ h1 => hOp_wf h1)

theorem execMinB2_wf (h : Memory.wf s) : KeepsForm (execMinB2 c g w s) := answer_wf h (fun _ h1 => hOp_wf h1)

theorem execMaxB2_wf (h : Memory.wf s) : KeepsForm (execMaxB2 c g w s) := answer_wf h (fun _ h1 => hOp_wf h1)

theorem execNarB16_wf (h : Memory.wf s) : KeepsForm (execNarB16 c g w s) :=
  answer_wf h (fun _ h1 => perLane_wf h1 (fun _ h2 => h2))

theorem execWidB16_wf (h : Memory.wf s) : KeepsForm (execWidB16 c g w s) :=
  answer_wf h (fun _ h1 => perLane_wf h1 (fun _ h2 => h2))

theorem execEncF8_wf (h : Memory.wf s) : KeepsForm (execEncF8 c g w s) :=
  answer_wf h (fun _ h1 => perLane_wf h1 (fun _ h2 => (State.drawn_kept ..).wf h2))

theorem execDecN_wf (h : Memory.wf s) : KeepsForm (execDecN c g w s) :=
  answer_wf h (fun _ h1 => perLane_wf h1 (fun _ h2 => (State.drawn_kept ..).wf h2))

theorem special_wf {op : Word → Word → Word × Flags} (h : Memory.wf s) : Memory.wf (s.special c g opc w op) :=
  perLane_wf h (fun _ h1 => h1)

theorem execInv_wf (h : Memory.wf s) : KeepsForm (execInv c g w s) := answer_wf h (fun _ h1 => special_wf h1)

theorem execInvsqrt_wf (h : Memory.wf s) : KeepsForm (execInvsqrt c g w s) := answer_wf h (fun _ h1 => special_wf h1)

theorem execPow2_wf (h : Memory.wf s) : KeepsForm (execPow2 c g w s) := answer_wf h (fun _ h1 => special_wf h1)

theorem execLgb_wf (h : Memory.wf s) : KeepsForm (execLgb c g w s) := answer_wf h (fun _ h1 => special_wf h1)

theorem execSinT_wf (h : Memory.wf s) : KeepsForm (execSinT c g w s) := answer_wf h (fun _ h1 => special_wf h1)

theorem execCosT_wf (h : Memory.wf s) : KeepsForm (execCosT c g w s) := answer_wf h (fun _ h1 => special_wf h1)

/-! ## Every command, and the step -/

theorem exec_wf (h : Memory.wf s) : ∀ i, KeepsForm (exec i s)
  | .registerWrite .. => execRegisterWrite_wf h
  | .vinRise => execVinRise_wf h
  | .vinFall => execVinFall_wf h
  | .vinSurge => execVinSurge_wf h
  | .converterSoftStartComplete => execConverterSoftStartComplete_wf h
  | .firmwareVerified => execFirmwareVerified_wf h
  | .hbmTrainingComplete .. => execHbmTrainingComplete_wf h
  | .coreSelfTestComplete .. => execCoreSelfTestComplete_wf h
  | .linkWaitEnd => execLinkWaitEnd_wf h
  | .configRequest .. => execConfigRequest_wf h
  | .devrstNFall => execDevrstNFall_wf h
  | .devrstNQualify => execDevrstNQualify_wf h
  | .devrstNRise => execDevrstNRise_wf h
  | .devrst .. => execDevrst_wf h
  | .resetHoldEnd => execResetHoldEnd_wf h
  | .perstAssert .. => execPerstAssert_wf h
  | .perstDeassert .. => execPerstDeassert_wf h
  | .functionLevelReset .. => execFunctionLevelReset_wf h
  | .d3hotEntry .. => execD3hotEntry_wf h
  | .d0Return .. => execD0Return_wf h
  | .nop .. => execNop_wf h
  | .addI .. => execAddI_wf h
  | .addkI .. => execAddkI_wf h
  | .subI .. => execSubI_wf h
  | .mulI .. => execMulI_wf h
  | .mulhI .. => execMulhI_wf h
  | .macI .. => execMacI_wf h
  | .andW .. => execAndW_wf h
  | .orW .. => execOrW_wf h
  | .xorW .. => execXorW_wf h
  | .shl .. => execShl_wf h
  | .shr .. => execShr_wf h
  | .rotl .. => execRotl_wf h
  | .minI .. => execMinI_wf h
  | .maxI .. => execMaxI_wf h
  | .ones .. => execOnes_wf h
  | .clz .. => execClz_wf h
  | .ldk .. => execLdk_wf h
  | .mov .. => execMov_wf h
  | .pick .. => execPick_wf h
  | .cmpI .. => execCmpI_wf h
  | .getsys .. => execGetsys_wf h
  | .plog .. => execPlog_wf h
  | .addW .. => execAddW_wf h
  | .mulW .. => execMulW_wf h
  | .fmaW .. => execFmaW_wf h
  | .minW .. => execMinW_wf h
  | .maxW .. => execMaxW_wf h
  | .cmpW .. => execCmpW_wf h
  | .divW .. => execDivW_wf h
  | .sqrtW .. => execSqrtW_wf h
  | .fltI .. => execFltI_wf h
  | .intW .. => execIntW_wf h
  | .addB2 .. => execAddB2_wf h
  | .mulB2 .. => execMulB2_wf h
  | .fmaB2 .. => execFmaB2_wf h
  | .minB2 .. => execMinB2_wf h
  | .maxB2 .. => execMaxB2_wf h
  | .narB16 .. => execNarB16_wf h
  | .widB16 .. => execWidB16_wf h
  | .encF8 .. => execEncF8_wf h
  | .decN .. => execDecN_wf h
  | .inv .. => execInv_wf h
  | .invsqrt .. => execInvsqrt_wf h
  | .pow2 .. => execPow2_wf h
  | .lgb .. => execLgb_wf h
  | .sinT .. => execSinT_wf h
  | .cosT .. => execCosT_wf h
  | .lrd .. => execLrd_wf h
  | .lwr .. => execLwr_wf h
  | .ld .. => execLd_wf h
  | .st .. => execSt_wf h
  | .ldAcq .. => execLdAcq_wf h
  | .stRel .. => execStRel_wf h
  | .loadComplete .. => execLoadComplete_wf h
  | .atAdd .. => execAtAdd_wf h
  | .atAnd .. => execAtAnd_wf h
  | .atOr .. => execAtOr_wf h
  | .atXor .. => execAtXor_wf h
  | .atMin .. => execAtMin_wf h
  | .atMax .. => execAtMax_wf h
  | .atAddw .. => execAtAddw_wf h
  | .atSwap .. => execAtSwap_wf h
  | .atCmpx .. => execAtCmpx_wf h
  | .xlane .. => execXlane_wf h
  | .poll .. => execPoll_wf h
  | .bwait .. => execBwait_wf h
  | .bmark .. => execBmark_wf h
  | .barrierWatchdogExpiry .. => execBarrierWatchdogExpiry_wf h
  | .fence .. => execFence_wf h
  | .tissue .. => execTissue_wf h
  | .twait .. => execTwait_wf h
  | .msereq .. => execMsereq_wf h
  | .dmareq .. => execDmareq_wf h
  | .stip .. => execStip_wf h
  | .setctx .. => execSetctx_wf h
  | .jump .. => execJump_wf h
  | .jumpr .. => execJumpr_wf h
  | .call .. => execCall_wf h
  | .cede .. => execCede_wf h
  | .probe .. => execProbe_wf h
  | .doneW .. => execDoneW_wf h
  | .trapSoft .. => execTrapSoft_wf h
  | .pstailWrite .. => execPstailWrite_wf h
  | .workItemNop .. => execWorkItemNop_wf h
  | .launch .. => execLaunch_wf h
  | .workItemMark .. => execWorkItemMark_wf h
  | .blockStart .. => execBlockStart_wf h
  | .groupReplay .. => execGroupReplay_wf h
  | .groupKill .. => execGroupKill_wf h
  | .groupStep .. => execGroupStep_wf h
  | .groupHalt .. => execGroupHalt_wf h
  | .parkTimeout .. => execParkTimeout_wf h
  | .icinv .. => execIcinv_wf h
  | .dbgdataWrite .. => execDbgdataWrite_wf h
  | .tileNop .. => execTileNop_wf h
  | .mma .. => execMma_wf h
  | .descriptorComplete .. => execDescriptorComplete_wf h
  | .chunkMismatch .. => execChunkMismatch_wf h
  | .recomputationComplete .. => execRecomputationComplete_wf h
  | .engineIdle .. => execEngineIdle_wf h
  | .blotterSampleComplete .. => execBlotterSampleComplete_wf h
  | .mseRtailWrite .. => execMseRtailWrite_wf h
  | .mseNop .. => execMseNop_wf h
  | .mseAmax .. => execMseAmax_wf h
  | .mseEncode .. => execMseEncode_wf h
  | .mseWiden .. => execMseWiden_wf h
  | .mseFill .. => execMseFill_wf h
  | .mseCopy .. => execMseCopy_wf h
  | .mseHist .. => execMseHist_wf h
  | .openRange .. => execOpenRange_wf h
  | .openWaitEnd .. => execOpenWaitEnd_wf h
  | .clearRange .. => execClearRange_wf h
  | .finishRange .. => execFinishRange_wf h
  | .closeRange .. => execCloseRange_wf h
  | .mseCommandComplete .. => execMseCommandComplete_wf h
  | .notopenTimeout .. => execNotopenTimeout_wf h
  | .dmaChtailWrite .. => execDmaChtailWrite_wf h
  | .dmaNop .. => execDmaNop_wf h
  | .dmaLinear .. => execDmaLinear_wf h
  | .dmaTile .. => execDmaTile_wf h
  | .dmaTileSkew .. => execDmaTileSkew_wf h
  | .dmaTileUnskew .. => execDmaTileUnskew_wf h
  | .dmaComplete .. => execDmaComplete_wf h
  | .tlbInvalidate .. => execTlbInvalidate_wf h
  | .tlbInvalidateDone => execTlbInvalidateDone_wf h
  | .bar4Read .. => execBar4Read_wf h
  | .bar4Write .. => execBar4Write_wf h
  | .retirementComplete .. => execRetirementComplete_wf h
  | .patrolScrub .. => execPatrolScrub_wf h
  | .patrolPassComplete => execPatrolPassComplete_wf h
  | .hbmIdleTimeout => execHbmIdleTimeout_wf h
  | .sramScrub .. => execSramScrub_wf h
  | .linkEnable .. => execLinkEnable_wf h
  | .linkDisable .. => execLinkDisable_wf h
  | .retrain .. => execRetrain_wf h
  | .capabilityBlock .. => execCapabilityBlock_wf h
  | .linkUp .. => execLinkUp_wf h
  | .linkTrainingFail .. => execLinkTrainingFail_wf h
  | .trainingRetryWaitEnd .. => execTrainingRetryWaitEnd_wf h
  | .laneDegraded .. => execLaneDegraded_wf h
  | .dataFlit .. => execDataFlit_wf h
  | .idleFlit .. => execIdleFlit_wf h
  | .nak .. => execNak_wf h
  | .replayTimeout .. => execReplayTimeout_wf h
  | .transitForward .. => execTransitForward_wf h
  | .pktWrite .. => execPktWrite_wf h
  | .pktRead .. => execPktRead_wf h
  | .pktReadResp .. => execPktReadResp_wf h
  | .readTimeout .. => execReadTimeout_wf h
  | .lostNotice .. => execLostNotice_wf h
  | .pktContrib .. => execPktContrib_wf h
  | .sealClean .. => execSealClean_wf h
  | .sealUp .. => execSealUp_wf h
  | .sealDown .. => execSealDown_wf h
  | .pktRetract .. => execPktRetract_wf h
  | .pktResend .. => execPktResend_wf h
  | .barrierArrive .. => execBarrierArrive_wf h
  | .barrierRelease .. => execBarrierRelease_wf h
  | .gathered .. => execGathered_wf h
  | .replaying .. => execReplaying_wf h
  | .haltstep .. => execHaltstep_wf h
  | .linkStateNotice .. => execLinkStateNotice_wf h
  | .ndomirMessage .. => execNdomirMessage_wf h
  | .exclusionExpiry .. => execExclusionExpiry_wf h
  | .counterIncrement .. => execCounterIncrement_wf h
  | .checkpointWriteComplete .. => execCheckpointWriteComplete_wf h
  | .sealTimeout => execSealTimeout_wf h
  | .hmTimeout => execHmTimeout_wf h
  | .hmReopenWaitEnd .. => execHmReopenWaitEnd_wf h
  | .replayingTimer => execReplayingTimer_wf h
  | .stepStatusTimer => execStepStatusTimer_wf h
  | .drtailWrite .. => execDrtailWrite_wf h
  | .seqLoad .. => execSeqLoad_wf h
  | .seqStart .. => execSeqStart_wf h
  | .seqResume .. => execSeqResume_wf h
  | .seqPause .. => execSeqPause_wf h
  | .seqContinue .. => execSeqContinue_wf h
  | .seqHalt .. => execSeqHalt_wf h
  | .seqRetry .. => execSeqRetry_wf h
  | .seqCheckpoint .. => execSeqCheckpoint_wf h
  | .seqUnload .. => execSeqUnload_wf h
  | .seqHmput .. => execSeqHmput_wf h
  | .iftTestStart .. => execIftTestStart_wf h
  | .iftTestComplete .. => execIftTestComplete_wf h
  | .preemptTimeout .. => execPreemptTimeout_wf h
  | .contextMove .. => execContextMove_wf h
  | .contextMoveComplete .. => execContextMoveComplete_wf h
  | .watchdogStall .. => execWatchdogStall_wf h
  | .inputOvercurrent => execInputOvercurrent_wf h
  | .erheadWrite .. => execErheadWrite_wf h
  | .governorPeriod .. => execGovernorPeriod_wf h
  | .rateMonitorReport .. => execRateMonitorReport_wf h
  | .ndomirSensorPoll .. => execNdomirSensorPoll_wf h
  | .throttleNFall => execThrottleNFall_wf h
  | .throttleQualify => execThrottleQualify_wf h
  | .throttleNRise => execThrottleNRise_wf h
  | .throttleHoldEnd => execThrottleHoldEnd_wf h
  | .throttleSustained => execThrottleSustained_wf h
  | .tsoffWrite .. => execTsoffWrite_wf h
  | .queueEnable .. => execQueueEnable_wf h
  | .queueDisable .. => execQueueDisable_wf h
  | .sqDoorbell .. => execSqDoorbell_wf h
  | .cqDoorbell .. => execCqDoorbell_wf h
  | .descriptorFetch .. => execDescriptorFetch_wf h
  | .queueNop .. => execQueueNop_wf h
  | .queueMove .. => execQueueMove_wf h
  | .queueMse .. => execQueueMse_wf h
  | .queueMark .. => execQueueMark_wf h
  | .queueDescriptorComplete .. => execQueueDescriptorComplete_wf h
  | .statusBlockWrite .. => execStatusBlockWrite_wf h
  | .heartbeat .. => execHeartbeat_wf h
  | .heartbeatExpiry => execHeartbeatExpiry_wf h
  | .claim .. => execClaim_wf h
  | .failover .. => execFailover_wf h
  | .positionFrame .. => execPositionFrame_wf h
  | .posInLowTimeout => execPosInLowTimeout_wf h
  | .positionFrameSend => execPositionFrameSend_wf h
  | .ledgerHourly => execLedgerHourly_wf h
  | .eventRetryTimeout => execEventRetryTimeout_wf h
  | .nonceExpiry => execNonceExpiry_wf h
  | .entdaa .. => execEntdaa_wf h
  | .rstdaa => execRstdaa_wf h
  | .setnewda .. => execSetnewda_wf h
  | .enec .. => execEnec_wf h
  | .disec .. => execDisec_wf h
  | .getpid => execGetpid_wf h
  | .getbcr => execGetbcr_wf h
  | .getdcr => execGetdcr_wf h
  | .getstatus => execGetstatus_wf h
  | .getmwl => execGetmwl_wf h
  | .setmwl .. => execSetmwl_wf h
  | .getmrl => execGetmrl_wf h
  | .setmrl .. => execSetmrl_wf h
  | .setEndpointId .. => execSetEndpointId_wf h
  | .getEndpointId .. => execGetEndpointId_wf h
  | .getEndpointUuid .. => execGetEndpointUuid_wf h
  | .getMctpVersionSupport .. => execGetMctpVersionSupport_wf h
  | .getMessageTypeSupport .. => execGetMessageTypeSupport_wf h
  | .getTid .. => execGetTid_wf h
  | .setTid .. => execSetTid_wf h
  | .getPldmVersion .. => execGetPldmVersion_wf h
  | .getPldmTypes .. => execGetPldmTypes_wf h
  | .getPldmCommands .. => execGetPldmCommands_wf h
  | .setEventReceiver .. => execSetEventReceiver_wf h
  | .pollForPlatformEventMessage .. => execPollForPlatformEventMessage_wf h
  | .getSensorReading .. => execGetSensorReading_wf h
  | .getStateSensorReadings .. => execGetStateSensorReadings_wf h
  | .setNumericEffecterValue .. => execSetNumericEffecterValue_wf h
  | .getNumericEffecterValue .. => execGetNumericEffecterValue_wf h
  | .getPdrRepositoryInfo .. => execGetPdrRepositoryInfo_wf h
  | .getPdr _ k => execGetPdr_wf (handle := k) h
  | .queryDeviceIdentifiers .. => execQueryDeviceIdentifiers_wf h
  | .getFirmwareParameters .. => execGetFirmwareParameters_wf h
  | .requestUpdate .. => execRequestUpdate_wf h
  | .passComponentTable .. => execPassComponentTable_wf h
  | .updateComponent .. => execUpdateComponent_wf h
  | .firmwareData .. => execFirmwareData_wf h
  | .activateFirmware .. => execActivateFirmware_wf h
  | .getStatus .. => execGetStatus_wf h
  | .cancelUpdateComponent .. => execCancelUpdateComponent_wf h
  | .cancelUpdate .. => execCancelUpdate_wf h
  | .spdmGetVersion .. => execSpdmGetVersion_wf h
  | .getCapabilities .. => execGetCapabilities_wf h
  | .negotiateAlgorithms .. => execNegotiateAlgorithms_wf h
  | .getDigests .. => execGetDigests_wf h
  | .getCertificate .. => execGetCertificate_wf h
  | .challenge .. => execChallenge_wf h
  | .getMeasurements .. => execGetMeasurements_wf h
  | .getNonce .. => execGetNonce_wf h
  | .getLedger .. => execGetLedger_wf h
  | .takeOwnership .. => execTakeOwnership_wf h
  | .transferOwnership .. => execTransferOwnership_wf h
  | .releaseOwnership .. => execReleaseOwnership_wf h
  | .setTenantKeys .. => execSetTenantKeys_wf h
  | .tenantWipe .. => execTenantWipe_wf h
  | .enterRefurbishment .. => execEnterRefurbishment_wf h
  | .wipeComplete .. => execWipeComplete_wf h
  | .refurbishmentComplete .. => execRefurbishmentComplete_wf h
  | .refclkLoss .. => execRefclkLoss_wf h
  | .refclkReturn .. => execRefclkReturn_wf h
  | .portLinkUp .. => execPortLinkUp_wf h
  | .portLinkDown .. => execPortLinkDown_wf h
  | .linkPartnerDisabled .. => execLinkPartnerDisabled_wf h
  | .platformEventAcknowledged => execPlatformEventAcknowledged_wf h
  | .tckEdge .. => execTckEdge_wf h
  | .trstNFall => execTrstNFall_wf h

end

theorem step_wf {s : State} (h : Memory.wf s) : KeepsForm (step s) := by
  intro t ht
  cases hp : s.pending with
  | nil =>
    rw [step_idle hp] at ht
    cases ht
    exact h
  | cons i r =>
    rw [step_front hp] at ht
    have hr : Memory.wf { s with pending := r } := (Memory.wf_congr rfl rfl rfl).trans h
    exact (exec_wf hr i).wf ht

/-- Settles O55: every command keeps the form, and the step only takes it from the queue. -/
theorem memoryStaysCanonical : Obligations.MemoryStaysCanonical := fun _ _ h e => (step_wf h).wf e

end Sys2Proof.Machine

/-! SUPPORT. The placement mode (R182, R183): what a write of MEM.IMODE makes of the register, and where a PA then lies. -/

namespace Sys2Proof.Machine

/-- The value that a write of MEM.IMODE passes on: GRAN keeps its old value where the written one is above 4 (Table 6.7). -/
def imodeValue (s : State) (g : Nat) (v : Word) : Word :=
  if 4 < F.MEM_IMODE_GRAN.of v then F.MEM_IMODE_GRAN.into v (s.fld F.MEM_IMODE_GRAN g) else v

theorem imodeWrite_eq (s : State) (g : Nat) (v : Word) : s.imodeWrite g v = s.plainWrite .MEM_IMODE g 0 (imodeValue s g v) := by
  unfold State.imodeWrite imodeValue
  split
  · rfl
  · rfl

theorem mode_written (o w : Word) : F.MEM_IMODE_MODE.of (Reg.MEM_IMODE.written o w) = F.MEM_IMODE_MODE.of w := by
  simp only [Field.of, Reg.written, Reg.desc, List.foldl, FieldDesc.write, bitsOf, F.MEM_IMODE_MODE, BitVec.toNat_ofNat]
  omega

theorem gran_written (o w : Word) : F.MEM_IMODE_GRAN.of (Reg.MEM_IMODE.written o w) = F.MEM_IMODE_GRAN.of w := by
  simp only [Field.of, Reg.written, Reg.desc, List.foldl, FieldDesc.write, bitsOf, F.MEM_IMODE_GRAN, BitVec.toNat_ofNat]
  omega

theorem mode_imodeValue (s : State) (g : Nat) (v : Word) : F.MEM_IMODE_MODE.of (imodeValue s g v) = v.toNat / 8 % 2 := by
  unfold imodeValue
  split
  · exact Field.of_into_above (f := F.MEM_IMODE_GRAN) (g := F.MEM_IMODE_MODE) (by decide) (by decide) (by decide) v _
  · rfl

theorem gran_imodeValue (s : State) (g : Nat) (v : Word) :
    F.MEM_IMODE_GRAN.of (imodeValue s g v) = if v.toNat % 8 ≤ 4 then v.toNat % 8 else s.fld F.MEM_IMODE_GRAN g := by
  have hv : F.MEM_IMODE_GRAN.of v = v.toNat % 8 := by simp [Field.of, bitsOf, F.MEM_IMODE_GRAN]
  have hlt : s.fld F.MEM_IMODE_GRAN g < 8 := Nat.mod_lt _ (by decide)
  unfold imodeValue
  rw [hv]
  by_cases h : 4 < v.toNat % 8
  · rw [if_pos h, if_neg (by omega), Field.of_into _ _ _ (by decide) (by decide)]
    exact Nat.mod_eq_of_lt hlt
  · rw [if_neg h, if_pos (by omega), hv]

theorem at_imode {g : Nat} (h : g < 47) : Reg.at_ (Reg.addr .MEM_IMODE g 0) = some (.MEM_IMODE, g, 0) := by
  have hall : ∀ g < 47, Reg.at_ (Reg.addr .MEM_IMODE g 0) = some (.MEM_IMODE, g, 0) := by decide +kernel
  exact hall g h

theorem imode_addr_ne {g k : Nat} (h : k ≠ g) : Reg.addr .MEM_IMODE k 0 ≠ Reg.addr .MEM_IMODE g 0 := by
  simp only [Reg.addr, Reg.desc]
  omega

/-- Where a PA of slice `g` lies, by the slice's MODE and GRAN (R182). -/
theorem place_of_slice {s : State} {pa g mode gran : Nat} (hg : pa / (12 * 2 ^ 30) = g) (hm : s.fld F.MEM_IMODE_MODE g = mode)
    (hu : s.fld F.MEM_IMODE_GRAN g = gran) :
    s.place pa = (let o := pa % (12 * 2 ^ 30)
      let u := granOf gran
      if mode = 0 then (o / u % 12, g * 2 ^ 30 + o / u / 12 * u + o % u)
      else
        let x := o % (3 * 2 ^ 30)
        (3 * (o / (3 * 2 ^ 30)) + x / u % 3, g * 2 ^ 30 + x / u / 3 * u + x % u)) := by
  subst hg hm hu
  unfold State.place State.flag
  by_cases h : s.fld F.MEM_IMODE_MODE (pa / (12 * 2 ^ 30)) = 0
  · simp only [h, bne_self_eq_false, Bool.false_eq_true, if_false, if_true]
  · simp only [bne_iff_ne.mpr h, if_true, if_neg h]

/-- The PAs of every other slice lie where they lay. -/
theorem place_of_slice_ne {s : State} {g pa : Nat} (v : Word) (h : pa / (12 * 2 ^ 30) ≠ g) :
    (s.imodeWrite g v).place pa = s.place pa := by
  have hr : (s.imodeWrite g v).reg .MEM_IMODE (pa / (12 * 2 ^ 30)) 0 = s.reg .MEM_IMODE (pa / (12 * 2 ^ 30)) 0 := by
    rw [imodeWrite_eq]
    exact plainWrite_other s _ _ _ _ _ _ _ (imode_addr_ne h)
  have hmode : (s.imodeWrite g v).fld F.MEM_IMODE_MODE (pa / (12 * 2 ^ 30)) = s.fld F.MEM_IMODE_MODE (pa / (12 * 2 ^ 30)) :=
    congrArg F.MEM_IMODE_MODE.of hr
  have hgran : (s.imodeWrite g v).fld F.MEM_IMODE_GRAN (pa / (12 * 2 ^ 30)) = s.fld F.MEM_IMODE_GRAN (pa / (12 * 2 ^ 30)) :=
    congrArg F.MEM_IMODE_GRAN.of hr
  exact (place_of_slice rfl hmode hgran).trans (place_of_slice rfl rfl rfl).symm

theorem mode_imodeWrite (s : State) (g : Nat) (v : Word) : (s.imodeWrite g v).fld F.MEM_IMODE_MODE g = v.toNat / 8 % 2 := by
  rw [imodeWrite_eq, State.fld]
  exact (congrArg _ (plainWrite_same s _ _ _ _)).trans ((mode_written _ _).trans (mode_imodeValue s g v))

theorem gran_imodeWrite (s : State) (g : Nat) (v : Word) :
    (s.imodeWrite g v).fld F.MEM_IMODE_GRAN g = if v.toNat % 8 ≤ 4 then v.toNat % 8 else s.fld F.MEM_IMODE_GRAN g := by
  rw [imodeWrite_eq, State.fld]
  exact (congrArg _ (plainWrite_same s _ _ _ _)).trans ((gran_written _ _).trans (gran_imodeValue s g v))

/-- Settles O47: the write is a plain one of `imodeValue`, and `State.place` reads nothing but MODE and GRAN of the slice. -/
theorem placementModeMovesNoData : Obligations.PlacementModeMovesNoData := by
  intro s port g v hport hg hw
  have hexec : exec (.registerWrite port (Reg.addr .MEM_IMODE g 0) (.word v)) s = .next (keepFixed s (s.imodeWrite g v)) := by
    rw [exec_registerWrite_word _ v s (by simpa [isPort] using hport), wordWrite_reaches v (at_imode hg) (by decide) hw]
    rfl
  have heq := imodeWrite_eq s g v
  have hmode := mode_imodeWrite s g v
  have hgran := gran_imodeWrite s g v
  refine ⟨_, hexec, ?_, hmode, hgran, fun q k l hq => ?_, fun pa n => ?_⟩
  · rw [heq]; rfl
  · show (s.imodeWrite g v).reg q k l = _
    rw [heq]
    exact plainWrite_other s _ _ _ _ _ _ _ hq
  · have hbytes : (s.imodeWrite g v).hbm = s.hbm := by rw [heq]; rfl
    refine List.map_congr_left fun i _ => ?_
    show Sparse.get 0 (s.imodeWrite g v).hbm.bytes ((s.imodeWrite g v).paKey (pa + i)) = _
    have hred : ∀ k, (s.imodeWrite g v).redirected k = s.redirected k := fun k => by simp only [State.redirected, hbytes]
    rw [hbytes, State.paKey, hred]
    by_cases h : (pa + i) / (12 * 2 ^ 30) = g
    · rw [place_of_slice h hmode hgran]
      simp only [hbmKey, h, ne_eq, not_true_eq_false, if_false]
    · rw [place_of_slice_ne v h]
      simp only [hbmKey, h, ne_eq, not_false_eq_true, if_true]
end Sys2Proof.Machine

/-! SUPPORT. Patrol (R189) beside a lost word of core SRAM (R338): a patrol read tends whatever word has been met, not only its own
unit. -/

namespace Sys2Proof.Machine

/-- A READY device on which a read has met a word of slot 0's SRAM that failed again after its rewrite; the slot is retired. -/
def wordMet : State :=
  (Tests.ready.setFld F.SAF_CMAP_RETIRED 1 0).modSaf fun x => { x with sram := [(0, ⟨true, true, true⟩)] }

/-- The marks of words in error that a command leaves; those of the state where it gives none. -/
def marksAfter (i : Instr) (s : State) : Sparse BadWord :=
  match exec i s with
  | .next t => t.saf.sram
  | _ => s.saf.sram

theorem marksAfter_of_ends {i : Instr} {s t : State} (h : Ends i s t) : marksAfter i s = t.saf.sram := by
  rw [Ends] at h
  rw [marksAfter, h]
  rfl

/-- The patrol read of a clean unit clears the mark. -/
theorem marksAfter_patrol_wordMet : (marksAfter (.patrolScrub 0 0 .clean) wordMet).isEmpty = true := by decide +kernel

/-- Refutes O24: the statement asks that a patrol read of a clean unit change nothing but its progress in every state, also in one
where a lost word of core SRAM has been met and not yet tended (`wordMet`): there the command tends it and retires the slot. Between
commands no such mark stands (`State.groupsHeld`), which the statement does not suppose. -/
theorem not_scrubbingAndRetirement : ¬ Obligations.ScrubbingAndRetirement := by
  intro h
  obtain ⟨-, hpatrol, -⟩ := h wordMet 0 (by decide) (by decide +kernel)
  obtain ⟨hclean, -⟩ := hpatrol 0 .clean (by decide) (by decide +kernel)
  have hmarks := marksAfter_of_ends (hclean (.inl rfl))
  have hgone := marksAfter_patrol_wordMet
  rw [hmarks] at hgone
  cases (show ([(0, ⟨true, true, true⟩)] : Sparse BadWord).isEmpty = true from hgone)

end Sys2Proof.Machine

/-! SUPPORT. Invalidation of translations, self-refresh and BAR4 (R176, R180, R368, R402, R443): each command as its statement names
its conditions. -/

namespace Sys2Proof.Machine

/-! ## Invalidation (R180) -/

theorem tlbInvalidate_ends {s : State} {port : Nat} (v : Word) (hp : port < 2) (hw : s.writable port (Reg.addr .MEM_TLBINV 0 0) = true) :
    Ends (.tlbInvalidate port v) s (s.tlbInvalidate v) := by
  have hexec : exec (.tlbInvalidate port v) s = .next (keepFixed s (s.bar0Write port .MEM_TLBINV 0 0 fun s => s.tlbInvalidate v)) :=
    answer_next s _ (by simpa [isPort] using hp)
  rw [bar0Write_reaches _ hw] at hexec
  exact hexec

/-- What TLB_INVALIDATE_DONE leaves: the translations of no covered page, and nothing outstanding. -/
def State.invalidated (s : State) : State :=
  (s.modHbm fun h => { h with
    tlb := h.tlb.filter fun e => !h.tlbInv.any (tlbCovers · e.1), tlbInv := [] }).setFld F.MEM_TLBINV_DONE 1

theorem tlbInvalidateDone_waits {s : State} (h : s.underOld = true) : exec .tlbInvalidateDone s = .next s := by
  have hexec : exec .tlbInvalidateDone s =
      .next (keepFixed s (if s.hbm.tlbInv.isEmpty || s.underOld then s else s.invalidated)) := rfl
  rw [hexec, h, Bool.or_true, if_pos rfl, keepFixed_self]

theorem tlbInvalidateDone_ends {s : State} (hne : s.hbm.tlbInv ≠ []) (h : s.underOld = false) :
    Ends .tlbInvalidateDone s s.invalidated := by
  have hexec : exec .tlbInvalidateDone s =
      .next (keepFixed s (if s.hbm.tlbInv.isEmpty || s.underOld then s else s.invalidated)) := rfl
  rw [h, Bool.or_false, if_neg (by simpa using hne)] at hexec
  exact hexec

theorem tlbCovers_eq_false {first pages page : Nat} :
    tlbCovers (first, pages) page = false ↔ pages ≠ 0 ∧ ¬ (first ≤ page ∧ page < first + pages) := by
  simp [tlbCovers]

/-- With one invalidation outstanding, the translations held behind it are those of the pages that it does not cover. -/
theorem mem_tlb_invalidated {s : State} {first pages : Nat} (hinv : s.hbm.tlbInv = [(first, pages)]) (e) :
    e ∈ s.invalidated.hbm.tlb ↔ e ∈ s.hbm.tlb ∧ pages ≠ 0 ∧ ¬ (first ≤ e.1 ∧ e.1 < first + pages) := by
  show e ∈ s.hbm.tlb.filter (fun e => !s.hbm.tlbInv.any (tlbCovers · e.1)) ↔ _
  rw [List.mem_filter, hinv]
  simp only [List.any_cons, List.any_nil, Bool.or_false, Bool.not_eq_true', tlbCovers_eq_false]

theorem State.modHbm_setFld_frame (s : State) (g : Hbm → Hbm) (f : Field) (v : Nat) : (s.modHbm g).setFld f v =
    { s with hbm := ((s.modHbm g).setFld f v).hbm, regs := ((s.modHbm g).setFld f v).regs } := rfl

theorem invalidated_frame (s : State) : s.invalidated = { s with hbm := s.invalidated.hbm, regs := s.invalidated.regs } := by
  unfold State.invalidated
  exact State.modHbm_setFld_frame ..

theorem invalidated_done (s : State) : s.invalidated.fld F.MEM_TLBINV_DONE = 1 := by
  unfold State.invalidated
  exact State.fld_setFld_same _ F.MEM_TLBINV_DONE 1 0 0 (by decide) (by decide)

theorem keepFixed_fld (s t : State) (f : Field) (i j : Nat) : (keepFixed s t).fld f i j = t.fld f i j := rfl

/-- A command that ends in `u` gives what is true of HBM and the registers of `u`, where only they change. -/
theorem Ends.gives_hbm_regs {i : Instr} {s u : State} (h : Ends i s u) (hframe : u = { s with hbm := u.hbm, regs := u.regs })
    {P : Hbm → Prop} {Q : State → Prop} (hP : P u.hbm) (hQ : Q (keepFixed s u)) :
    Gives i s fun t => t = keepFixed s { s with hbm := t.hbm, regs := t.regs } ∧ Q t ∧ P t.hbm :=
  ⟨_, h, congrArg (keepFixed s) hframe, hQ, hP⟩

theorem tlbInvalidateDone_gives {s : State} {first pages : Nat} (hinv : s.hbm.tlbInv = [(first, pages)])
    (h : s.underOld = false) : Gives .tlbInvalidateDone s fun t =>
      t = keepFixed s { s with hbm := t.hbm, regs := t.regs } ∧ t.hbm.tlbInv = [] ∧ t.fld F.MEM_TLBINV_DONE = 1 ∧
      (∀ e ∈ t.hbm.tlb, e ∈ s.hbm.tlb ∧ pages ≠ 0 ∧ ¬ (first ≤ e.1 ∧ e.1 < first + pages)) ∧
      ∀ e ∈ s.hbm.tlb, pages ≠ 0 → ¬ (first ≤ e.1 ∧ e.1 < first + pages) → e ∈ t.hbm.tlb := by
  have htlb := mem_tlb_invalidated hinv
  have hends := tlbInvalidateDone_ends (by simp [hinv]) h
  have hnone : s.invalidated.hbm.tlbInv = [] := by
    unfold State.invalidated
    exact congrArg Hbm.tlbInv (State.setFld_hbm ..)
  obtain ⟨t, ht, hframe, hdone, hinv', hgone, hkept⟩ := hends.gives_hbm_regs (invalidated_frame s)
    (P := fun x => x.tlbInv = [] ∧
      (∀ e ∈ x.tlb, e ∈ s.hbm.tlb ∧ pages ≠ 0 ∧ ¬ (first ≤ e.1 ∧ e.1 < first + pages)) ∧
      ∀ e ∈ s.hbm.tlb, pages ≠ 0 → ¬ (first ≤ e.1 ∧ e.1 < first + pages) → e ∈ x.tlb)
    (Q := fun t => t.fld F.MEM_TLBINV_DONE = 1)
    ⟨hnone, fun e he => (htlb e).mp he, fun e he hp hn => (htlb e).mpr ⟨he, hp, hn⟩⟩ ((keepFixed_fld ..).trans (invalidated_done s))
  exact ⟨t, ht, hframe, hinv', hdone, hgone, hkept⟩

/-! ## Self-refresh (R368) -/

theorem hbmIdleTimeout_ends {s : State} (hdies : s.diesUp = true) (hstep : 7 ≤ s.pwr.step) (hrun : s.isRunning = false)
    (hidle : s.pwr.idleMs ≠ 0) :
    Ends .hbmIdleTimeout s { s with hbm := { s.hbm with asleep := List.range 12, idle := true } } := by
  have hexec : exec .hbmIdleTimeout s = .next (keepFixed s
      (if s.diesUp && decide (7 ≤ s.pwr.step) && !s.isRunning && s.pwr.idleMs != 0 then
        s.modHbm fun h => { h with asleep := List.range 12, idle := true } else s)) := rfl
  rw [if_pos (by simp [hdies, hstep, hrun, hidle])] at hexec
  exact hexec

/-! ## BAR4 (R176, R402, R443) -/

theorem bar4Hit_iff {s : State} {p off n : Nat} :
    s.bar4Hit p off n = true ↔ s.barLive p = true ∧ 1 ≤ n ∧ off + n ≤ 2 ^ (s.port p).bar4Log := by
  simp [State.bar4Hit, and_assoc]

section

variable {s s1 : State} {p off n : Nat}

theorem bar4Read_data {b : List Byte} (hp : isPort p = true) (hit : s.bar4Hit p off n = true) (hready : s.bar4Ready = true)
    (hread : s.read (agentBar4 p) off n = (s1, .ok b)) : Ends (.bar4Read p off n) s (s1.emit (.bar4 p (some b) false)) := by
  show execBar4Read p off n s = _
  rw [execBar4Read, answer_next _ _ hp]
  simp only [hit, hready, hread, Bool.not_true, Bool.false_eq_true, if_false]

theorem bar4Read_untranslated {cause : Nat} (hp : isPort p = true) (hit : s.bar4Hit p off n = true) (hready : s.bar4Ready = true)
    (hread : s.read (agentBar4 p) off n = (s1, .error (.mmu cause))) :
    Ends (.bar4Read p off n) s ((s1.aerError p 20 true).emit (.bar4 p none false)) := by
  show execBar4Read p off n s = _
  rw [execBar4Read, answer_next _ _ hp]
  simp only [hit, hready, hread, Bool.not_true, Bool.false_eq_true, if_false]

theorem bar4Read_uncorrectable (hp : isPort p = true) (hit : s.bar4Hit p off n = true) (hready : s.bar4Ready = true)
    (hread : s.read (agentBar4 p) off n = (s1, .error .ecc)) :
    Ends (.bar4Read p off n) s ((s1.aerError p 15 true).emit (.bar4 p none true)) := by
  show execBar4Read p off n s = _
  rw [execBar4Read, answer_next _ _ hp]
  simp only [hit, hready, hread, Bool.not_true, Bool.false_eq_true, if_false]

theorem bar4Read_unready (hp : isPort p = true) (hit : s.bar4Hit p off n = true) (hready : s.bar4Ready = false) :
    Ends (.bar4Read p off n) s ((s.aerError p 15 true).emit (.bar4 p none true)) := by
  show execBar4Read p off n s = _
  rw [execBar4Read, answer_next _ _ hp]
  simp only [hit, hready, Bool.not_true, Bool.false_eq_true, if_false, Bool.not_false, if_true]

theorem bar4Write_standby {b : List Byte} (hp : isPort p = true) (hs : s.isStandby p = true) :
    exec (.bar4Write p off b) s = .next s := by
  show execBar4Write p off b s = _
  rw [execBar4Write, answer_next _ _ hp]
  simp only [hs, Bool.not_true, Bool.and_false, Bool.false_eq_true, if_false, keepFixed_self]

/-- Bytes within one page are one piece. -/
theorem chunksOf_in_page {va n : Nat} (h1 : 1 ≤ n) (h : va % 4096 + n ≤ 4096) : chunksOf va n = [(va, n)] := by
  obtain ⟨k, hk⟩ : ∃ k, n / 4096 + 2 = k + 2 := ⟨_, rfl⟩
  have hmin : min n (4096 - va % 4096) = n := by omega
  rw [chunksOf, hk, pageChunks, if_neg (by omega)]
  simp only [hmin, Nat.sub_self]
  rfl

theorem bar4Write_in_page {b : List Byte} (hp : isPort p = true) (hit : s.bar4Hit p off b.length = true) (hready : s.bar4Ready = true)
    (hs : s.isStandby p = false) (h1 : 1 ≤ b.length) (hpage : off % 4096 + b.length ≤ 4096) :
    Ends (.bar4Write p off b) s (s.write (agentBar4 p) false off b).1 := by
  show execBar4Write p off b s = _
  rw [execBar4Write, answer_next _ _ hp]
  simp only [hit, hready, hs, Bool.not_false, Bool.and_self, if_true, chunksOf_in_page h1 hpage, State.bar4Store, List.take_length,
    State.put]

end

/-- Settles O23: each clause is the rule of its command. -/
theorem translationsAndBar4 : Obligations.TranslationsAndBar4 := by
  refine ⟨fun s => ⟨fun port v hp hw => tlbInvalidate_ends v hp hw, fun _ h => tlbInvalidateDone_waits h,
    fun first pages hinv h => tlbInvalidateDone_gives hinv h,
    fun hdies hstep hrun hidle => hbmIdleTimeout_ends hdies hstep hrun hidle⟩, fun s p off n hp hlive h1 hfit => ?_⟩
  have hport : isPort p = true := by simpa [isPort] using hp
  have hit : s.bar4Hit p off n = true := bar4Hit_iff.mpr ⟨hlive, h1, hfit⟩
  refine ⟨fun hready => ⟨fun s1 b h => bar4Read_data hport hit hready h, fun s1 c h => bar4Read_untranslated hport hit hready h,
    fun s1 h => bar4Read_uncorrectable hport hit hready h⟩, fun hready => bar4Read_unready hport hit hready,
    fun b hb hready hs hpage => ?_, fun b _ hs => bar4Write_standby hport hs⟩
  subst hb
  exact bar4Write_in_page hport hit hready hs h1 hpage

end Sys2Proof.Machine

/-! SUPPORT. Global loads (R193, R221, R262): what an issued load ends in, one lemma per branch, and LOAD_COMPLETE. -/

namespace Sys2Proof.Machine

/-! ## The immediate and the lanes -/

/-- IMM as the model extends it is IMM read as a signed number. -/
theorem IFields.simm_eq (w : IFields) : w.simm = w.imm.toInt := by
  have h := w.imm.isLt
  simp only [IFields.simm, Machine.signed, BitVec.toInt, Nat.mod_eq_of_lt h]
  split <;> split <;> omega

/-- The lanes of a load with their global addresses. -/
def Group.loadLanes (x : Group) (w : IFields) : List (Nat × Nat) :=
  (x.lanes w).map fun l => (l, x.globalAddr w l w.imm.toInt)

/-- What a load does behind its fetch. -/
def State.loadBody (c g opc : Nat) (w : IFields) (s : State) (x : Group) : State :=
  let lanes := x.loadLanes w
  let own := lanes.filter fun e => gNode e.2 == s.node
  let peers := lanes.filter fun e => gNode e.2 != s.node
  match lanes.findSome? fun e => s.globalCause c e.2 (2 ^ (w.md.toNat % 4)) with
  | some cause => s.trap c g cause opc x.pc.toNat false
  | none =>
    if lanes.isEmpty then s.advance c g
    else if 2048 < s.net.reads.length + peers.length then s
    else
      match s.loadOwn c (2 ^ (w.md.toNat % 4)) own [] with
      | (s1, .error cause) => s1.trap c g cause opc x.pc.toNat false
      | (s1, .ok got) =>
        let r := s1.loadPeers c g peers []
        r.1.modGroup c g fun y => { y with
          state := .blocked, wait := .load
          load := some { d := w.d.toNat, size := w.md.toNat % 4, opc := opc, ids := r.2, got := got,
                         lanes := lanes.map fun e => (e.1, BitVec.ofNat 64 e.2) } }

/-- The form of a load. -/
abbrev loadForm (w : IFields) (mods : Nat) : Form :=
  { d := regOrPair (w.md.toNat % 4 == 3), a := .pair, imm := true, mods := mods }

theorem load_eq (s : State) (c g opc : Nat) (w : IFields) (mods : Nat) :
    s.load c g opc w mods = s.issue c g opc w (loadForm w mods) (State.loadBody c g opc w) := by
  have hown (s : State) (e : Nat × Nat) : (!s.isPeer e.2) = (gNode e.2 == s.node) := by simp [State.isPeer, bne]
  simp only [State.load, IFields.simm_eq, hown]
  rfl

/-! ## An issued load, branch by branch -/

/-- The two loads with their opcodes and the modifier bits they define. -/
def IsLoad (cmd : Instr) (c g : Nat) (w : IFields) (opc mods : Nat) : Prop :=
  cmd = .ld c g w ∧ opc = 0x52 ∧ mods = 0xF ∨ cmd = .ldAcq c g w ∧ opc = 0x54 ∧ mods = 0xFFFF

theorem exec_of_isLoad {cmd : Instr} {c g opc mods : Nat} {w : IFields} (h : IsLoad cmd c g w opc mods) (s : State) :
    exec cmd s = answer (isCore c && isGroup g) s fun s => s.issue c g opc w (loadForm w mods) (State.loadBody c g opc w) := by
  simp only [← load_eq]
  obtain ⟨rfl, rfl, rfl⟩ | ⟨rfl, rfl, rfl⟩ := h <;> rfl

section
variable {cmd : Instr} {s s1 : State} {c g opc mods : Nat} {w : IFields} {x : Group}

theorem load_ends (hcmd : IsLoad cmd c g w opc mods) (h : Issues s s1 c g opc w (loadForm w mods) x) :
    Ends cmd s (s1.loadBody c g opc w x) := h.ends (exec_of_isLoad hcmd s)

/-- A lane that may not go where its address points. -/
theorem load_traps_cause {cause : Nat} (hcmd : IsLoad cmd c g w opc mods) (h : Issues s s1 c g opc w (loadForm w mods) x)
    (hc : ((x.lanes w).findSome? fun l => s1.globalCause c (x.globalAddr w l w.imm.toInt) (2 ^ (w.md.toNat % 4))) = some cause) :
    Traps cmd s s1 c g x cause false := by
  have he := load_ends hcmd h
  have hl : ((x.loadLanes w).findSome? fun e => s1.globalCause c e.2 (2 ^ (w.md.toNat % 4))) = some cause := by
    rw [Group.loadLanes, List.findSome?_map]
    exact hc
  simp only [State.loadBody, hl] at he
  exact he.traps h.still rfl fun _ _ _ => rfl

/-- A load in which no lane executes only goes on. -/
theorem load_goesOn (hcmd : IsLoad cmd c g w opc mods) (h : Issues s s1 c g opc w (loadForm w mods) x) (hx : x.exec w = 0) :
    GoesOn cmd s s1 c g (x.next s1 c g) := by
  have he := load_ends hcmd h
  have hl : x.loadLanes w = [] := by simp [Group.loadLanes, Group.lanes, hx, lanesOf, inMask]
  simp only [State.loadBody, hl, List.findSome?_nil, List.isEmpty_nil, if_true, advance_eq h.still] at he
  exact he.goesOn

section
variable (hcmd : IsLoad cmd c g w opc mods) (h : Issues s s1 c g opc w (loadForm w mods) x) (hne : x.loadLanes w ≠ [])
  (hok : ∀ e ∈ x.loadLanes w, s1.globalCause c e.2 (2 ^ (w.md.toNat % 4)) = none)
include hcmd h hne hok

/-- Without enough free read ids the load waits at its instruction. -/
theorem load_waits (hfull : 2048 < s1.net.reads.length + ((x.loadLanes w).filter fun e => gNode e.2 != s1.node).length) :
    Ends cmd s s1 := by
  have he := load_ends hcmd h
  simp only [State.loadBody, List.findSome?_eq_none_iff.mpr hok, List.isEmpty_eq_false_iff.mpr hne, Bool.false_eq_true,
    if_false, if_pos hfull] at he
  exact he

variable (hfree : s1.net.reads.length + ((x.loadLanes w).filter fun e => gNode e.2 != s1.node).length ≤ 2048)
  {own : State × Except Nat (List (Nat × DWord))}
  (hown : s1.loadOwn c (2 ^ (w.md.toNat % 4)) ((x.loadLanes w).filter fun e => gNode e.2 == s1.node) [] = own)
  (hgroup : own.1.group c g = some x)
include hfree hown hgroup

/-- A read of the own device that fails. -/
theorem load_traps_own {cause : Nat} (herr : own.2 = .error cause) : Traps cmd s own.1 c g x cause false := by
  have he := load_ends hcmd h
  obtain ⟨s2, r⟩ := own
  obtain rfl : r = .error cause := herr
  simp only [State.loadBody, List.findSome?_eq_none_iff.mpr hok, List.isEmpty_eq_false_iff.mpr hne, Bool.false_eq_true,
    if_false, if_neg (not_lt.mpr hfree), hown] at he
  exact he.traps hgroup rfl fun _ _ _ => rfl

omit hgroup in
/-- The load has read its own lanes and asked the peers for the others. -/
theorem load_leaves {got : List (Nat × DWord)} {s3 : State} {ids : List (Nat × Nat)} (hgot : own.2 = .ok got)
    (hpeers : own.1.loadPeers c g ((x.loadLanes w).filter fun e => gNode e.2 != s1.node) [] = (s3, ids))
    (hgroup : s3.group c g = some x) :
    Leaves cmd s s3 c g { x with
      state := .blocked, wait := .load
      load := some { d := w.d.toNat, size := w.md.toNat % 4, opc := opc, ids := ids, got := got,
                     lanes := (x.loadLanes w).map fun e => (e.1, BitVec.ofNat 64 e.2) } } := by
  have he := load_ends hcmd h
  obtain ⟨s2, r⟩ := own
  obtain rfl : r = .ok got := hgot
  dsimp only at hpeers
  simp only [State.loadBody, List.findSome?_eq_none_iff.mpr hok, List.isEmpty_eq_false_iff.mpr hne, Bool.false_eq_true,
    if_false, if_neg (not_lt.mpr hfree), hown, hpeers, modGroup_of_group _ hgroup] at he
  exact he

end
end

/-! ## LOAD_COMPLETE -/

section
variable {s : State} {c g : Nat} {fail : Bool} {x : Group} {o : LoadOp} (hc : c < 64) (hg : g < 64)
  (hgroup : s.group c g = some x) (hruns : s.coreRuns c = true) (hwait : x.wait = .load) (hload : x.load = some o)
  (hids : o.ids = [])
include hc hg hgroup hruns hwait hload hids

/-- What LOAD_COMPLETE does to a load whose answers are all there. -/
theorem loadComplete_ends : Ends (.loadComplete c g fail) s
    (if fail && o.fromHost then (s.readFailed o.hostPort).trap c g TC.memerr o.opc x.pc.toNat false
     else (s.setGroup c g { o.got.foldl (fun y e => y.setD e.1 o.d (o.size == 3) e.2.toNat) x with
       load := none, wait := .none, state := .running }).advance c g) := by
  rw [Ends, show exec (.loadComplete c g fail) s = execLoadComplete c g fail s from rfl, execLoadComplete,
    answer_next s _ (by simp [isCore, isGroup, hc, hg])]
  simp [hgroup, hload, hwait, hruns, hids]

theorem loadComplete_goesOn (hf : fail = true → o.fromHost = false) : GoesOn (.loadComplete c g fail) s s c g
    (Group.next { o.got.foldl (fun y e => y.setD e.1 o.d (decide (o.size = 3)) e.2.toNat) x with
      load := none, wait := .none, state := .running } s c g) := by
  have he := loadComplete_ends (fail := fail) hc hg hgroup hruns hwait hload hids
  have hno : ¬ (fail && o.fromHost) = true := by simpa using hf
  rw [if_neg hno, setGroup_advance _ hgroup] at he
  exact he.goesOn

theorem loadComplete_traps (hf : fail = true) (hh : o.fromHost = true) :
    Traps (.loadComplete c g fail) s (s.readFailed o.hostPort) c g x 0x05 false := by
  have he := loadComplete_ends (fail := fail) hc hg hgroup hruns hwait hload hids
  rw [if_pos (by simp [hf, hh])] at he
  exact he.traps ((group_of_units (State.readFailed_kept _ _).units c g).trans hgroup) rfl fun _ _ _ => rfl

end

/-- Settles O7: each clause is a branch of the issued load (`load_traps_cause`, `load_waits`, `load_traps_own`, `load_leaves`,
`load_goesOn`) or of LOAD_COMPLETE. -/
theorem globalLoads : Obligations.GlobalLoads := by
  refine ⟨fun s s1 c g w x cause hcause => ⟨fun h => ?_, fun h => ?_⟩, ?_, fun s s1 c g w x cmd opc mods hcmd hx h => ?_, ?_⟩
  · exact load_traps_cause (.inl ⟨rfl, rfl, rfl⟩) h hcause
  · exact load_traps_cause (.inr ⟨rfl, rfl, rfl⟩) h hcause
  · rintro s s1 c g w x _ _ _ cmd opc mods hcmd rfl hne hok rfl rfl h
    refine ⟨load_waits hcmd h hne hok, fun hfree hgroup => ⟨fun cause herr => ?_, fun got s3 ids hgot hpeers hgroup3 => ?_⟩⟩
    · exact load_traps_own hcmd h hne hok hfree rfl hgroup herr
    · exact load_leaves hcmd h hne hok hfree rfl hgot hpeers hgroup3
  · exact load_goesOn hcmd h hx
  · intro s c g fail x o hc hg hgroup hruns hwait hload hids
    exact ⟨loadComplete_goesOn hc hg hgroup hruns hwait hload hids, loadComplete_traps hc hg hgroup hruns hwait hload hids⟩

end Sys2Proof.Machine

/-! SUPPORT. A store whose first lane changes the device's own node id (R187, R221): with a redirection beyond the reserve of a stack, the
count of a corrected error lands in LNK.NODE, and the next lane finds its own device a peer. -/

namespace Sys2Proof.Machine

/-- The stack number at which the array of MEM.HBMCE would reach LNK.NODE. -/
def strayStack : Nat := 0x100180

/-- A READY device with block 1 of stack 0 redirected to where no reserve lies, a corrected error in the first unit there, and the
error ring full. -/
def strayed : State :=
  (Tests.ready.modHbm fun h => { h with
    redirect := [(1, strayStack * 2 ^ 24 - 47 * 2 ^ 18)], latent := [(strayStack * 2 ^ 31, .corrected)] }).modSaf
  fun x => { x with overflow := true }

/-- Lanes 0 and 1 store to two units of the page at 0xC000, whose PA lies in that block. -/
def strayGroup : Group := { (Tests.one 0xC000).setReg 1 4 0xC040 with active := 3, live := 3 }

def strayWord : IFields := Tests.fits { a := .pair, b := .reg, imm := true, mods := 0xF }

def strayStart : State := Tests.code (Tests.at_ strayed strayGroup) 0x53 strayWord

/-- Both bytes written, one after the other. -/
def strayStored (s : State) : State := ((s.write 0 false 0xC000 [0]).1.write 0 false 0xC040 [0]).1

theorem stray_issues : ∃ s1, (s1 = strayStart ∨ s1 = strayStart.drawn) ∧
    Issues strayStart s1 0 0 0x53 strayWord (storeForm strayWord 0xF) strayGroup :=
  Tests.issues_sound (by decide +kernel)

/-- At the fetch every lane addresses the own device's memory. -/
def ownLanes (s : State) : Bool :=
  (strayGroup.lanes strayWord).all fun l =>
    let a := strayGroup.globalAddr strayWord l strayWord.imm.toInt
    gNode a == s.node && s.globalCause 0 a 1 == none && decide (gVa a < 0x800000000000)

theorem stray_ownLanes : (ownLanes strayStart && ownLanes strayStart.drawn) = true := by decide +kernel

theorem stray_writes : ((strayGroup.lanes strayWord).map fun l =>
    (gVa (strayGroup.globalAddr strayWord l strayWord.imm.toInt), toBytes 1 (strayGroup.srcB strayWord l false))) =
      [(0xC000, [0]), (0xC040, [0])] := by decide +kernel

/-- The two writes succeed, and a group that goes on behind them owes no peer a read-back. -/
def writesOwe (s : State) : Bool :=
  (s.write 0 false 0xC000 [0]).2 == none && ((s.write 0 false 0xC000 [0]).1.write 0 false 0xC040 [0]).2 == none &&
  ((((strayStored s).setGroup 0 0 (strayGroup.next (strayStored s) 0 0)).pathEnds 0 0).group 0 0).all fun y => y.peerLast.isEmpty

theorem stray_writesOwe : (writesOwe strayStart && writesOwe strayStart.drawn) = true := by decide +kernel

/-- What the store leaves: lane 1 has sent its byte to a peer. -/
theorem stray_store : Tests.after (.st 0 0 strayWord) strayStart
    (fun t => !(t.group 0 0).all fun y => y.peerLast.isEmpty) = true := by decide +kernel

theorem writesAll_stray {s : State} (h : writesOwe s = true) :
    WritesAll 0 false s [(0xC000, [0]), (0xC040, [0])] (strayStored s) := by
  simp only [writesOwe, Bool.and_eq_true, beq_iff_eq] at h
  obtain ⟨⟨h1, h2⟩, -⟩ := h
  exact ⟨_, Prod.ext rfl h1, _, Prod.ext rfl h2, rfl⟩

theorem keepFixed_group (s t : State) (c g : Nat) : (keepFixed s t).group c g = t.group c g := rfl

/-- Refutes O8: its first clause asks that lanes which address the own device at the fetch write there one after the other. A redirection
to a block beyond its stack's reserve (`strayed`; retirement makes none, but the statement holds of every state) makes the corrected error
that lane 0 meets count in LNK.NODE: the node id is then 1, and lane 1 sends its byte to node 0 as to a peer. -/
theorem not_globalStores : ¬ Obligations.GlobalStores := by
  intro h
  obtain ⟨s1, hs1, hissues⟩ := stray_issues
  have hown : ownLanes s1 = true ∧ writesOwe s1 = true := by
    have h1 := Bool.and_eq_true_iff.mp stray_ownLanes
    have h2 := Bool.and_eq_true_iff.mp stray_writesOwe
    rcases hs1 with rfl | rfl
    · exact ⟨h1.1, h2.1⟩
    · exact ⟨h1.2, h2.2⟩
  obtain ⟨hlanes, howe⟩ := hown
  obtain ⟨hst, -⟩ := h.1 strayStart s1 0 0 strayWord strayGroup (strayStored s1) 1 (by decide +kernel) fun l hl => by
    simpa [and_assoc] using List.all_eq_true.mp hlanes l hl
  obtain ⟨u, rfl, hexec⟩ := hst hissues (stray_writes ▸ writesAll_stray howe)
  have hsent := stray_store
  rw [Tests.after, hexec] at hsent
  dsimp only at hsent
  rw [keepFixed_group] at hsent
  simp only [writesOwe, Bool.and_eq_true] at howe
  rw [howe.2] at hsent
  exact Bool.noConfusion hsent

end Sys2Proof.Machine
